-- ==== Sys2Proof/Word.lean ====
section
/-! DEFINITION. The word types of the model and nothing else (00 R11: little-endian, bit 0 least significant). -/

namespace Sys2Proof

/-- A 64-bit register or memory word. -/
abbrev Word := BitVec 64

/-- One byte. -/
abbrev Byte := BitVec 8

end Sys2Proof
end

