-- ==== Sys2Proof/Syntax.lean ====
section
/-! DEFINITION. The commands of the block: one constructor of Instr per row of spec/opcode_table.json, in the table's order.
A command is an act of the host, of a partner or of a pin, or an event of one of the device's own engines.
Unit numbers are plain numbers: a tile T, a frond F, a memory controller, a router 12*y + x, a die k, a region 9*k + n. -/

namespace Sys2Proof

/-- One beat of user logic on a fabric port's IQ channel (R292). -/
structure IqBeat where
  op : BitVec 2
  tag : BitVec 8
  addr : BitVec 44
  len : BitVec 3
  data : BitVec 1024
  mask : BitVec 128
  last : Bool
  hopop : BitVec 3
  queue : BitVec 14
  count : BitVec 9
  entry : Word
  seq : BitVec 16
  epoch : BitVec 16
  specv : Bool
  deriving DecidableEq, Repr

/-- One beat of user logic on a fabric port's TR channel (R292). -/
structure TrBeat where
  ttag : BitVec 6
  status : BitVec 8
  data : BitVec 1024
  last : Bool
  deriving DecidableEq, Repr

/-- The beats user logic has accepted at a fabric port since the port's last event, by READY on TQ and on IR (R292). -/
structure Accepted where
  tq : Nat
  ir : Nat
  deriving DecidableEq, Repr

/-- An IQ beat, with what user logic has accepted at the port since the port's last event. -/
structure IqEvent where
  beat : IqBeat
  acc : Accepted
  deriving DecidableEq, Repr

/-- A TR beat, with what user logic has accepted. -/
structure TrEvent where
  beat : TrBeat
  acc : Accepted
  deriving DecidableEq, Repr

/-- The TTAG of a target request whose time is up, with what user logic has accepted. -/
structure TtagEvent where
  ttag : BitVec 6
  acc : Accepted
  deriving DecidableEq, Repr

/-- The core of a die starts; whether the image of slot A and of slot B arrived there as the flash holds it (14 R360). -/
structure CoreStart where
  die : Nat
  intactA : Bool
  intactB : Bool
  deriving DecidableEq, Repr

/-- The base and the size that the host commits to the HDM decoder (15 R388). -/
structure HdmSpan where
  base : Nat
  size : Nat
  deriving DecidableEq, Repr

/-- The enables of the CXL function in configuration space (15 R384): memory space, bus mastering, MSI-X, and MSI-X's function mask. -/
structure CxlEnables where
  mem : Bool
  bus : Bool
  msix : Bool
  msixMask : Bool
  deriving DecidableEq, Repr

/-- Where a marker came on the eight lanes of a port (16 R401): the largest skew between two of them, in symbols, and how many symbols since the last
codeword boundary came before it, a filler block counted as 320. -/
structure MarkerPlace where
  skew : Nat
  pos : Nat
  deriving DecidableEq, Repr

/-- The units a router's local ports may carry (R18). -/
inductive UnitAt where
  | frond (f : Nat)
  | mc (m : Nat)
  | patch (p : Nat) (b : Bool)
  | static (k : Nat) (b : Bool)
  | link (n : Nat)
  | dieMgr (k : Nat)
  | config (k : Nat)
  | sec (k : Nat)
  | rcp (k : Nat)
  | cxl
  | cmd
  | none
  deriving DecidableEq, Repr

/-- What an identity register names: a router with its coordinates, a bridge endpoint, or the unit at a local port (R362). -/
inductive Identity where
  | router (x y : Nat)
  | bridge
  | unit (u : UnitAt)
  deriving DecidableEq, Repr

/-- An answer in a census (R362): the router, the place there as CENSUS.FIRST_PORT numbers it (R380), and what answers. -/
structure Answer where
  r : Nat
  port : Nat
  id : Identity
  deriving DecidableEq, Repr

/-- The rates at which the CXL port may train, in GT/s (R381). -/
inductive CxlRate where
  | g2_5
  | g8
  | g16
  | g32
  deriving DecidableEq, Repr

/-- How a signature-RAM word reads (R330). -/
inductive SigRead where
  | clean
  | corrected
  | uncorrectable
  deriving DecidableEq, Repr

/-- What a JTAG session may do (R438): access the unit-control range, and in a PROVISION session fuse OWNER_HASH or OWNER_AES (R425). -/
inductive JtagOp where
  | read (addr : BitVec 44)
  | write (addr : BitVec 44) (v : Word)
  | fuseOwnerHash (bytes : List Byte)
  | fuseOwnerAes (bytes : List Byte)
  deriving DecidableEq, Repr

/-- The power domains of a die (R337). -/
inductive DomainId where
  | frond (f : Nat)
  | mcGroup (k r : Nat)
  | patch (p : Nat)
  | routerGroup (k v : Nat)
  deriving DecidableEq, Repr

/-- The commands of the block. -/
inductive Instr where
  -- tile instructions: the tile's sequencer issues the instruction at its PC (R79)
  | add (t : Nat)
  | sub (t : Nat)
  | and (t : Nat)
  | or (t : Nat)
  | xor (t : Nat)
  | shl (t : Nat)
  | shr (t : Nat)
  | li (t : Nat)
  | mov (t : Nat)
  | cmp (t : Nat)
  | br (t : Nat)
  | brc (t : Nat)
  | loop (t : Nat)
  | halt (t : Nat)
  | waith (t : Nat)
  | signal (t : Nat)
  | mld (t : Nat)
  | mma (t : Nat)
  | mzero (t : Nat)
  | mdrain (t : Nat)
  | hpush (t : Nat)
  | hpop (t : Nat)
  | hpeek (t : Nat)
  | strm (t : Nat)
  | strmy (t : Nat)
  | rng (t : Nat)
  | ballast (t : Nat)
  | fence (t : Nat)
  | trap (t : Nat)
  | vld (t : Nat)
  | vst (t : Nat)
  | vadd (t : Nat)
  | vsub (t : Nat)
  | vmul (t : Nat)
  | vfma (t : Nat)
  | vmax (t : Nat)
  | vmin (t : Nat)
  | vsel (t : Nat)
  | vmaxi (t : Nat)
  | vmini (t : Nat)
  | vred (t : Nat)
  | vscan (t : Nat)
  | vcvt (t : Nat)
  | sinit (t : Nat)
  | sfeed (t : Nat)
  | sread (t : Nat)
  | smerge (t : Nat)
  -- events of a tile's arrays and stream engine
  | mldSetComplete (t : Nat)
  | newwSwap (t : Nat)
  | mmaBlockWrite (t : Nat)
  | arrayGapExpiry (t : Nat)
  | arrayRampStep (t : Nat)
  | rampLead (t : Nat)
  | ballastEnd (t : Nat)
  | streamBlockStart (t : Nat)
  | streamBlockComplete (t : Nat)
  -- answers of the network at local port lp of router r
  | readResponse (r lp : Nat)
  | writeAck (r lp : Nat)
  | hrespReceive (r lp : Nat)
  | hopRetry (r lp : Nat)
  -- frond controller events
  | queueOperation (f : Nat)
  | wcFillReturn (f : Nat)
  -- work items of the RUN fetched from queue q with tag g
  | itemSend (q g : Nat)
  | itemDispatch (f : Nat)
  | itemEnd (t : Nat)
  | itemTimeout (t : Nat)
  | loadReport (f : Nat)
  | dieTotalReport (k : Nat)
  | stealRequest (f : Nat)
  | stealAnswer (f : Nat)
  | commitApply (q g : Nat)
  | consRecheck (q g : Nat)
  -- host commands: the fetched command of queue q with tag g is carried out
  | nop (q g : Nat)
  | identify (q g : Nat)
  | getStatus (q g : Nat)
  | setPowerPolicy (q g : Nat)
  | resetWarm (q g : Nat)
  | setQueueCreate (q g : Nat)
  | setQueueDelete (q g : Nat)
  | setQueueWeights (q g : Nat)
  | getCounters (q g : Nat)
  | clearCounters (q g : Nat)
  | getAvailability (q g : Nat)
  | setEventMask (q g : Nat)
  | copy (q g : Nat)
  | fill (q g : Nat)
  | biasSet (q g : Nat)
  | cacheInvalidate (q g : Nat)
  | loadProgram (q g : Nat)
  | run (q g : Nat)
  | abort (q g : Nat)
  | queryRun (q g : Nat)
  | setSchedPolicy (q g : Nat)
  | fabricLoad (q g : Nat)
  | patchLoad (q g : Nat)
  | patchClear (q g : Nat)
  | capture (q g : Nat)
  | readback (q g : Nat)
  | scrubSetPeriod (q g : Nat)
  | scrubPause (q g : Nat)
  | scrubResume (q g : Nat)
  | scrubRebuild (q g : Nat)
  | gpioRead (q g : Nat)
  | gpioReleaseKeepers (q g : Nat)
  | linkDisable (q g : Nat)
  | linkEnableTrain (q g : Nat)
  | linkRetrain (q g : Nat)
  | linkAllowLowPower (q g : Nat)
  | linkHoldRun (q g : Nat)
  | linkStatus (q g : Nat)
  | routeSet (q g : Nat)
  | collectiveSetup (q g : Nat)
  | attest (q g : Nat)
  | getMeasurements (q g : Nat)
  | getCert (q g : Nat)
  | fwStage (q g : Nat)
  | fwActivate (q g : Nat)
  | debugChallenge (q g : Nat)
  | debugResponse (q g : Nat)
  | diagRead (q g : Nat)
  | mcThaw (q g : Nat)
  | traceStart (q g : Nat)
  | traceStop (q g : Nat)
  | bistRun (q g : Nat) (failed : List Nat)
  -- queues, doorbells and registers
  | commandFetch
  | qEnable (cfg : Word)
  | qDisable (cfg : Word)
  | sqTailDoorbell (q : Nat) (v : BitVec 32)
  | cqHeadDoorbell (q : Nat) (v : BitVec 32)
  | registerWrite (off size : Nat) (v : Word)
  | eventPost
  | coalTimer (q : Nat)
  -- package network: local port lp, input port p, output port p and virtual channel vc of router r
  | packetInject (r lp : Nat)
  | unmappedAnswer (r : Nat)
  | flitReceive (r p : Nat) (err : BitVec 1120)
  | flitReplayRequest (r p : Nat)
  | creditReturn (r p vc : Nat)
  -- memory controllers: controller m, channel c
  | mcReadRequest (m : Nat)
  | mcWriteRequest (m : Nat)
  | writeEntryAccept (m : Nat)
  | dramCommandIssue (m c : Nat)
  | dramReadData (m c : Nat) (errs : List (Nat × Byte))
  | parityFailure (m c : Nat)
  | refreshDue (m c : Nat)
  | dramTempRead (m : Nat) (temp : Byte)
  | retrainChannelDone (m c : Nat)
  | agePromote (m c n : Nat)
  | patrolScrubRead (m : Nat)
  -- fabric
  | iqRequest (r lp : Nat) (b : IqEvent)
  | trResponse (r lp : Nat) (b : TrEvent)
  | tgtTimeout (r lp : Nat) (ttag : TtagEvent)
  | sleepOkChange (g : Nat) (level : Bool)
  | patchWake (p : Nat)
  | dllLock (g : Nat)
  | dllLockLoss (g : Nat)
  | dllLockTimeout (g : Nat)
  | configClearDone (k : Nat)
  | configFrame (k : Nat)
  | startupStep (k : Nat)
  | scrubPassStart (g : Nat)
  | scrubFrameRead (g : Nat) (upset : List (Nat × Bool)) (sig : SigRead)
  | scrubWatchdog (g : Nat)
  -- clocks, power, reset and supply
  | horizonUpdate
  | domainEval (d : DomainId)
  | domainEntryDone (d : DomainId)
  | domainWakeDone (d : DomainId)
  | powerWindow (watts : Nat) (tj : List (List Nat))
  | thermtrip (k : Nat)
  | lidSensorRead (temp : Nat)
  | pllLockLoss (k : Nat)
  | dmWatchdog (k : Nat)
  | modRstAssert
  | modRstRelease
  | perstAssert
  | perstRelease
  | powerGood
  | inputUp
  | brownout
  | enBreak
  | overcurrent
  | overcurrentRetry
  -- bring-up
  | fuseSense
  | secBoot (k : CoreStart)
  | networkSelftestDone (failed : List (Nat × Nat))
  | census (answers : List Answer)
  | dramTrainDone (k : Nat) (failed : Bool)
  | dramTestDone (k : Nat) (exhausted : Bool)
  | selftestPartDone (t : Nat) (pass : Bool) (faulty : List (Nat × Nat)) (frondOk : Bool)
  | partIIBatch
  | closing
  | sporeSetup
  | sporeChunkSend
  | sporeChunkWrite (f : Nat) (bad : List Nat)
  | sporeReportRequest
  | sporeReport (t : Nat)
  | sporeReportTimeout (f : Nat)
  | sporeRepairRound
  -- CXL
  | cxlLinkL0 (allThree : Bool) (rate : CxlRate) (lanes : Nat)
  | cxlLinkDown
  | cxlMemRead (addr : Nat)
  | cxlMemWrite (addr : Nat) (data : List Byte)
  | hostSnoop (addr : Nat)
  | doeRequest (kind : Nat) (nonce : List Byte)
  | hdmCommit (ways gran : Nat) (size : HdmSpan) (skip : Nat)
  | busMasterEnable (on : CxlEnables)
  | dStateChange (d3 : Bool)
  | cxlHotReset
  | cxlReset
  | flr
  -- Badosa links: port n
  | trainingFrame (n lane : Nat) (frame : BitVec 128) (want : BitVec 8)
  | detectDwell (n : Nat)
  | linkStateTimeout (n : Nat)
  | linkMarker (n : Nat) (marks : List (BitVec 512)) (skew : MarkerPlace)
  | linkMarkerLoss (n : Nat)
  | linkParam (n : Nat) (addr : BitVec 18) (valid : Bool) (dir : BitVec 3)
  | linkDataFlit (n : Nat) (flit : BitVec 1184) (damaged : Bool)
  | linkNak (n : Nat) (seq : BitVec 12)
  | linkDownNotice (n : Nat)
  | linkElectricalIdle (n : Nat)
  | linkIdleTimeout (n : Nat) (own : Bool)
  | linkDryTimeout (n : Nat) (agreed : Bool)
  | linkWake (n : Nat) (own ok : Bool)
  | rwrite (n : Nat)
  | rpush (n : Nat)
  | rack (n : Nat)
  | cdata (n : Nat)
  | treq (n : Nat)
  | tgrant (n : Nat)
  | tdata (n : Nat)
  | rackResendTimer (c : Nat)
  | collectiveRackTimeout (c : Nat)
  | collectiveSrcPop (c : Nat)
  -- security
  | measurementAppend
  | svcFuseBlow (ok : Bool)
  | challengeLapse
  | glitchDetect (k : Nat)
  -- SMBus: bus b (0 MSMB, 1 CXA)
  | smbStatus (b : Nat)
  | smbCause (b : Nat)
  | smbThermal (b inlet outlet : Nat)
  | smbPower (b vin iin : Nat)
  | smbSerial (b : Nat)
  -- events listed last in the table
  | pllRelock (k : Nat)
  | cxlCacheResponse (addr : Nat) (data : List Byte)
  | jtagRequest (op : JtagOp)
  | msixMaskWrite (v : Nat) (mask : Bool)
  | challengeDelayExpiry
  | fecCodewordReceive (n : Nat) (lanes : List (List Nat))
  deriving DecidableEq, Repr

end Sys2Proof
end

