-- ==== Sys2Proof/Decode.lean ====
section
/-! DEFINITION. The command a table word spells. spec/opcode_table.json gives no row any bits: its commands are acts and events,
not words, so no word spells one. -/

namespace Sys2Proof

/-- The command that the low nbits of w spell by the table's bits: none, for the table gives no bits. -/
def decodeTableWord (_nbits _w : Nat) : Option Instr := none

end Sys2Proof
end

