-- ==== Sys2Proof/Machine/Bits.lean ====
section
/-! DEFINITION. Bit fields, byte order and sign extension (00 R11: bit 0 is the least significant, multi-byte values are little-endian). -/

namespace Sys2Proof.Machine

/-- The field of n bits of w that starts at bit lo. -/
def fld {k : Nat} (w : BitVec k) (lo n : Nat) : Nat := (w.toNat >>> lo) % 2 ^ n

/-- One bit of w. -/
def bitAt {k : Nat} (w : BitVec k) (i : Nat) : Bool := fld w i 1 == 1

/-- A word from fields, each a value with its lowest bit: the fields do not overlap where the spec's layouts do not. -/
def pack (l : List (Nat × Nat)) : Word := BitVec.ofNat 64 (l.foldl (fun a x => a + (x.1 <<< x.2)) 0)

/-- The bit of a flag. -/
def b2n (b : Bool) : Nat := if b then 1 else 0

/-- The value of an n-bit two's complement field. -/
def sext (n x : Nat) : Int := if x % 2 ^ n < 2 ^ (n - 1) then (x % 2 ^ n : Nat) else ((x % 2 ^ n : Nat) : Int) - 2 ^ n

/-- The n-bit two's complement pattern of an integer. -/
def wrapInt (n : Nat) (x : Int) : Nat := (x % (2 ^ n : Nat)).toNat

/-- The n bytes of x, lowest first. -/
def leBytes : Nat → Nat → List Byte
  | 0, _ => []
  | n + 1, x => BitVec.ofNat 8 x :: leBytes n (x / 256)

/-- The number whose bytes, lowest first, are l. -/
def leNat : List Byte → Nat
  | [] => 0
  | b :: r => b.toNat + 256 * leNat r

/-- Bytes a to a + n - 1 of a list, as a number. -/
def leAt (l : List Byte) (a n : Nat) : Nat := leNat ((l.drop a).take n)

/-- A list in pieces of n elements; the fuel bounds their number. -/
def chunksOf {α : Type} (n : Nat) : Nat → List α → List (List α)
  | 0, _ => []
  | _ + 1, [] => []
  | f + 1, l => l.take n :: chunksOf n f (l.drop n)

/-- Bytes in 128-byte flit payloads (09 R232): the last one is filled with zeros. -/
def flitsOf (l : List Byte) : List (BitVec 1024) :=
  (chunksOf 128 (l.length / 128 + 1) l).map (fun c => BitVec.ofNat 1024 (leNat c))

/-- The bytes of flit payloads. -/
def bytesOf (l : List (BitVec 1024)) : List Byte := l.flatMap (fun x => leBytes 128 x.toNat)

/-- The list with element i replaced. -/
def setAt {α : Type} (l : List α) (i : Nat) (x : α) : List α := l.set i x

/-- The list without its element i. -/
def dropAt {α : Type} (l : List α) (i : Nat) : List α := l.take i ++ l.drop (i + 1)

/-- Numbers lo, lo + 1, … below lo + n. -/
def upFrom (lo n : Nat) : List Nat := (List.range n).map (fun i => lo + i)

/-- Whether a number is in a list. -/
def has (l : List Nat) (x : Nat) : Bool := l.elem x

/-- The list with x in it, in rising order. -/
def insNat (x : Nat) : List Nat → List Nat
  | [] => [x]
  | y :: r => if x < y then x :: y :: r else if x = y then y :: r else y :: insNat x r

/-- The list without x. -/
def delNat (x : Nat) (l : List Nat) : List Nat := l.filter (fun y => y != x)

/-- The count of ones of a word. -/
def popCount (x : Nat) : Nat := ((List.range 64).filter (fun i => x.testBit i)).length

end Sys2Proof.Machine
end

