-- ==== Sys2Proof/Machine/Crc.lean ====
section
/-! DEFINITION. The check codes: the 16-bit code of 12 R326 and 16 R406, and CRC-32C as RFC 3720 defines it (09 R231, 12 R310, 16 R410). Its polynomial and the form of its start and end
values come from that standard, which the spec names and does not restate (log entry 3). -/

namespace Sys2Proof.Machine

/-- One bit of the reflected CRC-32C. -/
def crcBit (c : Nat) : Nat := if c % 2 = 1 then (c / 2) ^^^ 0x82F63B78 else c / 2

/-- One byte of the CRC-32C. -/
def crcByte (c : Nat) (b : Byte) : Nat := crcBit (crcBit (crcBit (crcBit (crcBit (crcBit (crcBit (crcBit (c ^^^ b.toNat))))))))

/-- CRC-32C of a byte string. -/
def crc32c (l : List Byte) : BitVec 32 := BitVec.ofNat 32 ((l.foldl crcByte 0xFFFFFFFF) ^^^ 0xFFFFFFFF)

/-- One byte, most significant bit first, into the 16-bit code (12 R326): x¹⁶ + x¹² + x⁵ + 1. -/
def sigByte (c : Nat) (b : Byte) : Nat :=
  (List.range 8).foldl (fun c _ => if 32768 ≤ c then (2 * c % 65536) ^^^ 0x1021 else 2 * c) (c ^^^ (b.toNat * 256))

end Sys2Proof.Machine
end

