-- ==== Sys2Proof/Config.lean ====
section
/-! DEFINITION. What an implementation fixes and the free values: constants with no body, so that no proof can see a value.
The four variants of the part stand here as well (00 R1, R190). -/

namespace Sys2Proof

/-- The variants of the part (00 R1); the code is that of ID_DEVICE.VARIANT (08 R190). -/
inductive Variant where
  | ael192
  | ael160
  | ael96
  | ael48
  deriving DecidableEq, Repr

/-- One stored copy of the fuse map's fields and of the CRC-32C stored with it (14 R359). -/
structure FuseMap where
  variant : BitVec 16
  frondEn : List (BitVec 24)
  mcEn : List (BitVec 24)
  patchEn : Word
  linkEn : BitVec 16
  spareSel : List (Nat × BitVec 24)
  sramRepair : List (Nat × Nat)
  serial : Word
  stepping : Byte
  crc : BitVec 32
  deriving DecidableEq, Repr

/-- Drive strength of a GPIO pad (11 R299). -/
inductive PadDrive where
  | mA4 | mA8 | mA12
  deriving DecidableEq, Repr, Inhabited

/-- The weak pull of a GPIO pad (11 R299). -/
inductive PadPull where
  | none | up | down
  deriving DecidableEq, Repr, Inhabited

/-- The options of a GPIO pad (11 R299). -/
structure PadOpt where
  drive : PadDrive
  pull : PadPull
  fast : Bool
  deriving DecidableEq, Repr, Inhabited

namespace Config

/-- The free value number n, of any width: a value the spec leaves open (log entry 2). -/
opaque freeValue (w : Nat) : Nat → BitVec w

/-- What a lane of a register named by both VD and VI of a search holds after it, from the value and the index to be written (05 R120 states no order; log
entry 2). -/
opaque searchSame : Nat → BitVec 32 → BitVec 32 → BitVec 32

/-- What tile t's selector window reads beyond the live image, by offset (05 R130 states no value there; log entry 2). -/
opaque selBeyond : Nat → Nat → Byte

/-- The bytes poisoned data carries, by address: no rule states them (log entry 2). -/
opaque poisonByte : Nat → Byte

/-- Byte n of SHAKE256's output for a byte string (17 R427): a standard the spec names and does not state (log entry 3). -/
opaque shakeByte : List Byte → Nat → Byte

/-- SHAKE256 of a byte string to n bytes. -/
def shake256 (l : List Byte) (n : Nat) : List Byte := (List.range n).map (shakeByte l)

/-- Whether a Falcon-1024 signature verifies under a public key (17 R427; log entry 3). -/
opaque falconVerify : List Byte → List Byte → List Byte → Bool

/-- Byte n after the header byte of the identity key's signature over a message; the first argument is the randomness (17 R437; log entry 3). -/
opaque signByte : Nat → List Byte → Nat → Byte

/-- The signature: 1,280 bytes in the padded format, whose header byte is 0x3A (17 R427). -/
def falconSign (r : Nat) (l : List Byte) : List Byte := 0x3A :: (List.range 1279).map (signByte r l)

/-- Keystream byte n of AES-256-GCM under a key and an initial value (12 R310; log entry 3). -/
opaque gcmStream : List Byte → List Byte → Nat → Byte

/-- The tag of AES-256-GCM over associated data and a ciphertext, under a key and an initial value (12 R310; log entry 3). -/
opaque gcmTag : List Byte → List Byte → List Byte → List Byte → List Byte

/-- The boot ROM's contents of die k (17 R435 KIND 0x01). -/
opaque romBytes : Nat → List Byte

/-- Word n of the tile firmware in a management firmware body, whose layout no rule states (17 R429; log entry 3). -/
opaque tileFirmware : List Byte → Nat → Word

/-- The boot configuration in a management firmware body: LINK_AUTO, FABRIC_BASE, FABRIC_DIES, CXL_REFCLK (14 R379, 17 R429; log entry 3). -/
opaque bootLinkAuto : List Byte → BitVec 16
opaque bootFabricBase : List Byte → BitVec 32
opaque bootFabricDies : List Byte → BitVec 8
opaque bootRefclk : List Byte → BitVec 1

/-- Where certificate 1 lies in the boot flash, and certificate 2 behind the identity blob: no rule states it (17 R431; log entry 38). -/
opaque certPlace : Nat → Nat

/-- The cells of tuft n of its column that a frame's bytes set to shift-register mode: the places of those bits are Ghepor's (12 R304, R326; log entry 3). -/
opaque srCells : List Byte → Nat → Byte

/-- The isolation values of a die's patch, from the static region's region frames: which cells HOLD, and the level of the others; cells 0 to 255 are those of
the border channel, cell 256 that of SLEEP_OK of port A (11 R289, 12 R304; log entry 118). -/
opaque isoHold : List Byte → Nat → BitVec 257
opaque isoLevel : List Byte → Nat → BitVec 257

/-- TGT_TIMEOUT of port A (0) or B (1), and the options of a pad, from a region's region frames, whose layout is Ghepor's (12 R304; log entry 3). -/
opaque portTimeout : List Byte → Nat → Nat
opaque padOption : List Byte → Nat → PadOpt

/-- GSRLEVEL of a tuft's 8 cells, from its 1,280 configuration bits (11 R279, 12 R304; log entry 3). -/
opaque gsrLevels : List Byte → Byte

/-- The 8 check bits a block RAM keeps over a row's 64 data bits: no rule states the code (11 R283; log entry 41). -/
opaque ramCheck : BitVec 64 → BitVec 8

/-- The module's assigned vendor identifier (15 R384). -/
opaque vendorId : BitVec 16

/-- Latencies in ns and bandwidths in GB/s of CDAT at a rate and width other than 32 GT/s x16, for which no value is stated (15 R386; log entry 2): by
the rate in tenths of GT/s, the lanes, and the number of the value. -/
opaque cdatValue : Nat → Nat → Nat → Nat

/-- The bytes of the fuse map's voted fields over which its CRC-32C runs, whose order no rule states (14 R359; log entry 3); the stored CRC is not one
of them. -/
opaque fuseBytes : FuseMap → List Byte

/-- Where in LD0's DRAM the tile firmware is staged, in units of 64 bytes: no rule states it (14 R356; log entry 2). -/
opaque stagePlace : Nat

/-- The payload of an LCTL flit, by a number for its kind and its argument: no rule lays it out (16 R408-R412; log entry 102). -/
opaque lctlPayload : Nat → Nat → BitVec 1024

/-- The answer of DOE discovery (15 R386): an object format the spec names and does not state (log entry 3). -/
opaque doeDiscovery : List Byte

/-- Whether the identity blob in the boot flash unseals under the PUF key (17 R426). -/
opaque unseals : List Byte → Bool

end Config

end Sys2Proof
end

