-- ==== Sys2Proof/Machine/State.lean ====
section
/-! DEFINITION. The state of the block, as plain data: everything the spec gives the machine, the queue of waiting commands,
the reasons a step can stop, and the machine right after reset.
Each field's comment gives its meaning, its width, the rule and file of spec/ that names it, and its value after reset. -/

namespace Sys2Proof.Machine

/-- A sparse table from numbers to values, in one canonical form: keys strictly rising, no entry equal to the table's default. -/
abbrev Sparse (α : Type) := List (Nat × α)

/-- A byte memory: a sparse table of bytes (Host.Cell); what an unlisted address reads as is said where the memory is. -/
abbrev Mem := List Host.Cell

/-! ## Names -/

/-- Status codes (08 R218). -/
inductive Status where
  | success | successDerated | alreadyComplete | aborted
  | invalidOpcode | invalidParam | notReady | busy | noResource
  | memoryUncorrectable | memoryFrozen | poison
  | configCrc | signatureInvalid | frameOutOfRegion | regionBusy
  | linkDown | routeUnreachable | authFailed | rollback
  | tileFault | timeout | internal
  deriving DecidableEq, Repr

/-- Tile fault causes (04 R108). -/
inductive Cause where
  | none | reservedOpcode | reservedField | operandRange | operandPair | stationaryEmpty
  | loopNest | pcRange | address | dataPoison | trap | streamState | sramUncorrectable
  deriving DecidableEq, Repr

/-- DEV_STATUS.STATE (08 R190, 14 R355). -/
inductive DevState where
  | reset | early | fiddlehead | ready | diagHold
  deriving DecidableEq, Repr

/-- Reset classes (13 R347). -/
inductive ResetClass where
  | cold | warm | function
  deriving DecidableEq, Repr

/-- Reset causes (13 R347). -/
inductive ResetCause where
  | powerOn | brownout | modulePin | cxlPerst | cxlHotReset | cxlReset | flr | swWarm | watchdog | thermalTrip | security
  deriving DecidableEq, Repr

/-- Power states of a domain (13 R338). entering names the state the domain is on its way to; damp says that it comes from DAMP; waking says whether
the domain leaves DRY (or its entry) rather than DAMP. -/
inductive Dom where
  | run | enterDamp | enterDry (damp : Bool) | damp | dry | waking (dry : Bool) | off
  deriving DecidableEq, Repr

/-- A 48-bit statistics counter with its overflow bit (08 R219). -/
structure Counter where
  value : BitVec 48
  ovf : Bool
  deriving DecidableEq, Repr

/-- The sticky arithmetic flags (02 R45). -/
structure Flags where
  saturated : Bool
  nanSeen : Bool
  deriving DecidableEq, Repr

/-! ## Packets and queue operations -/

/-- A packet of the package network (09 R232): its 64-bit header, and the 128-byte payload of each of its flits. -/
structure Packet where
  hdr : Word
  pay : List (BitVec 1024)
  deriving DecidableEq, Repr

/-- Who asked for a queue operation (06 R152): the sequencer of a tile, its stream engine, the dispatch that reserves a tile, or a remote port. -/
inductive OpSrc where
  | tile (t : Nat)
  | stream (t : Nat)
  | dispatch (t : Nat)
  | net (hdr : Word)
  deriving DecidableEq, Repr

/-- The queue operations (09 R234 HOP). -/
inductive QOp where
  | push | pop | popNb | peek | waith
  deriving DecidableEq, Repr

/-- A queue operation on its way to, or parked at, a frond controller (06 R154, 09 R234 HOP). -/
structure HopReq where
  op : QOp
  queue : Nat
  count : Nat
  entry : Word
  seq : BitVec 16
  epoch : BitVec 16
  specv : Bool
  src : OpSrc
  deriving DecidableEq, Repr

/-- A queue entry: its 64 bits (06 R149) and the speculation tag kept beside it (07 R175). -/
structure QEntry where
  value : Word
  tag : Option (BitVec 16 × BitVec 16)
  deriving DecidableEq, Repr

/-- A handle queue (06 R152-R156). -/
structure HQueue where
  /-- entries, head first, at most 256. R152 (06). Reset: none. -/
  entries : List QEntry
  /-- parked operations in arrival order, at most 32. R154 (06). Reset: none. -/
  parked : List HopReq
  /-- the owning RUN's queue and tag (QSTAT OWNED, RUN_TAG). R156 (06). Reset: none. -/
  owner : Option (Nat × Nat)
  deriving DecidableEq, Repr

/-! ## Tiles -/

/-- SEQ_STATUS.STATE (04 R78). -/
inductive SeqState where
  | idle | run | wait | faulted | loading
  deriving DecidableEq, Repr

/-- An active loop (04 R93): its first body instruction, its last one, its rotation steps, and the number d of its counter lc_d. -/
structure LoopCtx where
  first : BitVec 14
  last : Nat
  gstep : BitVec 5
  vstep : BitVec 4
  depth : Nat
  deriving DecidableEq, Repr

/-- The FAULT register (04 R78). -/
structure FaultReg where
  cause : Cause
  status : BitVec 8
  trapCode : BitVec 16
  pc : BitVec 14
  deriving DecidableEq, Repr

/-- What a held sequencer waits for beyond its own state (04 R107): a queue operation (with the register that receives the entry), or its block list. -/
inductive WaitOn where
  | handle (dest : Option Nat)
  | stream
  deriving DecidableEq, Repr

/-- A handle operation that does not hold the sequencer, sent and not answered (04 R101, R106, R107): its instruction's index, its kind, its queue, the
physical register that receives its entry, and, for a push, that it has met a full queue and so holds the sequencer now. -/
structure HandleOp where
  pc : BitVec 14
  op : QOp
  queue : Nat
  dest : Option Nat
  full : Bool
  deriving DecidableEq, Repr

/-- The sequencer of a tile (04). -/
structure Seq where
  /-- SEQ_STATUS.STATE. 3 bits. R78 (04). Reset: IDLE. -/
  st : SeqState
  /-- SEQ_STATUS.PC, index of the next instruction. 14 bits. R78 (04). Reset: 0. -/
  pc : BitVec 14
  /-- SEQ_STATUS.SLOT. 4 bits. R78 (04). Reset: 0. -/
  slot : BitVec 4
  /-- physical scalar registers g1-g63, unlisted 0. 64 bits each. R82 (04). Reset: 0 (R84 at every dispatch). -/
  g : Sparse Word
  /-- physical vector registers, lane l of register r at 64*r + l, unlisted 0. 32 bits a lane. R82 (04). Reset: 0 (R84 at every dispatch). -/
  v : Sparse (BitVec 32)
  /-- predicate registers p1-p7, unlisted 0. 64 bits each. R82 (04). Reset: 0 (R84 at every dispatch). -/
  p : Sparse Word
  /-- loop counters lc0-lc3, unlisted 0. 32 bits each. R82 (04). Reset: 0. -/
  lc : Sparse (BitVec 32)
  /-- active loops, innermost first; their number is SS.LDEPTH. R86, R93 (04). Reset: none. -/
  loops : List LoopCtx
  /-- SS.RRB_G. 5 bits. R82, R86 (04). Reset: 0. -/
  rrbG : BitVec 5
  /-- SS.RRB_V. 4 bits. R82, R86 (04). Reset: 0. -/
  rrbV : BitVec 4
  /-- SS.STRM_STATE. 2 bits. R86 (04). Reset: 0. -/
  strmState : BitVec 2
  /-- SS.SATURATED and SS.NAN_SEEN. R45 (02), R86 (04). Reset: clear. -/
  flags : Flags
  /-- ITEM special register. 32 bits. R85 (04). Reset: 0 (DESIGN CHOICE, log entry 5). -/
  item : BitVec 32
  /-- seed of the RUN whose item runs, read by RNG. 64 bits. R131 (05), R212 (08). Reset: 0 (DESIGN CHOICE, log entry 5). -/
  seed : Word
  /-- CYCLE special register. 64 bits. R85 (04). Reset: 0 (DESIGN CHOICE, log entry 5). -/
  cycle : Word
  /-- FAULT. 64 bits. R78 (04). Reset: 0. -/
  fault : FaultReg
  /-- what the held sequencer waits for. R107 (04). Reset: nothing. -/
  wait : Option WaitOn
  /-- handle operations sent and not answered, oldest first. R101, R103, R106 (04). Reset: none. -/
  ops : List HandleOp
  deriving DecidableEq, Repr

/-- One stationary set (03 R62): the mode and pair it was loaded for, and its image bytes. -/
structure StatSet where
  mode : BitVec 2
  fa : BitVec 4
  fb : BitVec 4
  image : List Byte
  deriving DecidableEq, Repr

/-- One matrix block in flight (03 R59): up to four rows of an MMA, or of MZERO's writes. -/
structure Block where
  /-- the mode of the MMA -/
  mode : BitVec 2
  fa : BitVec 4
  fb : BitVec 4
  sat : Bool
  zero : Bool
  bias : Bool
  bfirst : Bool
  blast : Bool
  /-- first accumulator row and the number of rows, 1 to 4 -/
  row : Nat
  rows : Nat
  col : Nat
  biasRow : Nat
  kv : Nat
  nv : Nat
  /-- A bytes of each row, as fetched at issue, and the row's A scale byte for MX pairs -/
  a : List (List Byte)
  scales : List Byte
  /-- the swap this block waits for is still to come (R63) -/
  newwHead : Bool
  /-- the set its products are formed from, once it has passed MX1 -/
  set : Option StatSet
  /-- an MZERO block: +0 into all 64 columns (R98) -/
  mzero : Bool
  deriving DecidableEq, Repr

/-- ARRAY_STATE.PHASE (03 R75). -/
inductive ArrPhase where
  | idle | rampUp | run | ballast | rampDown
  deriving DecidableEq, Repr

/-- The arrays of a tile (03). -/
structure Arrays where
  /-- the active stationary set. R62 (03). Reset: empty (R66). -/
  active : Option StatSet
  /-- the completed shadow set. R62 (03). Reset: empty (R66). -/
  shadow : Option StatSet
  /-- the set an MLD is writing through the B port. R62, R104 (03, 04). Reset: none. -/
  loading : Option StatSet
  /-- blocks in flight, oldest first. R59 (03). Reset: none. -/
  blocks : List Block
  /-- pass tag of the blocks issued now. 1 bit. R63 (03). Reset: 0 (DESIGN CHOICE, log entry 5). -/
  passTag : Bool
  /-- ARRAY_STATE.ENABLED, 0-8. R75 (03). Reset: 0. -/
  enabled : Nat
  /-- ARRAY_STATE.PHASE. R75 (03). Reset: IDLE. -/
  phase : ArrPhase
  /-- ballast cycles of a BALLAST still to run, 0 none. R73 (03). Reset: 0. -/
  ballast : Nat
  /-- ARRAY_REPAIR.SPARE_SEL. 24 bits. R74, R75 (03). Reset: from the fuses. -/
  spareSel : BitVec 24
  /-- ARRAY_REPAIR.SPARE_OK. 8 bits. R75 (03). Reset: from self-test, 0 before it. -/
  spareOk : Byte
  deriving DecidableEq, Repr

/-- One selector entry: score and index (05 R124). -/
structure SelEntry where
  score : BitVec 32
  index : BitVec 32
  deriving DecidableEq, Repr

/-- The selector of a tile (05 R123-R130). -/
structure Selector where
  /-- SEL_CONFIG.VALID. R130 (05). Reset: 0. -/
  valid : Bool
  /-- SEL_CONFIG.DIR. R130 (05). Reset: 0. -/
  dir : Bool
  /-- SEL_CONFIG.FMT. 4 bits. R130 (05). Reset: 0. -/
  fmt : BitVec 4
  /-- SEL_CONFIG.LOGR. 3 bits. R130 (05). Reset: 0. -/
  logr : BitVec 3
  /-- SEL_CONFIG.K. 11 bits. R130 (05). Reset: 0. -/
  k : BitVec 11
  /-- live rows, best entry first. R124, R125 (05). Reset: none. -/
  rows : List (List SelEntry)
  /-- SEL_NANCOUNT. R130 (05). Reset: 0. -/
  nanCount : Counter
  deriving DecidableEq, Repr

/-- One move of a block: len bytes from src to dst; unpack widens INT4 (06 R135, R136). Local addresses are window offsets, flagged by the sides. -/
structure Move where
  src : Nat
  dst : Nat
  len : Nat
  unpack : Bool
  deriving DecidableEq, Repr

/-- A block of a list under way (06 R137). -/
structure StrmBlock where
  /-- number of the block in its list -/
  idx : Nat
  /-- the eight words of its descriptor (R133) -/
  words : List Word
  /-- index of the STRM or STRMY under which it started (R134) -/
  at_ : BitVec 14
  /-- read requests not yet answered -/
  reads : Nat
  /-- write requests not yet acknowledged -/
  writes : Nat
  /-- SIGNAL_HANDLE: the push has been sent / is done -/
  sigSent : Bool
  sigDone : Bool
  /-- one of its requests has failed: nothing further is issued for it (R140) -/
  dead : Bool
  deriving DecidableEq, Repr

/-- The stream engine of a tile (06). -/
structure Stream where
  /-- address of the next descriptor to start; none after LAST. R132 (06). Reset: none. -/
  next : Option (BitVec 44)
  /-- number of the next block; blocks are numbered on from list to list. R137 (06). Reset: 0. -/
  count : Nat
  /-- number of the list's first block. R137 (06). Reset: 0. -/
  first : Nat
  /-- blocks started and not completed, oldest first. R137, R139 (06). Reset: none. -/
  blocks : List StrmBlock
  /-- descriptor read whose WAIT_HANDLE entry has not come yet. R137 (06). Reset: none. -/
  waiting : Option (List Word)
  /-- the entry popped for it. R138 (06). Reset: none. -/
  popped : Option Word
  /-- no further block starts: a YIELD or LAST block has started, or a failure stopped the list. R139, R140 (06). Reset: no. -/
  closed : Bool
  /-- the fault and status of the first failure and the index of its STRM or STRMY, taken once requests in flight have landed. R140 (06). Reset: none. -/
  failing : Option (Cause × Status × BitVec 14)
  /-- the earliest block that has failed: it and every later one signal nothing. R140 (06). Reset: none. -/
  cut : Option Nat
  /-- index of the STRM or STRMY that runs the list. R134 (06). Reset: 0 (DESIGN CHOICE, log entry 5). -/
  at_ : BitVec 14
  deriving DecidableEq, Repr

/-- The item a tile runs (07 R162, R166). -/
structure Running where
  q : Nat
  tag : Nat
  index : Nat
  seq : BitVec 16
  epoch : BitVec 16
  layer : BitVec 16
  spec : Bool
  verify : Bool
  /-- the output handles delivered at dispatch (R163) -/
  outs : List Word
  deriving DecidableEq, Repr

/-- How an item ended (07 R169); status ABORTED: it was stopped with its RUN and reports nothing (R170). -/
structure EndReport where
  status : Status
  /-- HALT's USER_CODE, or the FAULT word of an item that failed by a tile fault -/
  code : Word
  byFault : Bool
  deriving DecidableEq, Repr

/-- Availability code of a tile (08 R208). -/
inductive Avail where
  | available | fusedOff | selftest | spore
  deriving DecidableEq, Repr

/-- A tile. -/
structure Tile where
  seq : Seq
  arr : Arrays
  sel : Selector
  strm : Stream
  /-- operand SRAM and accumulator memory at their window offsets, unlisted bytes 0. 1 MiB and 256 KiB. R21 (01), R53 (03). Reset: 0 (cleared, R350). -/
  mem : Mem
  /-- instruction memory by index, unlisted words 0. 16,384 words of 64 bits. R76 (04). Reset: 0 (cleared, R350). -/
  imem : Sparse Word
  /-- window offsets, in units of 8 bytes, whose SRAM word holds a double-bit error. R76, R108 (04). Reset: none. -/
  badWords : List Nat
  /-- the item that runs. R166 (07). Reset: none. -/
  running : Option Running
  /-- an end not yet reported to the command processor. R169 (07). Reset: none. -/
  ended : Option EndReport
  /-- self-test part I and part II passed since the reset. R369, R370 (14). Reset: no. -/
  partI : Bool
  partII : Bool
  /-- received chunks of the current broadcast, by chunk number. R364 (14). Reset: none. -/
  chunks : List Nat
  /-- availability code other than 0, from exclusion. R208 (08), R367, R370 (14). Reset: available. -/
  avail : Avail
  deriving DecidableEq, Repr

/-! ## Fronds -/

/-- An item that waits at a frond controller (07 R165). -/
structure Waiting where
  q : Nat
  tag : Nat
  index : Nat
  words : List Word
  slot : Nat
  stolen : Bool
  deriving DecidableEq, Repr

/-- A tile reserved for a chosen item whose queue sources are being popped (07 R168). -/
structure Reservation where
  item : Waiting
  tile : Nat
  /-- queue sources still to pop, as (register, queue), and registers filled -/
  todo : List (Nat × Nat)
  done : List (Nat × Word)
  deriving DecidableEq, Repr

/-- What an outstanding transaction of a frond attachment is for (09 R234 TXID). -/
inductive TxUse where
  | streamRead (t blk base len : Nat) (moves : List Move)
  | fill (line : Nat)
  | hop (req : HopReq)
  deriving DecidableEq, Repr

/-- A weight cache line (06 R143): line number (address / 512), its bytes; the cache keeps lines in order of use, most recent first. -/
structure WcLine where
  line : Nat
  data : List Byte
  deriving DecidableEq, Repr

/-- A pending fill (06 R145): its line, the reads that wait for it, and whether it may be installed (R148). -/
structure WcFill where
  line : Nat
  waiters : List (Nat × Nat × Nat × Nat × List Move)
  install : Bool
  deriving DecidableEq, Repr

/-- A broadcast a frond controller takes part in (14 R363). -/
structure SporeJob where
  image : BitVec 12
  base : Nat
  n : Nat
  tiles : List Nat
  deriving DecidableEq, Repr

/-- Thief state (07 R172). -/
inductive Thief where
  | none
  | asked (victim : Nat)
  | backoff
  deriving DecidableEq, Repr

/-- A frond controller with its weight cache. -/
structure Frond where
  /-- undispatched items, oldest first, at most 1,024. R165 (07). Reset: none. -/
  items : List Waiting
  /-- tiles reserved for items whose sources are being popped. R168 (07). Reset: none. -/
  reserved : List Reservation
  /-- queue operations of the frond's own tiles and dispatch, not yet taken. R153 (06). Reset: none. -/
  ops : List HopReq
  /-- refused operations waiting to be retried. R154 (06). Reset: none. -/
  retries : List HopReq
  /-- outstanding transactions of the attachment by TXID. R234 (09). Reset: none. -/
  outst : Sparse TxUse
  /-- TXID chosen next. 16 bits. R234 (09). Reset: 0 (DESIGN CHOICE, log entry 5). -/
  nextTx : BitVec 16
  /-- load reports last received, by frond. R172 (07). Reset: 0. -/
  reports : Sparse Nat
  /-- thief state. R172 (07). Reset: none. -/
  thief : Thief
  /-- weight cache lines, most recently used first; at most 16 of each set. R143 (06). Reset: empty (R146). -/
  wcLines : List WcLine
  /-- pending fills, at most 64. R145 (06). Reset: none. -/
  wcFills : List WcFill
  /-- reads waiting for a fill entry. R145 (06). Reset: none. -/
  wcWait : List (Nat × Nat × Nat × Nat × List Move)
  /-- RUNs active on the frond, by queue and tag. R144 (06). Reset: none. -/
  activeRuns : List (Nat × Nat)
  /-- multicast receive buffer, at most 4. R244 (09). Reset: none. -/
  mcBuf : List Packet
  /-- unicast chunks that have reached the controller, as (tile, chunk packet). R366 (14). Reset: none. -/
  unicasts : List (Nat × Packet)
  /-- the current broadcast. R363 (14). Reset: none. -/
  spore : Option SporeJob
  /-- base tile divider, 2 or 4. R343 (13). Reset: 2. -/
  baseDiv : Nat
  /-- withheld for its part II batch. R374 (14). Reset: no. -/
  withheld : Bool
  /-- fills CACHE_INVALIDATE commands wait for, as (queue, tag, line). R148 (06). Reset: none. -/
  invals : List (Nat × Nat × Nat)
  /-- CACHE_INVALIDATE commands under way, as (queue, tag, first line, lines; 0 all). R148 (06). Reset: none. -/
  invalRanges : List (Nat × Nat × Nat × Nat)
  deriving DecidableEq, Repr

/-! ## Package network -/

/-- A router (09). Input ports 0 X-, 1 X+, 2 Y-, 3 Y+, 4 L0, 5 L1; keys are 8*port + virtual channel unless said otherwise. -/
structure Router where
  /-- packets whole in an input buffer, oldest first. R230 (09). Reset: none. -/
  inq : Sparse (List Packet)
  /-- flits of the packet being received, by input port. R230 (09). Reset: none. -/
  part : Sparse Packet
  /-- credits in use at the receiver behind an output. R230 (09). Reset: 0. -/
  used : Sparse Nat
  /-- credits to be returned to the sender behind an input. R230 (09). Reset: 0. -/
  owed : Sparse Nat
  /-- flits on the link into an input port. R231 (09). Reset: none. -/
  wire : Sparse (List (BitVec 1120))
  /-- the last flits the sender put on the link into an input port (32, or 64 on a bridge). R231 (09). Reset: none. -/
  sent : Sparse (List (BitVec 1120))
  /-- a replay is requested on an input port: the number of flits to resend. R231 (09). Reset: none. -/
  replay : Sparse Nat
  /-- requests (with the internal address they name) and answers of the attached unit waiting to be injected, by local port. R236 (09). Reset: none. -/
  outbox : Sparse (List (Option Nat × Packet))
  /-- packets delivered to the attached unit, by local port. R229 (09). Reset: none. -/
  inbox : Sparse (List Packet)
  /-- packets held for wake, key 8*local port + virtual channel. R245 (09). Reset: none. -/
  held : Sparse Packet
  /-- accesses waiting for the host's coherence answers, each with the lines (address / 64) still to come. R389 (15). Reset: none. -/
  coher : List (Packet × List Nat)
  /-- requests the unmapped responder has still to answer. R24 (01), R236 (09). Reset: none. -/
  unmapped : List Packet
  /-- input virtual channel granted last, by output port. R240 (09). Reset: 0 (DESIGN CHOICE, log entry 5). -/
  lastGrant : Sparse Nat
  /-- times in a row the oldest packet of an input virtual channel, without PANIC, was passed over at its output. R240 (09). Reset: 0. -/
  passed : Sparse Nat
  /-- RTR_REPLAY. R249 (09). Reset: 0. -/
  replays : Counter
  /-- replays of the bridge endpoint registers, by input port. R250 (09). Reset: 0. -/
  bridgeReplays : Sparse Counter
  /-- RTR_UNMAPPED. R249 (09). Reset: 0. -/
  unmappedCount : Counter
  deriving DecidableEq, Repr

/-! ## Memory controllers -/

/-- MC_STATUS.STATE (10 R277). -/
inductive McState where
  | off | training | run | frozen | selfRefresh
  deriving DecidableEq, Repr

/-- Why a codeword is read (10 R258): for a network read, for a partial write, for patrol scrub. -/
inductive RdKind where
  | net (id : Nat)
  | merge
  | scrub
  deriving DecidableEq, Repr

/-- A codeword read queued or issued on a channel (10 R255). -/
structure ReadReq where
  addr : Nat
  kind : RdKind
  panic : Bool
  aged : Bool
  deriving DecidableEq, Repr

/-- A write buffer entry (10 R257): a codeword address, its bytes, the byte mask, and whether the write carries poison. -/
structure WriteEntry where
  addr : Nat
  data : List Byte
  mask : BitVec 64
  poison : Bool
  deriving DecidableEq, Repr

/-- One channel of a memory controller (10). -/
structure Channel where
  /-- reads waiting, oldest first. R255 (10). Reset: none. -/
  readq : List ReadReq
  /-- reads issued to the DRAM, data not yet back. R256 (10). Reset: none. -/
  issued : List ReadReq
  /-- write buffer, oldest first, at most 64. R257 (10). Reset: none. -/
  wbuf : List WriteEntry
  /-- corrected codewords to be written back that wait for a free entry. R266 (10). Reset: none. -/
  backs : List WriteEntry
  /-- a write batch runs. R259 (10). Reset: no. -/
  batch : Bool
  /-- open row of a bank, as row + 1. R255 (10). Reset: none open. -/
  openRow : Sparse Nat
  /-- refreshes due and not issued. R260, R261 (10). Reset: 0. -/
  due : Nat
  /-- refreshes issued early. R261 (10). Reset: 0. -/
  early : Nat
  /-- bank refreshed next. 4 bits. R260 (10). Reset: 0 (DESIGN CHOICE, log entry 5). -/
  refBank : BitVec 4
  /-- a refresh the DRAM ignored, issued again next. R270 (10). Reset: no. -/
  redo : Bool
  /-- retraining is owed / runs on the channel. R263 (10). Reset: no. -/
  retrainDue : Bool
  closed : Bool
  /-- reads taken but waiting on the training or the write check stay in readq; last command issued, for a parity failure. R267 (10). Reset: none. -/
  lastCmd : Option (Nat × Nat)
  /-- the write entry whose command was issued last. R270 (10). Reset: none. -/
  lastWrite : Option WriteEntry
  deriving DecidableEq, Repr

/-- A network read being assembled (10 R256): its request, the codewords still to come, the bytes so far, and its status. -/
structure ReadAsm where
  id : Nat
  pkt : Packet
  left : Nat
  data : Mem
  status : Status
  deriving DecidableEq, Repr

/-- A memory controller (10). -/
structure MemCtl where
  /-- MC_STATUS.STATE. R277 (10). Reset: OFF. -/
  st : McState
  /-- MC_STATUS.TEMP. 8 bits. R277 (10). Reset: 0. -/
  temp : Byte
  /-- MC_STATUS.TRAIN_TEMP. 8 bits. R263, R277 (10). Reset: 0. -/
  trainTemp : Byte
  /-- MC_STATUS.TRAINED. 4 bits. R277 (10). Reset: 0. -/
  trained : BitVec 4
  /-- the training store holds results. R263 (10). Reset: no. -/
  store : Bool
  /-- MC_STATUS.HOT. R262, R277 (10). Reset: 0. -/
  hot : Bool
  /-- the four channels. R251 (10). Reset: empty. -/
  ch : Sparse Channel
  /-- writes waiting in the input for buffer entries. R257 (10). Reset: none. -/
  waitW : List Packet
  /-- network reads under assembly. R256 (10). Reset: none. -/
  asm : List ReadAsm
  /-- identifier of the next read. R256 (10). Reset: 0 (DESIGN CHOICE, log entry 5). -/
  nextId : Nat
  /-- MC_FREEZE.CAUSE (0 none, 1 data, 2 parity), CHANNEL and ADDRESS. R268, R277 (10). Reset: 0. -/
  frzCause : Nat
  frzChannel : Nat
  frzAddr : Nat
  /-- whether the failing access was a read, a write or a refresh. R270 (10). Reset: read. -/
  frzWrite : Option WriteEntry
  frzRefresh : Bool
  /-- MC_SYNDROME.SYMBOL. 8 bits. R277 (10). Reset: 0xFF. -/
  symbol : Byte
  /-- MC_SYNDROME.SYNDROME. 24 bits. R277 (10). Reset: 0. -/
  syndrome : BitVec 24
  /-- MC_HELD, with HELD_COUNT entries. R268, R277 (10). Reset: none. -/
  heldAddrs : List Nat
  /-- commands issued, newest first, at most 64: the source of MC_HISTORY. R268, R277 (10). Reset: none. -/
  cmds : List (Word × Word)
  /-- MC_HISTORY, as recorded at the last freeze, oldest first. R268, R277 (10). Reset: none. -/
  history : List (Word × Word)
  /-- the first POISON answer has raised its event. R266 (10). Reset: no. -/
  poisonSeen : Bool
  /-- MC_SCRUB.PASSES. 32 bits. R275, R277 (10). Reset: 0. -/
  passes : BitVec 32
  /-- MC_SCRUB.POS. 23 bits. R275, R277 (10). Reset: 0. -/
  pos : BitVec 23
  deriving DecidableEq, Repr

/-! ## Command processor -/

/-- Q_STATE.STATE (08 R192). -/
inductive QState where
  | disabled | active | stopped
  deriving DecidableEq, Repr

/-- A queue pair (08 R191-R195). -/
structure HostQueue where
  /-- SQ_BASE. 64 bits. R192 (08). Reset: 0. -/
  sqBase : Word
  /-- CQ_BASE. 64 bits. R192 (08). Reset: 0. -/
  cqBase : Word
  /-- Q_CFG.ENABLE. R192 (08). Reset: 0. -/
  enable : Bool
  /-- Q_CFG.CLASS. 2 bits. R192 (08). Reset: 0. -/
  cls : BitVec 2
  /-- Q_CFG.VECTOR. 6 bits. R192 (08). Reset: 0. -/
  vector : BitVec 6
  /-- Q_CFG.IEN. R192 (08). Reset: 0. -/
  ien : Bool
  /-- Q_CFG.COAL_COUNT. 8 bits. R192 (08). Reset: 0. -/
  coalCount : BitVec 8
  /-- Q_CFG.COAL_TIME. 12 bits. R192 (08). Reset: 0. -/
  coalTime : BitVec 12
  /-- Q_CFG.CQ_SIZE. 12 bits. R192 (08). Reset: 0. -/
  cqSize : BitVec 12
  /-- Q_CFG.SQ_SIZE. 12 bits. R192 (08). Reset: 0. -/
  sqSize : BitVec 12
  /-- Q_STATE.STATE. R192 (08). Reset: DISABLED. -/
  st : QState
  /-- Q_STATE.ERROR. 8 bits. R192 (08). Reset: 0. -/
  error : BitVec 8
  /-- Q_STATE.CQ_PHASE. R192 (08). Reset: 0. -/
  cqPhase : Bool
  /-- Q_STATE.CQ_TAIL. 12 bits. R192 (08). Reset: 0. -/
  cqTail : BitVec 12
  /-- Q_STATE.SQ_HEAD. 12 bits. R192 (08). Reset: 0. -/
  sqHead : BitVec 12
  /-- last SQ_TAIL doorbell. 12 bits. R194 (08). Reset: 0 (DESIGN CHOICE, log entry 5). -/
  sqTail : BitVec 12
  /-- last CQ_HEAD doorbell. 12 bits. R194 (08). Reset: 0 (DESIGN CHOICE, log entry 5). -/
  cqHead : BitVec 12
  /-- completions posted since the last signal. R225 (08). Reset: 0. -/
  coalPosted : Nat
  /-- die-0 time of the latest fetch, or of activation; IDLE_HINT of the latest command. R341 (13). Reset: 0 (DESIGN CHOICE, log entry 5). -/
  tf : Word
  hint : BitVec 32
  deriving DecidableEq, Repr

/-- Command states (07 R186); a command that is DONE has left the table. -/
inductive CmdState where
  | queued | running | completing
  deriving DecidableEq, Repr

/-- The words of a completion (08 R198). -/
structure Cpl where
  status : Status
  detail : BitVec 16
  r0 : Word
  r1 : Word
  r2 : Word
  deriving DecidableEq, Repr

/-- A fetched command (08 R197, R201). -/
structure Cmd where
  q : Nat
  tag : BitVec 16
  op : Byte
  order : Bool
  noint : Bool
  p : List Word
  st : CmdState
  /-- fetched from queue 0 before ENABLE was cleared: its completion is discarded (R193) -/
  discard : Bool
  /-- its completion, held in D3hot (15 R385) or until RESET_WARM posts it -/
  held : Option Cpl
  /-- items dispatched and ended, of a RUN that is COMPLETING (R210) -/
  counts : Nat × Nat
  deriving DecidableEq, Repr

/-- An event record (08 R222). -/
structure Event where
  code : Nat
  r0 : Word
  r1 : Word
  lost : BitVec 32
  deriving DecidableEq, Repr

/-- The arbiter (08 R202): the class being served, its grants left in the round, and the queue served last in each class. -/
structure Arbiter where
  cls : Nat
  left : Nat
  last0 : Nat
  last1 : Nat
  last2 : Nat
  deriving DecidableEq, Repr

/-- MSI-X (08 R225, 15 R384). -/
structure Msix where
  /-- message address and data words of the table, word w of vector v at 4*v + w, unlisted 0. R189 (08). Reset: 0. -/
  table : Sparse (BitVec 32)
  /-- vectors that are unmasked (the mask bit reads 1 after reset). R225 (08). Reset: none (PRESUMED, log entry 6). -/
  unmasked : Word
  /-- pending bit array. 64 bits. R189 (08). Reset: 0. -/
  pba : Word
  /-- messages sent, newest first, as (vector, address, data). R225 (08). Reset: none (the model's own output). -/
  sent : List (Nat × Word × BitVec 32)
  deriving DecidableEq, Repr

/-- The command processor's host side (08). -/
structure HostIf where
  /-- queue pairs 0-63, unlisted at their reset values. R191 (08). Reset: DISABLED. -/
  queues : Sparse HostQueue
  /-- in-flight table, in fetch order, at most 2,048. R201 (08). Reset: none. -/
  inflight : List Cmd
  /-- arbitration weights. 8 bits each. R202 (08). Reset: 16, 4, 1. -/
  wh : BitVec 8
  wm : BitVec 8
  wl : BitVec 8
  /-- arbiter. R202 (08). Reset: start of a round (DESIGN CHOICE, log entry 5). -/
  arb : Arbiter
  /-- event mask. 64 bits. R222 (08). Reset: 0x0001_0101_0603_030C. -/
  mask : Word
  /-- buffered event records, at most 256. R224 (08). Reset: none. -/
  events : List Event
  /-- records lost since the previous posted record. 32 bits. R222 (08). Reset: 0. -/
  lost : BitVec 32
  /-- slots of queue 0's ring that hold event records not yet consumed; they count against the 16 held-back slots. R201, R224 (08). Reset: none. -/
  evSlots : List Nat
  /-- commands whose completions are held, as (queue, tag), in the order in which they arose; none: an event record of the buffer arose there. R385 (15). Reset: none. -/
  heldOrder : List (Option (Nat × Nat))
  /-- FUNCTION resets so far: the queues of commands killed then are renamed, the model's own number (log entry 117). R227 (08). Reset: 0. -/
  kills : Nat
  /-- fetching is stopped: a RESET_WARM settles, or the link is lost. R205, R228 (08). Reset: no. -/
  fetchStopped : Bool
  /-- MSI-X. R225 (08). Reset: see Msix. -/
  msix : Msix
  /-- device horizon H in 10 ns ticks; none is unbounded. R341 (13). Reset: none. -/
  horizon : Option Nat
  /-- TRACE_CTL: running, buffer, length, unit mask. R217 (08). Reset: stopped. -/
  traceOn : Bool
  traceBuf : Word
  traceLen : Nat
  traceMask : Word
  deriving DecidableEq, Repr

/-! ## RUNs -/

/-- A sequence of a RUN (07 R174): the address of its state word, LEN, EPOCH_C, and the latest epoch in which an item was dispatched (R182). -/
structure RunSeq where
  addr : Nat
  len : BitVec 32
  epochC : BitVec 16
  top : Option (BitVec 16)
  deriving DecidableEq, Repr

/-- A commit record read and waiting (07 R179). -/
structure Commit where
  seq : BitVec 16
  epoch : BitVec 16
  accept : Nat
  keep : Bool
  bad : Bool
  tokens : List (BitVec 32)
  deriving DecidableEq, Repr

/-- A RUN that is RUNNING (07, 08 R212). -/
structure Run where
  q : Nat
  tag : Nat
  /-- effective policy. 2 bits. R171 (07) -/
  policy : BitVec 2
  det : Bool
  seed : Word
  /-- the items, 16 words each, as read at RUN start (R454) -/
  items : List (List Word)
  itemTimeout : BitVec 32
  regions : List (Nat × Nat × Nat)
  queues : List Nat
  fences : List Nat
  specAware : Word
  seqs : List RunSeq
  /-- item sent next, items dispatched, items ended, items ended by HALT, indices of ended items -/
  nextSend : Nat
  dispatched : Nat
  ended : Nat
  itemsOk : Nat
  doneItems : List Nat
  /-- failures so far: index, status, FAULT word -/
  fails : List (Nat × Status × Word)
  /-- nothing more is dispatched; and whether an ABORT stopped it -/
  stopped : Bool
  aborted : Bool
  nancount : BitVec 48
  flags : Flags
  ringAddr : Word
  ringEntries : Nat
  prodAddr : Word
  consAddr : Word
  prod : Nat
  cons : Nat
  /-- commits read and not applied, and the commit at the head waits for ring room -/
  commits : List Commit
  waitRoom : Bool
  /-- speculative-class items ended by HALT, by (SEQ, EPOCH, frond), counted when their epoch commits (R183) -/
  specEnds : List (BitVec 16 × BitVec 16 × Nat)
  /-- round-robin position over fronds, and slot counters by frond -/
  rr : Nat
  slots : Sparse Nat
  deriving DecidableEq, Repr

/-- A resident program (08 R211). -/
structure Program where
  num : BitVec 16
  base : Nat
  n : Nat
  deriving DecidableEq, Repr

/-- Where a chunk of a broadcast is sent (14 R363, R366): every target frond, one frond, one tile. -/
inductive SporeDest where
  | all
  | frond (f : Nat)
  | tile (t : Nat)
  deriving DecidableEq, Repr

/-- A broadcast under way at its sender (14 R363-R366). -/
structure Spore where
  /-- the LOAD_PROGRAM command it serves; none for the tile firmware -/
  cmd : Option (Nat × Nat)
  image : BitVec 12
  base : Nat
  /-- the instructions -/
  body : List Word
  dies : BitVec 8
  prog : BitVec 16
  /-- the image's header, measured at the end (R435) -/
  hdr : List Byte
  setupDone : Bool
  /-- chunks still to send in this round -/
  queue : List (Nat × SporeDest)
  /-- tiles asked for a report that have not answered, and reports in: tile, missing chunks -/
  asked : List Nat
  missing : List (Nat × List Nat)
  /-- a round has been sent and its reports have not been asked for -/
  sent : Bool
  /-- target tiles neither complete nor excluded, each with the transmissions it has taken part in; 0 while an item runs on it -/
  tiles : List (Nat × Nat)
  loaded : Nat
  excluded : Nat
  deriving DecidableEq, Repr

/-- Scheduling state of the command processor (07). -/
structure Sched where
  /-- RUNs that are RUNNING, oldest first, at most 64. R201 (08). Reset: none. -/
  runs : List Run
  /-- device scheduling policy. 2 bits. R171 (07). Reset: STEALING or SPECULATION by variant (R7). -/
  policy : BitVec 2
  /-- resident programs, at most 64. R211 (08). Reset: none. -/
  programs : List Program
  /-- the broadcast under way. R363 (14). Reset: none. -/
  spore : Option Spore
  /-- IMAGE number of the next broadcast. 12 bits. R363 (14). Reset: 0 (DESIGN CHOICE, log entry 5). -/
  image : BitVec 12
  /-- die totals each die last received, key 8*receiver + sender. R172 (07). Reset: 0. -/
  totals : Sparse Nat
  deriving DecidableEq, Repr

/-! ## Fabric -/

/-- REGION_STATE.STATE (12 R333); VERIFYING is that of a load in its verification pass, while the old logic runs on. -/
inductive RegState where
  | off | blank | writing | starting | active | clearing
  deriving DecidableEq, Repr

/-- A fabric region: patch 8k + p, or the static region of die k (11, 12). Regions are numbered 9*k + n, n = 8 static. -/
structure Region where
  /-- REGION_STATE.STATE; a fused-off patch reads OFF. R333 (12). Reset: BLANK. -/
  st : RegState
  /-- REGION_STATE.FCLK. 2 bits. R333 (12). Reset: 0. -/
  fclk : BitVec 2
  /-- REGION_STATE.ENC, READBACK_OK, CAPTURE_OK, CAPTURED, UNVERIFIED, PAUSED. R333 (12). Reset: 0. -/
  enc : Bool
  readbackOk : Bool
  captureOk : Bool
  captured : Bool
  unverified : Bool
  paused : Bool
  /-- REGION_STATE.PERIOD in ms. 14 bits. R328, R333 (12). Reset: 100. -/
  period : BitVec 14
  /-- period from the next pass. 14 bits. R332 (12). Reset: 100. -/
  nextPeriod : BitVec 14
  /-- SCRUB_PASSES. 32 bits. R333 (12). Reset: 0. -/
  passes : BitVec 32
  /-- pass counter at the watchdog's last look. R331 (12). Reset: 0. -/
  seenPasses : BitVec 32
  /-- a pass runs / a period began while a pass ran. R328 (12). Reset: no. -/
  passing : Bool
  passDue : Bool
  /-- frame the scrubber reads next. R328 (12). Reset: 0. -/
  frame : Nat
  /-- the frame has been read once with a wrong signature. R329 (12). Reset: no. -/
  reread : Bool
  /-- golden signatures by frame, unlisted 0. 16 bits each. R326 (12). Reset: 0. -/
  golden : Sparse (BitVec 16)
  /-- mask bits by tuft: which of its cells are shift registers. 8 bits each. R326 (12). Reset: 0. -/
  masks : Sparse Byte
  /-- repair source: whether it lies in the boot flash, the address of the section, and its length. R327 (12). Reset: none. -/
  source : Option (Bool × Nat × Nat)
  /-- number of the section's record that holds the region's type-0 frame 0. R327 (12). Reset: 0. -/
  first : Nat
  /-- the section's IV and digest, for repair and rebuilding. R310, R329, R332 (12). Reset: none. -/
  iv : List Byte
  digest : List Byte
  /-- DLL locked. R287 (11). Reset: no. -/
  lock : Bool
  /-- isolation cells engaged. R290 (11). Reset: yes. -/
  isolated : Bool
  /-- a patch: the values its isolation cells hold at the border channel and, as bit 256, at SLEEP_OK of port A; which cells HOLD; the level of the others.
  257 bits each. R278, R289, R290 (11). Reset: 0 (DESIGN CHOICE, log entry 118). -/
  border : BitVec 257
  isoHold : BitVec 257
  isoLevel : BitVec 257
  /-- flip-flop outputs S by tuft, bit i that of cell i, as last set by the global set/reset or captured; unlisted 0. 8 bits each. R279, R280 (11), R323 (12).
  Reset: 0 (DESIGN CHOICE, log entry 5). -/
  ffs : Sparse Byte
  /-- global set/reset held; block RAM writes and shifts enabled. R315 (12). Reset: held, not enabled. -/
  gsr : Bool
  writesOn : Bool
  /-- level of SLEEP_OK of port A. R291 (11). Reset: 0. -/
  sleepOk : Bool
  deriving DecidableEq, Repr

/-- What a configuration controller is at work on (12 R313, R319, R321). -/
inductive LoadKind where
  | full
  | patch (p : Nat)
  | clear (p : Nat)
  deriving DecidableEq, Repr

/-- Where it stands: the verification pass, the wake of the patch's domain, the clear, the writing pass, start-up. -/
inductive LoadPhase where
  | verifying | waking | clearing | writing | starting
  deriving DecidableEq, Repr

/-- A fabric command under way on one die (12 R313, R319, R321). -/
structure Load where
  /-- the command it belongs to; none for the base image that firmware loads (14 R379) -/
  cmd : Option (Nat × Nat)
  kind : LoadKind
  die : Nat
  /-- section address and length; flash says the address is one of the boot flash -/
  flash : Bool
  sect : Nat
  len : Nat
  /-- the image's header, 512 bytes -/
  hdr : List Byte
  /-- entry of the header that describes the section -/
  entry : Nat
  phase : LoadPhase
  /-- bytes of the section taken in this pass -/
  taken : List Byte
  /-- the start-up steps still to take, and the regions they start -/
  steps : List Nat
  started : List Nat
  /-- a failure whose clear is running -/
  failing : Option Status
  deriving DecidableEq, Repr

/-- A FABRIC_LOAD over several dies (12 R314): dies still loading, started, failed with their statuses. -/
structure FabCmd where
  cmd : Option (Nat × Nat)
  left : List Nat
  started : List Nat
  failed : List (Nat × Status)
  deriving DecidableEq, Repr

/-- A beat on a fabric port's TQ channel (11 R292), with the fields its OP uses. -/
inductive TqBeat where
  | read (ttag : BitVec 6) (offset : BitVec 27) (len : BitVec 3)
  | write (ttag : BitVec 6) (offset : BitVec 27) (len : BitVec 3) (data : BitVec 1024) (last : Bool)
  | writem (ttag : BitVec 6) (offset : BitVec 27) (data : BitVec 1024) (mask : BitVec 128)
  | mcast (mtag : BitVec 22) (data : BitVec 1024)
  deriving DecidableEq, Repr

/-- A beat on a fabric port's IR channel (11 R292, R293): a beat of a READ's data, the answer to a WRITE or WRITEM or to a request that is not sent, a HOP's. -/
inductive IrBeat where
  | data (tag : BitVec 8) (status : BitVec 8) (bytes : BitVec 1024) (last : Bool)
  | done (tag : BitVec 8) (status : BitVec 8)
  | hop (tag : BitVec 8) (status : BitVec 8) (result : BitVec 2) (entry : Word)
  deriving DecidableEq, Repr

/-- An initiator request of a fabric port (11 R293): its number in the network (TXID, or SUB of a write), its bytes where it is a write that waits for a
free SUB, whether it is still wanted (R296), and whether its answer has been offered on IR. -/
structure IqEntry where
  tag : BitVec 8
  beat : IqBeat
  num : Option (BitVec 16)
  bytes : List Byte
  live : Bool
  answered : Bool
  deriving DecidableEq, Repr

/-- A target request outstanding at a fabric port (11 R295). -/
structure TReq where
  ttag : BitVec 6
  pkt : Packet
  beats : List (BitVec 1024)
  need : Nat
  bad : Option (BitVec 8)
  deriving DecidableEq, Repr

/-- A fabric port (11 R292-R298), keyed by 2*router + local port. -/
structure FPort where
  /-- outstanding initiator requests. R293, R296 (11). Reset: none. -/
  iq : List IqEntry
  /-- beats of a WRITE not yet complete. R293 (11). Reset: none. -/
  partial_ : List IqBeat
  /-- TXIDs of refused HOPs waiting to be retried. R293 (11). Reset: none. -/
  retries : List (BitVec 16)
  /-- outstanding target requests. R295 (11). Reset: none. -/
  tq : List TReq
  /-- TTAGs of requests that timed out after user logic had accepted them, whose answers may still come, oldest first. R295 (11). Reset: none. -/
  lateTags : List (BitVec 6)
  /-- beats offered on TQ and not accepted, oldest first; its multicasts are the port's multicast receive buffer, at most 4. R292 (11), R244 (09). Reset: none. -/
  tqOut : List TqBeat
  /-- beats accepted on TQ, newest first. R292 (11). Reset: none (the model's own output). -/
  tqTaken : List TqBeat
  /-- beats offered on IR and not accepted, oldest first. R292 (11). Reset: none. -/
  irOut : List IrBeat
  /-- beats accepted on IR, newest first. R292 (11). Reset: none (the model's own output). -/
  irTaken : List IrBeat
  /-- FP_CFG.TGT_TIMEOUT. 10 bits. R298 (11). Reset: 10. -/
  tgtTimeout : BitVec 10
  /-- FP_TIMEOUTS. R298 (11). Reset: 0. -/
  timeouts : Counter
  /-- FP_LATE. R298 (11). Reset: 0. -/
  late : Counter
  /-- FP_LOCKLOSS. R298 (11). Reset: 0. -/
  lockLoss : Counter
  deriving DecidableEq, Repr

/-- The fabric of the module (11, 12). -/
structure Fabric where
  /-- regions, keyed 9*k + n. R278 (11). Reset: BLANK. -/
  regions : Sparse Region
  /-- configuration memory: byte b of the frame with address a at 512*a + b, unlisted 0. R302, R303 (12). Reset: 0 (cleared, R333). -/
  cfg : Mem
  /-- fabric ports. R292 (11). Reset: see FPort. -/
  ports : Sparse FPort
  /-- loads under way, by the order of delivery. R320 (12). Reset: none. -/
  loads : List Load
  /-- FABRIC_LOAD commands under way. R314 (12). Reset: none. -/
  cmds : List FabCmd
  /-- CC_STATUS.STALLED, by die. R333 (12). Reset: 0. -/
  stalled : List Nat
  /-- options of the pads, by GPIO, unlisted weak pull-down, 4 mA, slow. R299, R301 (11). Reset: none (a blank region's pads). -/
  pads : Sparse PadOpt
  /-- levels held on the pads by a keeper, by GPIO: OE, OUT, and the pad's options. R301 (11). Reset: none. -/
  keepers : Sparse (Bool × Bool × PadOpt)
  /-- CAPTURE commands that wait for their patch to wake, as (queue, tag, region). R323 (12). Reset: none. -/
  captures : List (Nat × Nat × Nat)
  /-- pin levels as last sampled. 64 bits. R301 (11). Reset: 0 (DESIGN CHOICE, log entry 5: weak pull-down). -/
  pins : Word
  deriving DecidableEq, Repr

/-! ## Clocks, power, reset, module -/

/-- Power and clock state (13). -/
structure Power where
  /-- time counters of the eight dies, unlisted 0. 64 bits each. R335 (13). Reset: 0. -/
  time : Sparse Word
  /-- root PLL locked, by die. R354 (13). Reset: no. -/
  pll : List Nat
  /-- T_DAMP in µs. 24 bits. R205 (08). Reset: 4. -/
  tDamp : BitVec 24
  /-- T_DRY in µs. 24 bits. R205 (08). Reset: 400. -/
  tDry : BitVec 24
  /-- W in cycles. 11 bits. R205 (08), R75 (03). Reset: 1,024. -/
  window : BitVec 11
  /-- LEAD. R205 (08), R75 (03). Reset: 1. -/
  lead : Bool
  /-- CAP in W, 0 none. 16 bits. R205 (08). Reset: 0. -/
  cap : BitVec 16
  /-- power demand, 2-4. R344 (13). Reset: 2. -/
  pDemand : Nat
  /-- heat demand, 2-4. R345 (13). Reset: 2. -/
  hDemand : Nat
  /-- consecutive windows meeting the fall condition of each demand. R344, R345 (13). Reset: 0. -/
  pCool : Nat
  hCool : Nat
  /-- tile divider in force, 2-4. R343 (13). Reset: 2. -/
  div : Nat
  /-- module input power averaged over the last window, in W. R206 (08). Reset: 0 (DESIGN CHOICE, log entry 5). -/
  watts : Nat
  /-- hottest junction of each die in °C, unlisted 0. R354 (13). Reset: 0. -/
  tj : Sparse Nat
  /-- junctions, as (die, number), that have reached 100 °C and not fallen to 95 °C since. R345 (13). Reset: none. -/
  warned : List (Nat × Nat)
  /-- THERMAL.WARN and THERMAL.HOT, by die. R354 (13). Reset: 0. -/
  warn : List Nat
  hot : List Nat
  /-- power domains: fronds at f, memory-controller groups at 1000 + 3k + r, patches at 2000 + p, router groups at 3000 + 8k + v; unlisted RUN. R337, R354 (13). Reset: RUN; fused-off domains OFF. -/
  doms : Sparse Dom
  deriving DecidableEq, Repr

/-- The reset machinery (13). -/
structure Rst where
  /-- DEV_STATUS.STATE. R190 (08). Reset: RESET. -/
  st : DevState
  /-- DEV_STATUS.FATAL. R190 (08). Reset: 0. -/
  fatal : Bool
  /-- RST_CAUSE. R190 (08), R348 (13). Reset: COLD, POWER_ON. -/
  cls : ResetClass
  cause : ResetCause
  /-- the package is held in reset until its pins are released. R351 (13). Reset: no. -/
  held : Bool
  /-- an FW_ACTIVATE with NOW waits for the commands in flight to begin its WARM reset. R216 (08). Reset: no. -/
  pending : Bool
  /-- DEV_STATUS.TILES held since a hold began. R190 (08). Reset: 0. -/
  holdTiles : Nat
  deriving DecidableEq, Repr

/-- A bring-up register pair of one die (14 R380). -/
structure BuDie where
  /-- BU_STATUS.DISCREP. 16 bits. R380 (14). Reset: 0. -/
  discrep : BitVec 16
  /-- BU_STATUS.HOLD_CAUSE. R380 (14). Reset: 0. -/
  holdCause : Nat
  /-- CENSUS.MISSING, EXTRA, FIRST_U, FIRST_V, FIRST_PORT, PASSES, AGREE. R380 (14). Reset: 0. -/
  missing : Byte
  extra : Byte
  firstU : BitVec 3
  firstV : BitVec 3
  firstPort : BitVec 3
  passes : Byte
  agree : Bool
  deriving DecidableEq, Repr

/-- Bring-up (14). -/
structure Boot where
  /-- BU_STATUS.STEP, as its code. R380 (14). Reset: 0 RESET. -/
  step : Nat
  /-- warm start (BU_STATUS.KIND). R380 (14). Reset: cold. -/
  warm : Bool
  /-- registers of each die. R380 (14). Reset: 0. -/
  dies : Sparse BuDie
  /-- the sensed fuse map is valid. R359 (14). Reset: not sensed. -/
  sensed : Bool
  /-- dies whose die manager runs. R360 (14). Reset: none. -/
  dms : List Nat
  /-- dies whose core has checked its firmware. R432 (17). Reset: none. -/
  cores : List Nat
  /-- dies whose DRAM is trained; dies whose HDM segment serves data. R356, R357 (14). Reset: none. -/
  trained : List Nat
  serving : List Nat
  /-- DRAM bring-up stopped at a failing die. R376 (14). Reset: no. -/
  dramStopped : Bool
  /-- dies whose DRAM failed during a hold. R376 (14). Reset: none. -/
  dramFailed : List Nat
  /-- part II: fronds of LD0 still to test, and the batch under test. R374 (14). Reset: none. -/
  toTest : List Nat
  batch : List Nat
  /-- tiles of the batch that failed, excluded when it ends. R374 (14). Reset: none. -/
  failedII : List Nat
  /-- the boot configuration of the verified firmware. R379 (14). Reset: 0. -/
  linkAuto : BitVec 16
  fabBase : BitVec 32
  fabDies : BitVec 8
  refclk : BitVec 1
  deriving DecidableEq, Repr

/-- One stored copy of the security fuses (17 R425): each 256-bit field with its CRC-32C, and SVC's 64 bits. -/
structure SecFuses where
  root : BitVec 256
  rootCrc : BitVec 32
  owner : BitVec 256
  ownerCrc : BitVec 32
  aes : BitVec 256
  aesCrc : BitVec 32
  svc : BitVec 64
  deriving DecidableEq, Repr

/-- The fuse map (14 R359) and the security fuses (17 R425): each as its three stored copies' majority, with what its check said. -/
structure Fuses where
  /-- VARIANT. 16 bits. R359 (14). Reset: kept by the part (DESIGN CHOICE 1, log entry 4). -/
  variant : BitVec 16
  /-- FROND_EN. 8 x 24 bits. R359 (14). Reset: as VARIANT. -/
  frondEn : List (BitVec 24)
  /-- MC_EN. 8 x 24 bits. R359 (14). Reset: as VARIANT. -/
  mcEn : List (BitVec 24)
  /-- PATCH_EN. 64 bits. R359 (14). Reset: as VARIANT. -/
  patchEn : Word
  /-- LINK_EN. 16 bits. R359 (14). Reset: as VARIANT. -/
  linkEn : BitVec 16
  /-- SPARE_SEL by tile, 24 bits, unlisted no repair (0x924924). R74 (03), R359 (14). Reset: as VARIANT. -/
  spareSel : Sparse (BitVec 24)
  /-- SRAM_REPAIR: spare-row assignments, by SRAM. R359 (14). Reset: as VARIANT (none). -/
  sramRepair : Sparse Nat
  /-- SERIAL. 64 bits. R190 (08). Reset: kept by the part (DESIGN CHOICE 0, log entry 4). -/
  serial : Word
  /-- STEPPING. 8 bits. R190 (08). Reset: kept by the part (DESIGN CHOICE 0, log entry 4). -/
  stepping : Byte
  /-- the CRC-32C over the voted fields matches. R359 (14). Reset: yes (log entry 4). -/
  crcOk : Bool
  /-- the three stored copies of the map's fields. R359 (14). Reset: alike, as VARIANT. -/
  copies : List FuseMap
  /-- ROOT_HASH, OWNER_HASH, OWNER_AES: 32 bytes each, empty when not provisioned. R425 (17). Reset: kept by the part (none, log entry 4). -/
  rootHash : List Byte
  ownerHash : List Byte
  ownerAes : List Byte
  /-- a security field fails its CRC after the vote. R425 (17). Reset: no (log entry 4). -/
  secCrcBad : Bool
  /-- blown SVC bits, voted. 64 bits. R425 (17). Reset: 0 (log entry 4). -/
  svcBits : Word
  /-- security fuse bits whose copies disagree. R440 (17). Reset: 0 (log entry 4). -/
  fuseFix : Nat
  /-- the three stored copies of the security fuses; the fields above are what sensing makes of them. R425 (17). Reset: alike, nothing provisioned. -/
  secCopies : List SecFuses
  deriving DecidableEq, Repr

/-- The module's supply, sensors and side-band pins (18). -/
structure Module where
  /-- 10 ns ticks since the standby supply started. R447 (18). Reset: 0. -/
  ticks : Nat
  /-- the input is above 39 V with EN mated. R447 (18). Reset: yes. -/
  input : Bool
  /-- EN is mated. R446 (18). Reset: yes. -/
  en : Bool
  /-- the package is powered. R447 (18). Reset: yes. -/
  powered : Bool
  /-- thermal trip latch (THERMTRIP# asserted). R346 (13). Reset: clear. -/
  trip : Bool
  /-- overcurrent latch. R448 (18). Reset: clear. -/
  ocLatch : Bool
  /-- times of overcurrents since the input came up. R448 (18). Reset: none. -/
  ocTimes : List Nat
  /-- a retry of the power-up is due. R448 (18). Reset: no. -/
  ocRetry : Bool
  /-- cause recorded at the next power good. R346, R448 (13, 18). Reset: POWER_ON. -/
  nextCause : ResetCause
  /-- lid sensor in °C. R346 (13). Reset: 0 (DESIGN CHOICE, log entry 5). -/
  lid : Nat
  /-- coolant inlet and outlet in °C, input voltage in 10 mV and current in 10 mA, as last read. R453 (18). Reset: 0 (DESIGN CHOICE, log entry 5). -/
  inlet : Nat
  outlet : Nat
  vin : Nat
  iin : Nat
  /-- MOD_RST# and PERST# accepted low by the filter. R352 (13). Reset: released. -/
  modRst : Bool
  perst : Bool
  /-- REFCLK carried a clock at power good. R381 (15). Reset: yes (DESIGN CHOICE, log entry 5). -/
  refclk : Bool
  /-- FAULT# asserted. R353 (13). Reset: released. -/
  faultPin : Bool
  /-- levels of the strap inputs MSMB_ADDR1 and MSMB_ADDR0, which no command changes. R444 (18). Reset: 0 (DESIGN CHOICE, log entry 5). -/
  straps : BitVec 2
  /-- address of the management target, sampled from the straps at power good. 7 bits. R453 (18). Reset: 0x58. -/
  smbAddr : BitVec 7
  /-- last SMBus answer of each bus: status and data. R453 (18). Reset: none (the model's own output). -/
  smb : Sparse (Status × List Byte)
  deriving DecidableEq, Repr

/-! ## CXL -/

/-- A BIAS_SET to device bias under way (15 R390): its command, the line whose ownership is requested, and the first line beyond the range. -/
structure BiasJob where
  q : Nat
  tag : Nat
  line : Nat
  stop : Nat
  deriving DecidableEq, Repr

/-- The CXL port (15). -/
structure Cxl where
  /-- the link is in L0 / in CXL mode. R382 (15). Reset: down. -/
  up : Bool
  cxlMode : Bool
  /-- the link was lost by surprise and HOST_LINK_LOST is not yet posted. R228 (08), R394 (15). Reset: no. -/
  lost : Bool
  /-- completions discarded and token ring entries held during the loss. R228 (08). Reset: 0. -/
  discarded : Nat
  heldTokens : Nat
  /-- bus-master enable. R384 (15). Reset: 0. -/
  bme : Bool
  /-- D3hot. R385 (15). Reset: D0. -/
  d3 : Bool
  /-- memory-space enable; MSI-X enable and function mask. R384 (15). Reset: 0. -/
  mse : Bool
  msixEn : Bool
  msixMask : Bool
  /-- rate and width of the link in L0; whether it runs on the module's own clock (SRIS). R381 (15). Reset: 2.5 GT/s, 0 lanes, no. -/
  rate : CxlRate
  lanes : Nat
  sris : Bool
  /-- the HDM decoder is committed / Error Not Committed. R388 (15). Reset: no. -/
  hdm : Bool
  hdmErr : Bool
  /-- the decoder's base, size, interleave ways and granularity. R388 (15). Reset: 0 (the values of the last commit; 0 DESIGN CHOICE, log entry 5). -/
  hdmBase : Nat
  hdmSize : Nat
  hdmWays : Nat
  hdmGran : Nat
  /-- Memory_Active / media in error. R392 (15). Reset: 0. -/
  memActive : Bool
  mediaErr : Bool
  /-- a WARM reset has begun and Memory_Active is not yet set since: CXL.mem receives poison. R393 (15). Reset: no. -/
  warming : Bool
  /-- pages in device bias, by page number of the internal address. R389 (15). Reset: none. -/
  devBias : List Nat
  /-- BIAS_SET commands to device bias under way. R390 (15). Reset: none. -/
  biasJobs : List BiasJob
  /-- host-bias lines (internal address / 64) whose coherence the port resolves for an access that sends no packet; lines resolved for it; lines the
  act under way has touched. R389 (15). Reset: none. -/
  asked : List Nat
  owned : List Nat
  touched : List Nat
  /-- device coherency cache: line number and bytes, most recent first, at most 16 of each of 4,096 sets. R387 (15). Reset: empty. -/
  dcc : List (Nat × List Byte)
  /-- CXL.mem requests in the receive buffer, at most 256, oldest first: whether it is a write, its packet's number, and its HDM offset. R391 (15). Reset: none. -/
  rxbuf : List (Bool × BitVec 16 × Nat)
  nextTx : BitVec 16
  /-- the path asserts PANIC. R391 (15). Reset: no. -/
  panic : Bool
  /-- last answer of CXL.mem to the host: poisoned, and the 64 bytes. R389 (15). Reset: none (the model's own output). -/
  memOut : Option (Bool × List Byte)
  /-- last answer of the DOE mailbox: error bit, and the bytes. R386 (15). Reset: none (the model's own output). -/
  doe : Option (Bool × List Byte)
  /-- CXL reset complete. R393 (15). Reset: 0. -/
  resetDone : Bool
  deriving DecidableEq, Repr

/-! ## Badosa -/

/-- Training states (16 R405). -/
inductive Train where
  | detect | acquire | equalize | align | param | admitted | run | disabled
  deriving DecidableEq, Repr

/-- Power states of a link direction (16 R409). -/
inductive LPow where
  | run | damp | dry
  deriving DecidableEq, Repr

/-- A link packet in a transmit buffer (16 R410): the packet fields of its header, and the payload of each flit. -/
structure LPkt where
  hdr : BitVec 128
  pay : List (BitVec 1024)
  deriving DecidableEq, Repr

/-- What a port puts on the wire: a flit, or a link-control message, whose layout no rule states (16 R408, R409, R412, R421). -/
inductive LSent where
  | flit (f : BitVec 1184)
  | nak (seq : BitVec 12)
  | damp
  | wake
  | down
  | param (addr : BitVec 18) (valid : Bool) (port : Nat) (dir : Nat)
  deriving DecidableEq, Repr

/-- A reserved slot of a transmit buffer (16 R415): its number, the link packet's header, and the payloads that have come, by position. -/
structure TSlot where
  slot : Nat
  hdr : BitVec 128
  got : Sparse (BitVec 1024)
  deriving DecidableEq, Repr

/-- The line side of a port's transmitter (16 R399-R403): lanes are numbered 0 to 7. -/
structure LineTx where
  /-- flits sent and not yet whole in a codeword, oldest first, and how many bits of the first have been. R399 (16). Reset: none. -/
  flits : List (BitVec 1184)
  used : Nat
  /-- scrambler of each lane. 31 bits each. R400 (16). Reset: 0 (DESIGN CHOICE, log entry 5). -/
  scram : List (BitVec 31)
  /-- SEQ of the next marker, and symbols since the last one, 0 to 81,664. R401 (16). Reset: 0 (DESIGN CHOICE, log entry 5). -/
  seq : BitVec 32
  place : Nat
  /-- codewords since the interval of 8,192 began. R402 (16). Reset: 0. -/
  count : Nat
  /-- a lane has reached 256 stuff symbols: a filler block is due. R402 (16). Reset: no. -/
  extra : Bool
  /-- stuff symbols of each lane since its last filler block. R402 (16). Reset: 0. -/
  stuffed : List Nat
  /-- level and length of the run that each lane's last symbols form. R403 (16). Reset: none. -/
  runs : List (Nat × Nat)
  /-- symbols last put on each lane, in order. R398 (16). Reset: none (the model's own output). -/
  out : List (List Nat)
  deriving DecidableEq, Repr

/-- The line side of a port's receiver (16 R399-R403): lanes are numbered 0 to 7. -/
structure LineRx where
  /-- descrambler of each lane. 31 bits each. R400 (16). Reset: 0 (DESIGN CHOICE, log entry 5). -/
  scram : List (BitVec 31)
  /-- symbols since the last codeword boundary that came before a marker, where one came. R401 (16). Reset: none. -/
  split : Option Nat
  /-- codewords since the interval of 8,192 began. R402 (16). Reset: 0. -/
  count : Nat
  /-- a lane has reached 256 stuff symbols: a filler block is due. R402 (16). Reset: no. -/
  extra : Bool
  /-- stuff symbols removed from each lane since its last filler block. R402 (16). Reset: 0. -/
  stuffed : List Nat
  /-- level and length of the run that each lane's last symbols form. R403 (16). Reset: none. -/
  runs : List (Nat × Nat)
  /-- stream bits received that are not a whole flit yet, and whether one of them lies in an uncorrectable codeword. R399 (16). Reset: none. -/
  rest : List Bool
  bad : Bool
  /-- flits received and not yet taken, oldest first, each with whether it overlaps an uncorrectable codeword. R399, R412 (16). Reset: none. -/
  flits : List (BitVec 1184 × Bool)
  deriving DecidableEq, Repr

/-- A link port with its engine (16). -/
structure Link where
  /-- LK_STATUS.TSTATE. R405, R422 (16). Reset: DISABLED. -/
  st : Train
  /-- DETECT: lanes with frames received; LK_STATUS.LANES. R405, R422 (16). Reset: 0. -/
  lanes : Byte
  /-- ACQUIRE: the partner sends RDY. R405 (16). Reset: 0. -/
  partnerRdy : Bool
  /-- taps pre2, pre1, main, post1, post2. R407, R422 (16). Reset: preset P4. -/
  taps : List Int
  /-- LK_EQ.ITER. 10 bits. R422 (16). Reset: 0. -/
  iter : BitVec 10
  /-- last request answered: RCNT and answer. R406 (16). Reset: none. -/
  acnt : BitVec 4
  astat : BitVec 2
  /-- ALIGN: consecutive markers on every lane, skew in bounds, clean codewords. R405 (16). Reset: 0. -/
  markers : Nat
  skewOk : Bool
  codewords : Nat
  /-- sequence number of the last marker. 32 bits. R401 (16). Reset: 0 (DESIGN CHOICE, log entry 5). -/
  markerSeq : BitVec 32
  /-- the line side of transmitter and receiver. R399-R403 (16). Reset: see LineTx, LineRx. -/
  tx : LineTx
  rx : LineRx
  /-- EQUALIZE: the own receiver's last request, RTAP, ROP and RPRESET, its RCNT, and whether the partner has answered it. 8 and 4 bits. R406 (16).
  Reset: 0, answered. -/
  ask : BitVec 8
  rcnt : BitVec 4
  answered : Bool
  /-- returning from L-DRY (ALIGN needs 4,096 codewords and leads to RUN). R409 (16). Reset: no. -/
  fromDry : Bool
  /-- partner address and ADDR_VALID, partner's direction. R408, R422 (16). Reset: 0. -/
  partner : BitVec 18
  pvalid : Bool
  pdir : BitVec 3
  /-- MISCABLED. R408, R422 (16). Reset: 0. -/
  miscabled : Bool
  /-- PWR_ALLOWED. R409, R422 (16). Reset: 0. -/
  allowed : Bool
  /-- power state of the two directions, own and partner's. R409 (16). Reset: L-RUN. -/
  txPow : LPow
  rxPow : LPow
  /-- LAST_DOWN. R422 (16). Reset: 0. -/
  lastDown : Nat
  /-- LK_LOST. R422 (16). Reset: 0. -/
  lostRacks : Counter
  /-- SEQ of the next DATA flit sent; SEQ expected next. 12 bits. R410, R412 (16). Reset: 0 (DESIGN CHOICE, log entry 5). -/
  txSeq : BitVec 12
  rxSeq : BitVec 12
  /-- a NAK has been sent and its flit has not come. R412 (16). Reset: no. -/
  nakSent : Bool
  /-- retry buffer: DATA flits sent and not acknowledged, oldest first, at most 1,024. R412 (16). Reset: none. -/
  retry : List (BitVec 1184)
  /-- times in a row the oldest flit was resent. R412 (16). Reset: 0. -/
  resent : Nat
  /-- a retrain from ACQUIRE runs. R412 (16). Reset: no. -/
  retrain : Bool
  /-- an acknowledgement, and credits by virtual channel, owed to the partner. R409, R411 (16). Reset: none. -/
  ackOwed : Bool
  crOwed : Sparse Nat
  /-- credits the partner has granted, by virtual channel. R411 (16). Reset: 0. -/
  credits : Sparse Nat
  /-- receive buffer occupancy in flits, by virtual channel. R411 (16). Reset: 0. -/
  rxOcc : Sparse Nat
  /-- the receive engine asserts PANIC. R411 (16). Reset: 0. -/
  panic : Bool
  /-- flits of the packet being received, by virtual channel. R410 (16). Reset: none. -/
  rxPart : Sparse LPkt
  /-- whole packets for this device not yet taken by the engine, and whether each lies in the receive buffer. R410 (16). Reset: none. -/
  rxq : List (Bool × LPkt)
  /-- packets waiting to be sent. R415 (16). Reset: none. -/
  txq : List LPkt
  /-- transit: reserved slots of the transmit buffer, at most 768. R415 (16). Reset: none. -/
  slots : List TSlot
  /-- transit: packets of this engine waiting for a grant, by TXID; the egress port asked; whether the packet lies in the receive buffer. R415 (16). Reset: none. -/
  transit : List (BitVec 16 × LPkt × Nat × Bool)
  /-- transit packets that have arrived: TREQ, TGRANT, TDATA. R415 (16). Reset: none. -/
  ctrl : List (Nat × Packet)
  nextTx : BitVec 16
  /-- what has been put on the wire, newest first. R410 (16). Reset: none (the model's own output). -/
  sent : List LSent
  deriving DecidableEq, Repr

/-- A collective (16 R417-R420). -/
structure Coll where
  /-- KIND 1-3, FMT, OP, N, POS. R417 (16) -/
  kind : Nat
  fmt : Nat
  op : Nat
  n : Nat
  pos : Nat
  /-- WINDOW, WLEN, SEG in bytes. R417 (16) -/
  window : Nat
  wlen : Nat
  seg : Nat
  /-- physical queues of SRCQ, DSTQ, FREEQ. R417 (16) -/
  srcq : Nat
  dstq : Nat
  freeq : Nat
  members : List (BitVec 18)
  /-- port whose engine serves it. R417 (16) -/
  port : Nat
  /-- it is FAILED. R420 (16) -/
  failed : Bool
  /-- the entry taken from SRCQ and not given back; SEND: a slot credit has been taken for it, and its RPUSH has been sent. R418, R419 (16) -/
  entry : Option Word
  credit : Bool
  pushed : Bool
  /-- slot used next: the sender's and the receiver's own count. R418 (16) -/
  slot : Nat
  /-- bytes sent of the entry, in the order of the steps. R419 (16) -/
  sentTo : Nat
  /-- ring: 128-byte units received of the entry, in the order of the steps. R419 (16) -/
  got : List Nat
  /-- packets sent and not acknowledged, by tag; packets to resend after NOT_READY. R417, R418 (16) -/
  unacked : List (BitVec 16 × LPkt)
  resend : List LPkt
  nextTag : BitVec 16
  /-- entries on their way to DSTQ. R418-R420 (16) -/
  out : List Word
  deriving DecidableEq, Repr

/-- The links of the module (16). -/
structure Badosa where
  /-- ports BL0-BL15, unlisted at their reset values. R397 (16). Reset: DISABLED. -/
  links : Sparse Link
  /-- torus shape: sizes minus 1 of W, X, Y, Z. R414 (16). Reset: none. -/
  shape : Option (Nat × Nat × Nat × Nat)
  /-- own device address. 18 bits. R413 (16). Reset: none. -/
  addr : Option (BitVec 18)
  /-- collectives 0-63. R417 (16). Reset: none. -/
  colls : Sparse Coll
  deriving DecidableEq, Repr

/-! ## Security -/

/-- A measurement waiting for LD0's core (17 R435): its fields, the command that caused it (queue, tag), and that command's completion where it
waits for this measurement. -/
structure Meas where
  kind : Byte
  die : Byte
  flags : BitVec 16
  version : Word
  build : Word
  detail : Word
  digest : List Byte
  cause : Option (Nat × Nat)
  andThen : Option Cpl
  deriving DecidableEq, Repr

/-- The security cores (17). -/
structure Sec where
  /-- measurements that have reached the core. R435 (17). Reset: none. -/
  inbox : List Meas
  /-- retained log entries, oldest first, 96 bytes each, at most 4,096. R436 (17). Reset: none. -/
  log : List (List Byte)
  /-- entries appended. R436 (17). Reset: 0. -/
  count : Nat
  /-- chain value. 64 bytes. R436 (17). Reset: 0. -/
  chain : List Byte
  /-- SEC_STATUS of each die: FW_OK and SLOT. R440 (17). Reset: 0. -/
  fwOk : List Nat
  slotB : List Nat
  /-- SEC_STATUS.RECOVERY of LD0's core. R440 (17). Reset: 0. -/
  recovery : Bool
  /-- SEC_STATUS.IDENTITY_OK. R440 (17). Reset: 0. -/
  identity : Bool
  /-- ID_REV.FW_VERSION. 32 bits. R190 (08). Reset: 0. -/
  fwVersion : BitVec 32
  /-- FUSE_SVN of the running firmware. 64 bits. R434 (17). Reset: 0 (DESIGN CHOICE, log entry 5). -/
  fuseSvn : Word
  /-- the outstanding challenge. 16 bytes. R438 (17). Reset: none. -/
  challenge : Option (List Byte)
  /-- consecutive failed tokens. R438 (17). Reset: 0 (DESIGN CHOICE, log entry 5). -/
  failures : Nat
  /-- the delay after failed tokens runs; a challenge request held by it. R438 (17). Reset: none. -/
  delay : Bool
  heldReq : Option (Nat × Nat)
  /-- open debug session: 0 none, 1 DEBUG, 2 PROVISION. R438 (17). Reset: none. -/
  session : Nat
  /-- a session was opened since the log restarted. R437 (17). Reset: no. -/
  opened : Bool
  /-- SVC bits are being blown after READY. R434 (17). Reset: no. -/
  blowing : Bool
  /-- data answered to the last JTAG access. R438 (17). Reset: none (the model's own output). -/
  jtag : Option (Status × Word)
  deriving DecidableEq, Repr

/-! ## The device and the state -/

/-- Everything but the queue of waiting commands. -/
structure Device where
  /-- tiles by physical number T, unlisted at their reset values. R20 (01). Reset: see Tile. -/
  tiles : Sparse Tile
  /-- frond controllers by F, unlisted at their reset values. R18 (01). Reset: see Frond. -/
  fronds : Sparse Frond
  /-- handle queues by 64F + q, unlisted empty. R152 (06). Reset: empty. -/
  hqs : Sparse HQueue
  /-- routers by 12y + x, unlisted at their reset values. R16 (01). Reset: see Router. -/
  routers : Sparse Router
  /-- memory controllers by number, unlisted at their reset values. R15 (01). Reset: see MemCtl. -/
  mcs : Sparse MemCtl
  /-- DRAM data by internal address, unlisted 0. R20 (01), R251 (10). Reset: 0 (zero fill, R350, R357). -/
  dram : Mem
  /-- side bytes of codeword c (internal address / 64): byte i at 4c + i, unlisted 0. R264 (10). Reset: 0. -/
  side : Mem
  /-- host memory as the device reads it, unlisted 0. R192 (08). Reset: 0 (DESIGN CHOICE, log entry 7). -/
  hostMem : Mem
  /-- boot flash, unlisted 0xFF. 256 MiB. R431 (17). Reset: 0xFF (PRESUMED, log entry 8). -/
  flash : Mem
  host : HostIf
  sched : Sched
  fab : Fabric
  pwr : Power
  rst : Rst
  boot : Boot
  fuses : Fuses
  mod : Module
  cxl : Cxl
  bad : Badosa
  sec : Sec
  /-- statistics counters, counter index i of unit u at 65536*i + u, unlisted 0. R219, R221 (08). Reset: 0. -/
  ctrs : Sparse Counter
  /-- number of the next free value: the model's own field, not the spec's. Reset: 0 (DESIGN CHOICE, log entry 2). -/
  free : Nat
  deriving DecidableEq, Repr

/-- The state of the block: the queue of waiting commands, first in first out, and the device. -/
structure State where
  /-- commands waiting: the model's own field. Reset: none. -/
  pending : List Instr
  dev : Device
  deriving DecidableEq, Repr

/-- Why a step can stop with a fault. -/
inductive Fault where
  /-- raised by every meaning whose command names a unit number the part does not have (01 R16, R18, R20): safe, for no such unit exists to act. -/
  | noSuchUnit
  deriving DecidableEq, Repr

/-- Why a step can be refused. -/
inductive Refusal where
  /-- raised by exec for a command that has no meaning yet: safe, the model stops. -/
  | notModelled (mnemonic : String)
  deriving DecidableEq, Repr

/-! ## Reset values -/

/-- A counter at zero (08 R219). -/
def Counter.zero : Counter := ⟨0, false⟩

/-- Both flags clear (02 R45). -/
def Flags.clear : Flags := ⟨false, false⟩

/-- The sequencer after reset (04 R78, R84, R86). -/
def Seq.reset : Seq :=
  { st := .idle, pc := 0, slot := 0, g := [], v := [], p := [], lc := [], loops := [], rrbG := 0, rrbV := 0, strmState := 0,
    flags := Flags.clear, item := 0, seed := 0, cycle := 0, fault := ⟨.none, 0, 0, 0⟩, wait := none, ops := [] }

/-- The arrays after reset (03 R66, R75). -/
def Arrays.reset : Arrays :=
  { active := none, shadow := none, loading := none, blocks := [], passTag := false, enabled := 0, phase := .idle, ballast := 0,
    spareSel := 0x924924, spareOk := 0 }

/-- The selector after reset (05 R130). -/
def Selector.reset : Selector := ⟨false, false, 0, 0, 0, [], Counter.zero⟩

/-- The stream engine after reset (06). -/
def Stream.reset : Stream :=
  { next := none, count := 0, first := 0, blocks := [], waiting := none, popped := none, closed := false, failing := none, cut := none, at_ := 0 }

/-- A tile after reset. -/
def Tile.reset : Tile :=
  { seq := Seq.reset, arr := Arrays.reset, sel := Selector.reset, strm := Stream.reset, mem := [], imem := [], badWords := [],
    running := none, ended := none, partI := false, partII := false, chunks := [], avail := .available }

/-- A frond controller after reset. -/
def Frond.reset : Frond :=
  { items := [], reserved := [], ops := [], retries := [], outst := [], nextTx := 0, reports := [], thief := .none,
    wcLines := [], wcFills := [], wcWait := [], activeRuns := [], mcBuf := [], unicasts := [], spore := none, baseDiv := 2, withheld := false, invals := [], invalRanges := [] }

/-- An empty handle queue (06 R152). -/
def HQueue.reset : HQueue := ⟨[], [], none⟩

/-- A router after reset (09 R249). -/
def Router.reset : Router :=
  { inq := [], part := [], used := [], owed := [], wire := [], sent := [], replay := [], outbox := [], inbox := [], held := [],
    coher := [], unmapped := [], lastGrant := [], passed := [], replays := Counter.zero, bridgeReplays := [],
    unmappedCount := Counter.zero }

/-- A channel after reset (10). -/
def Channel.reset : Channel :=
  { readq := [], issued := [], wbuf := [], backs := [], batch := false, openRow := [], due := 0, early := 0, refBank := 0, redo := false,
    retrainDue := false, closed := false, lastCmd := none, lastWrite := none }

/-- A memory controller after reset (10 R277). -/
def MemCtl.reset : MemCtl :=
  { st := .off, temp := 0, trainTemp := 0, trained := 0, store := false, hot := false, ch := [], waitW := [], asm := [],
    nextId := 0, frzCause := 0, frzChannel := 0, frzAddr := 0, frzWrite := none, frzRefresh := false, symbol := 0xFF,
    syndrome := 0, heldAddrs := [], cmds := [], history := [], poisonSeen := false, passes := 0, pos := 0 }

/-- A queue pair after reset (08 R192). -/
def HostQueue.reset : HostQueue :=
  { sqBase := 0, cqBase := 0, enable := false, cls := 0, vector := 0, ien := false, coalCount := 0, coalTime := 0, cqSize := 0,
    sqSize := 0, st := .disabled, error := 0, cqPhase := false, cqTail := 0, sqHead := 0, sqTail := 0, cqHead := 0,
    coalPosted := 0, tf := 0, hint := 0 }

/-- MSI-X after reset (08 R225). -/
def Msix.reset : Msix := ⟨[], 0, 0, []⟩

/-- The command processor's host side after reset (08 R202, R222). -/
def HostIf.reset : HostIf :=
  { queues := [], inflight := [], wh := 16, wm := 4, wl := 1, arb := ⟨0, 16, 63, 63, 63⟩, mask := 0x000101010603030C, events := [],
    lost := 0, evSlots := [], heldOrder := [], kills := 0, fetchStopped := false, msix := Msix.reset, horizon := none, traceOn := false, traceBuf := 0,
    traceLen := 0, traceMask := 0 }

/-- Scheduling after a COLD reset; the policy is that of the 192-frond variant (07 R171). -/
def Sched.reset : Sched := ⟨[], 1, [], none, 0, []⟩

/-- A region after reset (12 R333). -/
def Region.reset : Region :=
  { st := .blank, fclk := 0, enc := false, readbackOk := false, captureOk := false, captured := false, unverified := false,
    paused := false, period := 100, nextPeriod := 100, passes := 0, seenPasses := 0, passing := false, passDue := false,
    frame := 0, reread := false, golden := [], masks := [], source := none, first := 0, iv := [], digest := [], lock := false, isolated := true,
    gsr := true, writesOn := false, sleepOk := false, border := 0, isoHold := 0, isoLevel := 0, ffs := [] }

/-- A fabric port after reset (11 R298). -/
def FPort.reset : FPort :=
  { iq := [], partial_ := [], retries := [], tq := [], lateTags := [], tqOut := [], tqTaken := [], irOut := [], irTaken := [], tgtTimeout := 10,
    timeouts := Counter.zero, late := Counter.zero, lockLoss := Counter.zero }

/-- The fabric after reset. -/
def Fabric.reset : Fabric :=
  { regions := [], cfg := [], ports := [], loads := [], cmds := [], stalled := [], pads := [], keepers := [], captures := [], pins := 0 }

/-- Clocks and power after a COLD reset (08 R205, 13 R350). -/
def Power.reset : Power :=
  { time := [], pll := [], tDamp := 4, tDry := 400, window := 1024, lead := true, cap := 0, pDemand := 2, hDemand := 2,
    pCool := 0, hCool := 0, div := 2, watts := 0, tj := [], warned := [], warn := [], hot := [], doms := [] }

/-- Bring-up registers of a die after reset (14 R380). -/
def BuDie.reset : BuDie := ⟨0, 0, 0, 0, 0, 0, 0, 0, false⟩

/-- Bring-up at its start (14 R356 step 1). -/
def Boot.reset : Boot :=
  { step := 0, warm := false, dies := [], sensed := false, dms := [], cores := [], trained := [], serving := [], dramStopped := false, dramFailed := [],
    toTest := [], batch := [], failedII := [], linkAuto := 0, fabBase := 0, fabDies := 0, refclk := 0 }

/-- The fuses of an AEL-192-384 (14 R359; log entry 4). -/
def Fuses.reset : Fuses :=
  { variant := 1, frondEn := List.replicate 8 0xFFFFFF, mcEn := List.replicate 8 0xFFFFFF, patchEn := 0xFFFFFFFFFFFFFFFF,
    linkEn := 0xFFFF, spareSel := [], sramRepair := [], serial := 0, stepping := 0, crcOk := true
    copies := List.replicate 3 ⟨1, List.replicate 8 0xFFFFFF, List.replicate 8 0xFFFFFF, 0xFFFFFFFFFFFFFFFF, 0xFFFF, [], [], 0, 0, 0⟩
    rootHash := [], ownerHash := [],
    ownerAes := [], secCrcBad := false, svcBits := 0, fuseFix := 0, secCopies := List.replicate 3 ⟨0, 0, 0, 0, 0, 0, 0⟩ }

/-- The module at power good (18 R447). -/
def Module.reset : Module :=
  { ticks := 0, input := true, en := true, powered := true, trip := false, ocLatch := false, ocTimes := [], ocRetry := false,
    nextCause := .powerOn, lid := 0, inlet := 0, outlet := 0, vin := 0, iin := 0, modRst := false, perst := false, refclk := true,
    faultPin := false, straps := 0, smbAddr := 0x58, smb := [] }

/-- The CXL port after reset (15). -/
def Cxl.reset : Cxl :=
  { up := false, cxlMode := false, lost := false, discarded := 0, heldTokens := 0, bme := false, d3 := false, hdm := false,
    mse := false, msixEn := false, msixMask := false, rate := .g2_5, lanes := 0, sris := false,
    hdmErr := false, hdmBase := 0, hdmSize := 0, hdmWays := 0, hdmGran := 0, memActive := false, mediaErr := false, warming := false,
    devBias := [], biasJobs := [], asked := [], owned := [], touched := [], dcc := [], rxbuf := [], nextTx := 0, panic := false,
    memOut := none, doe := none, resetDone := false }

/-- The line side of a port after reset. -/
def LineTx.reset : LineTx :=
  { flits := [], used := 0, scram := List.replicate 8 0, seq := 0, place := 0, count := 0, extra := false, stuffed := List.replicate 8 0,
    runs := List.replicate 8 (0, 0), out := [] }

def LineRx.reset : LineRx :=
  { scram := List.replicate 8 0, split := none, count := 0, extra := false, stuffed := List.replicate 8 0, runs := List.replicate 8 (0, 0),
    rest := [], bad := false, flits := [] }

/-- A link port after reset (16 R405, R422): DISABLED, taps at preset P4. -/
def Link.reset : Link :=
  { st := .disabled, lanes := 0, partnerRdy := false, taps := [0, -8, 48, -8, 0], iter := 0, acnt := 0, astat := 0,
    markers := 0, skewOk := false, codewords := 0, markerSeq := 0, tx := LineTx.reset, rx := LineRx.reset, ask := 0, rcnt := 0, answered := true, fromDry := false, partner := 0,
    pvalid := false, pdir := 0, miscabled := false, allowed := false, txPow := .run, rxPow := .run, lastDown := 0,
    lostRacks := Counter.zero, txSeq := 0, rxSeq := 0, nakSent := false, retry := [], resent := 0, retrain := false, ackOwed := false, crOwed := [], credits := [], rxOcc := [],
    panic := false, rxPart := [], rxq := [], txq := [], slots := [], transit := [], ctrl := [], nextTx := 0, sent := [] }

/-- The links after reset. -/
def Badosa.reset : Badosa := ⟨[], none, none, []⟩

/-- The security cores after reset (17 R436). -/
def Sec.reset : Sec :=
  { inbox := [], log := [], count := 0, chain := List.replicate 64 0, fwOk := [], slotB := [], recovery := false, identity := false,
    fwVersion := 0, fuseSvn := 0, challenge := none, failures := 0, delay := false, heldReq := none, session := 0, opened := false,
    blowing := false, jtag := none }

/-- The reset registers after a COLD reset of cause POWER_ON (13 R347). -/
def Rst.reset : Rst := ⟨.reset, false, .cold, .powerOn, false, false, 0⟩

/-- The device right after a COLD reset at power good. -/
def Device.reset : Device :=
  { tiles := [], fronds := [], hqs := [], routers := [], mcs := [], dram := [], side := [], hostMem := [], flash := [],
    host := HostIf.reset, sched := Sched.reset, fab := Fabric.reset, pwr := Power.reset, rst := Rst.reset, boot := Boot.reset,
    fuses := Fuses.reset, mod := Module.reset, cxl := Cxl.reset, bad := Badosa.reset, sec := Sec.reset, ctrs := [], free := 0 }

/-- The machine right after reset: a COLD reset of cause POWER_ON, no command waiting. -/
def State.reset : State := ⟨[], Device.reset⟩

end Sys2Proof.Machine
end

