-- ==== Sys2Proof/Machine/Flags.lean ====
section
/-! DEFINITION. The sticky arithmetic flags (02 R45) and checked integer arithmetic (02 R39, R44; 04 R88). -/

namespace Sys2Proof.Machine

/-- Either event of the two (02 R45). -/
def Flags.or (a b : Flags) : Flags := ⟨a.saturated || b.saturated, a.nanSeen || b.nanSeen⟩

/-- A flag pair with NAN_SEEN as given. -/
def Flags.ofNan (b : Bool) : Flags := ⟨false, b⟩

/-- A flag pair with SATURATED as given. -/
def Flags.ofSat (b : Bool) : Flags := ⟨b, false⟩

/-- The events of a list. -/
def Flags.all (l : List Flags) : Flags := l.foldl Flags.or Flags.clear

/-- An exact integer narrowed to w bits: the nearer limit under SAT, else wrapped; out of range sets SATURATED (02 R44, R39). -/
def narrowInt (w : Nat) (sat : Bool) (x : Int) : Nat × Flags :=
  if x < -(2 ^ (w - 1) : Int) then ((if sat then 2 ^ (w - 1) else wrapInt w x), ⟨true, false⟩)
  else if x ≥ (2 ^ (w - 1) : Int) then ((if sat then 2 ^ (w - 1) - 1 else wrapInt w x), ⟨true, false⟩)
  else (wrapInt w x, Flags.clear)

end Sys2Proof.Machine
end

