-- ==== Sys2Proof/Machine/Num.lean ====
section
/-! DEFINITION. The number formats and their arithmetic (02): exact dyadic values, rounding to nearest even, conversions.
Every operation is computed exactly and narrowed once, with the flags the narrowing raises. -/

namespace Sys2Proof.Machine

/-- A number as the arithmetic sees it: NaN, an infinity, or the exact value (-1)^neg * m * 2^e. -/
inductive FVal where
  | nan
  | inf (neg : Bool)
  | fin (neg : Bool) (m : Nat) (e : Int)
  deriving DecidableEq, Repr

/-- Whether the value is a NaN. -/
def FVal.isNan : FVal → Bool
  | .nan => true
  | _ => false

/-- Whether the value is an infinity. -/
def FVal.isInf : FVal → Bool
  | .inf _ => true
  | _ => false

/-- The value's sign bit; a NaN counts as positive. -/
def FVal.isNeg : FVal → Bool
  | .nan => false
  | .inf s => s
  | .fin s _ _ => s

/-- Positive zero. -/
def FVal.zero : FVal := .fin false 0 0

/-- An integer as a value. -/
def FVal.ofInt (x : Int) : FVal := .fin (decide (x < 0)) x.natAbs 0

/-- m * 2^e in units of 2^q, rounded to nearest, ties to even (02 R40). -/
def roundAt (m : Nat) (e q : Int) : Nat :=
  if q ≤ e then m <<< (e - q).toNat
  else
    let s := (q - e).toNat
    let n := m >>> s
    let r := m % 2 ^ s
    if r * 2 > 2 ^ s || (r * 2 == 2 ^ s && n % 2 == 1) then n + 1 else n

/-- The exponent of a nonzero m * 2^e: floor of its log2. -/
def expOf (m : Nat) (e : Int) : Int := (Nat.log2 m : Int) + e

/-- Round to p significant bits with an unbounded exponent. -/
def roundSig (p m : Nat) (e : Int) : Nat × Int :=
  if m = 0 then (0, 0)
  else
    let q := expOf m e - (p : Int) + 1
    if q ≤ e then (m, e) else (roundAt m e q, q)

/-- Round to FP32: nearest even, overflow to an infinity, a magnitude below 2^-126 to a zero of the same sign (02 R40, R42). The rounding whose
result R40 compares with 2^-126 keeps 24 significant bits with an unbounded exponent (DESIGN CHOICE, log entry 105). -/
def FVal.rnd32 : FVal → FVal
  | .nan => .nan
  | .inf s => .inf s
  | .fin s m e =>
    let r := roundSig 24 m e
    if r.1 = 0 then .fin s 0 0
    else if expOf r.1 r.2 > 127 then .inf s
    else if expOf r.1 r.2 < -126 then .fin s 0 0
    else .fin s r.1 r.2

/-- The exact product (02 R41). -/
def FVal.mulX : FVal → FVal → FVal
  | .nan, _ => .nan
  | _, .nan => .nan
  | .inf s, .inf t => .inf (s != t)
  | .inf s, .fin t m _ => if m = 0 then .nan else .inf (s != t)
  | .fin t m _, .inf s => if m = 0 then .nan else .inf (s != t)
  | .fin s m e, .fin t n f => .fin (s != t) (m * n) (e + f)

/-- A signed integer as a dyadic value with the sign of an exact zero given. -/
def FVal.signed (zneg : Bool) (x : Int) (e : Int) : FVal :=
  if x = 0 then .fin zneg 0 0 else .fin (decide (x < 0)) x.natAbs e

/-- The signed significand. -/
def sgn (s : Bool) (m : Nat) : Int := if s then -(m : Int) else m

/-- The exact sum; a zero sum is negative only where both operands are negative zeros (02 R41). -/
def FVal.addX : FVal → FVal → FVal
  | .nan, _ => .nan
  | _, .nan => .nan
  | .inf s, .inf t => if s = t then .inf s else .nan
  | .inf s, .fin _ _ _ => .inf s
  | .fin _ _ _, .inf s => .inf s
  | .fin s m e, .fin t n f =>
    let g := min e f
    FVal.signed (s && t && m == 0 && n == 0)
      (sgn s m * 2 ^ (e - g).toNat + sgn t n * 2 ^ (f - g).toNat) g

/-- The value with its sign changed. -/
def FVal.negate : FVal → FVal
  | .nan => .nan
  | .inf s => .inf (!s)
  | .fin s m e => .fin (!s) m e

/-- What an FP32 operation that read the operands and gave r records (02 R45). -/
def arithFlags (ops : List FVal) (r : FVal) : Flags :=
  ⟨r.isInf && ops.all (fun o => !o.isInf && !o.isNan), r.isNan || ops.any FVal.isNan⟩

/-- FP32 sum. -/
def fadd (a b : FVal) : FVal × Flags := let r := (a.addX b).rnd32; (r, arithFlags [a, b] r)

/-- FP32 difference. -/
def fsub (a b : FVal) : FVal × Flags := fadd a b.negate

/-- FP32 product. -/
def fmul (a b : FVal) : FVal × Flags := let r := (a.mulX b).rnd32; (r, arithFlags [a, b] r)

/-- FP32 fused multiply-add a * b + c, one rounding. -/
def ffma (a b c : FVal) : FVal × Flags := let r := ((a.mulX b).addX c).rnd32; (r, arithFlags [a, b, c] r)

/-- a < b on values; false where either is a NaN. -/
def FVal.lt : FVal → FVal → Bool
  | .nan, _ => false
  | _, .nan => false
  | .inf s, .inf t => s && !t
  | .inf s, .fin _ _ _ => s
  | .fin _ _ _, .inf t => !t
  | .fin s m e, .fin t n f =>
    let g := min e f
    decide (sgn s m * 2 ^ (e - g).toNat < sgn t n * 2 ^ (f - g).toNat)

/-- Equality of numbers: +0 equals -0, a NaN equals nothing. -/
def FVal.eqv (a b : FVal) : Bool := !a.isNan && !b.isNan && !FVal.lt a b && !FVal.lt b a

/-- A floating format (02 R30, R31): exponent and mantissa widths, bias, and whether the top exponent holds infinities (E4M3's does not). -/
structure FloatFmt where
  eb : Nat
  mb : Nat
  bias : Int
  ieee : Bool
  deriving DecidableEq, Repr

def fmtE4M3 : FloatFmt := ⟨4, 3, 7, false⟩
def fmtE5M2 : FloatFmt := ⟨5, 2, 15, true⟩
def fmtFP16 : FloatFmt := ⟨5, 10, 15, true⟩
def fmtBF16 : FloatFmt := ⟨8, 7, 127, true⟩
def fmtFP32 : FloatFmt := ⟨8, 23, 127, true⟩

/-- The value of a code (02 R30, R31). -/
def FloatFmt.decode (f : FloatFmt) (code : Nat) : FVal :=
  let m := code % 2 ^ f.mb
  let e := code / 2 ^ f.mb % 2 ^ f.eb
  let s := code / 2 ^ (f.mb + f.eb) % 2 == 1
  if f.ieee && e == 2 ^ f.eb - 1 then (if m = 0 then .inf s else .nan)
  else if !f.ieee && e == 2 ^ f.eb - 1 && m == 2 ^ f.mb - 1 then .nan
  else if e = 0 then .fin s m (1 - f.bias - f.mb)
  else .fin s (2 ^ f.mb + m) ((e : Int) - f.bias - f.mb)

/-- The sign bit of a code. -/
def FloatFmt.signBit (f : FloatFmt) (s : Bool) : Nat := if s then 2 ^ (f.mb + f.eb) else 0

/-- The canonical NaN (02 R31). -/
def FloatFmt.nanCode (f : FloatFmt) : Nat :=
  if f.ieee then (2 ^ f.eb - 1) * 2 ^ f.mb + 2 ^ (f.mb - 1) else 2 ^ (f.eb + f.mb) - 1

/-- The infinity; E4M3 has none and gives its NaN (02 R31, R44). -/
def FloatFmt.infCode (f : FloatFmt) (s : Bool) : Nat :=
  if f.ieee then f.signBit s + (2 ^ f.eb - 1) * 2 ^ f.mb else f.nanCode

/-- The largest finite code (02 R30). -/
def FloatFmt.maxCode (f : FloatFmt) (s : Bool) : Nat :=
  f.signBit s + (if f.ieee then (2 ^ f.eb - 1) * 2 ^ f.mb - 1 else 2 ^ (f.eb + f.mb) - 2)

/-- The code of a value that the format can hold, rounding to it, subnormals produced. -/
def FloatFmt.finCode (f : FloatFmt) (s : Bool) (m : Nat) (e : Int) : Nat :=
  if m = 0 then f.signBit s
  else
    let lo := 1 - f.bias - f.mb
    let q := max (expOf m e - f.mb) lo
    let n := roundAt m e q
    -- n counts units of 2^q: the code is linear in n within a binade and across its end
    f.signBit s + n + ((q - lo).toNat) * 2 ^ f.mb

/-- Whether a value rounds beyond the largest finite one (02 R44). -/
def FloatFmt.tooBig (f : FloatFmt) (m : Nat) (e : Int) : Bool :=
  let r := roundSig (f.mb + 1) m e
  let mx := f.decode (f.maxCode false)
  m != 0 && FVal.lt mx (.fin false r.1 r.2)

/-- FP32 code of a value that is already rounded to FP32. -/
def FVal.code32 : FVal → BitVec 32
  | .nan => BitVec.ofNat 32 fmtFP32.nanCode
  | .inf s => BitVec.ofNat 32 (fmtFP32.infCode s)
  | .fin s m e => BitVec.ofNat 32 (fmtFP32.finCode s m e)

/-- The value of an FP32 code as stored (02 R30). -/
def val32 (c : BitVec 32) : FVal := fmtFP32.decode c.toNat

/-- The value of an FP32 code as the vector unit reads it: a subnormal is a zero of its sign (02 R40). -/
def vec32 (c : BitVec 32) : FVal :=
  match fmtFP32.decode c.toNat with
  | .fin s m e => if m < 2 ^ 23 then .fin s 0 0 else .fin s m e
  | x => x

/-- Narrowing to a floating format (02 R44). -/
def narrow (f : FloatFmt) (sat : Bool) : FVal → Nat × Flags
  | .nan => (f.nanCode, ⟨false, true⟩)
  | .inf s => if sat then (f.maxCode s, ⟨true, false⟩) else (f.infCode s, ⟨true, !f.ieee⟩)
  | .fin s m e =>
    if f.tooBig m e then (if sat then (f.maxCode s, ⟨true, false⟩) else (f.infCode s, ⟨true, !f.ieee⟩))
    else (f.finCode s m e, Flags.clear)

/-- A floating value to a w-bit integer (02 R44). -/
def toInt (w : Nat) (sat : Bool) : FVal → Nat × Flags
  | .nan => (0, ⟨false, true⟩)
  | .inf s => ((if s then 2 ^ (w - 1) else 2 ^ (w - 1) - 1), ⟨true, false⟩)
  | .fin s m e => narrowInt w sat (sgn s (roundAt m e 0))

/-- The decoded integer of an E2M1 code: twice its value (02 R33). -/
def e2m1 (c : Nat) : Int :=
  let m : Int := match c % 8 with
    | 0 => 0 | 1 => 1 | 2 => 2 | 3 => 3 | 4 => 4 | 5 => 6 | 6 => 8 | _ => 12
  if c % 16 ≥ 8 then -m else m

/-- The E2M1 code of a value rounded to nearest even onto the grid and clamped to 6 (02 R33, R46). A negative value that rounds to zero keeps its
sign bit, as does a negative zero: code 0b1000 (DESIGN CHOICE, log entry 104). -/
def toE2M1 (s : Bool) (m : Nat) (e : Int) : Nat :=
  let q := if m = 0 then (-1 : Int) else max (expOf m e - 1) (-1)
  let n := roundAt m e q
  -- n units of 2^q; codes 0-7 in order of value
  let c := if q = -1 then n else n + 2 * (q + 1).toNat
  (if s then 8 else 0) + min c 7

/-- The MXINT8 code of a value: units of 2^-6, nearest even, clamped (02 R46). -/
def toMxInt8 (s : Bool) (m : Nat) (e : Int) : Nat :=
  let n := roundAt m e (-6)
  if s then wrapInt 8 (-(min n 128 : Nat)) else min n 127

/-- Element width in bits of a format code (02 R27); 0 where reserved. -/
def fmtBits (f : Nat) : Nat :=
  match f with
  | 0 => 4 | 1 => 8 | 2 => 16 | 3 => 32 | 4 => 8 | 5 => 8 | 6 => 16 | 7 => 16 | 8 => 32 | 9 => 8 | 10 => 4 | 11 => 8 | _ => 0

/-- Whether the format code is one of the plain integers. -/
def isIntFmt (f : Nat) : Bool := decide (f < 4)

/-- The floating format of a code; FP32 for any other. -/
def floatFmt (f : Nat) : FloatFmt :=
  match f with
  | 4 => fmtE4M3 | 5 => fmtE5M2 | 6 => fmtFP16 | 7 => fmtBF16 | _ => fmtFP32

/-- A lane's reading of a narrower code: an integer sign-extended, a floating code widened to FP32 (02 R44). -/
def widen (f code : Nat) : BitVec 32 × Flags :=
  if isIntFmt f then (BitVec.ofInt 32 (sext (fmtBits f) code), Flags.clear)
  else
    let v := (floatFmt f).decode code
    let v := match v with
      | .fin s m e => if f == 7 && m < 128 then FVal.fin s 0 0 else .fin s m e
      | x => x
    (v.code32, Flags.ofNan v.isNan)

/-- A lane narrowed to an integer or floating format; the lane is INT32 for integer formats and FP32 for floating ones (02 R44). -/
def narrowLane (f : Nat) (sat : Bool) (c : BitVec 32) : Nat × Flags :=
  if isIntFmt f then narrowInt (fmtBits f) sat c.toInt
  else narrow (floatFmt f) sat (vec32 c)

/-- One block of 32 FP32 lanes quantised: scale code and element codes (02 R46); mx4 selects MXFP4. -/
def mxQuant (mx4 : Bool) (l : List (BitVec 32)) : Nat × List Nat × Flags :=
  let vs := l.map vec32
  let bad := vs.any (fun v => v.isNan || v.isInf)
  if bad then (255, vs.map (fun _ => 0), ⟨vs.any FVal.isInf, true⟩)
  else
    let ex := vs.foldl (fun (a : Option Int) v =>
      match v with
      | .fin _ m e => if m = 0 then a else some (match a with | none => expOf m e | some b => max b (expOf m e))
      | _ => a) none
    match ex with
    | none => (0, vs.map (fun _ => 0), Flags.clear)
    | some a =>
      let x := max (a - (if mx4 then 2 else 0)) (-127)
      ((x + 127).toNat,
       vs.map (fun v => match v with
         | .fin s m e => if mx4 then toE2M1 s m (e - x) else toMxInt8 s m (e - x)
         | _ => 0),
       Flags.clear)

end Sys2Proof.Machine
end

