-- ==== Sys2Proof/Machine/Store.lean ====
section
/-! DEFINITION. Reading and writing the sparse tables and byte memories of the state.
A table lists an entry only where it differs from the table's default, keys strictly rising: equal tables are equal data. -/

namespace Sys2Proof.Machine

/-- The value at key k; d where none is listed. -/
def Sparse.get {α : Type} (d : α) : Sparse α → Nat → α
  | [], _ => d
  | (j, x) :: r, k => if j = k then x else Sparse.get d r k

/-- The table with x at key k; writing the default removes the entry. -/
def Sparse.put {α : Type} [DecidableEq α] (d : α) : Sparse α → Nat → α → Sparse α
  | [], k, x => if x = d then [] else [(k, x)]
  | (j, y) :: r, k, x =>
    if k < j then (if x = d then (j, y) :: r else (k, x) :: (j, y) :: r)
    else if k = j then (if x = d then r else (k, x) :: r)
    else (j, y) :: Sparse.put d r k x

/-- The canonical form: keys strictly rising, from lo on, and no entry equal to the default. -/
def Sparse.wfFrom {α : Type} [DecidableEq α] (d : α) : Nat → Sparse α → Bool
  | _, [] => true
  | lo, (j, x) :: r => decide (lo ≤ j) && !decide (x = d) && Sparse.wfFrom d (j + 1) r

/-- The canonical form of a table. -/
def Sparse.wf {α : Type} [DecidableEq α] (d : α) (m : Sparse α) : Bool := Sparse.wfFrom d 0 m

/-- The entry at key k, if listed. -/
def Sparse.find {α : Type} : Sparse α → Nat → Option α
  | [], _ => none
  | (j, x) :: r, k => if j = k then some x else Sparse.find r k

/-- The table without key k. -/
def Sparse.del {α : Type} (m : Sparse α) (k : Nat) : Sparse α := m.filter (fun e => e.1 != k)

/-- The table with x listed at key k, whatever x is (for tables where being listed means something). -/
def Sparse.ins {α : Type} : Sparse α → Nat → α → Sparse α
  | [], k, x => [(k, x)]
  | (j, y) :: r, k, x => if k < j then (k, x) :: (j, y) :: r else if k = j then (k, x) :: r else (j, y) :: Sparse.ins r k x

/-- One byte; an unlisted address reads 0. -/
def Mem.byte (m : Mem) (a : Nat) : Byte := Sparse.get 0 m a

/-- One byte written. -/
def Mem.setByte (m : Mem) (a : Nat) (b : Byte) : Mem := Sparse.put 0 m a b

/-- The canonical form of a memory whose unlisted bytes read 0. -/
def Mem.wf (m : Mem) : Bool := Sparse.wf (0 : Byte) m

/-- n bytes from address a. -/
def Mem.read (m : Mem) (a : Nat) : Nat → List Byte
  | 0 => []
  | n + 1 => m.byte a :: Mem.read m (a + 1) n

/-- Bytes written from address a. -/
def Mem.write (m : Mem) (a : Nat) : List Byte → Mem
  | [] => m
  | b :: r => Mem.write (m.setByte a b) (a + 1) r

/-- Bytes written from address a where the mask, lowest bit first, is 1. -/
def Mem.writeMask (m : Mem) (a : Nat) : List (Byte × Bool) → Mem
  | [] => m
  | (b, w) :: r => Mem.writeMask (if w then m.setByte a b else m) (a + 1) r

/-- A number of n bytes at address a. -/
def Mem.num (m : Mem) (a n : Nat) : Nat := leNat (m.read a n)

/-- The 64-bit word at address a. -/
def Mem.word (m : Mem) (a : Nat) : Word := BitVec.ofNat 64 (m.num a 8)

end Sys2Proof.Machine
end

