-- ==== Sys2Proof/Machine/Ops.lean ====
section
/-! DEFINITION. The named operations every meaning is built from: running an effect on the device, reading and writing one unit,
the internal address map (01 R20-R24), what the fuses enable (01 R19), statistics counters and event records (08 R219-R224). -/

namespace Sys2Proof

/-- Tiles of the variant (00 R8). -/
def Variant.tiles : Variant → Nat
  | .ael192 => 3072 | .ael160 => 2560 | .ael96 => 1536 | .ael48 => 768

/-- Populated DRAM of one die in bytes (01 R19). -/
def Variant.dram : Variant → Nat
  | .ael192 => 0xC00000000 | .ael160 => 0x900000000 | .ael96 => 0x600000000 | .ael48 => 0x300000000

/-- Enabled fronds per die (01 R19). -/
def Variant.fronds : Variant → Nat
  | .ael192 => 24 | .ael160 => 20 | .ael96 => 12 | .ael48 => 6

/-- Enabled memory controllers per die (01 R19). -/
def Variant.mcs : Variant → Nat
  | .ael192 => 24 | .ael160 => 18 | .ael96 => 12 | .ael48 => 6

/-- Enabled patches per die (00 R5). -/
def Variant.patches : Variant → Nat
  | .ael192 => 8 | .ael160 => 8 | .ael96 => 4 | .ael48 => 2

/-- Enabled link ports (00 R5). -/
def Variant.links : Variant → Nat
  | .ael192 => 0xFFFF | .ael160 => 0x55FF | .ael96 => 0x5555 | .ael48 => 0x0055

/-- Maximum continuous power in W (00 R8). -/
def Variant.power : Variant → Nat
  | .ael192 => 2400 | .ael160 => 2050 | .ael96 => 1350 | .ael48 => 850

end Sys2Proof

namespace Sys2Proof.Machine

/-! ## Running an effect -/

/-- Every command's effect acts on the device alone: the queue of waiting commands is untouched. -/
def run (f : Device → Device) (s : State) : Host.Outcome State Fault Refusal := .next { s with dev := f s.dev }

/-- The effect of a command on a unit the part has; no such unit: a fault. -/
def runUnit (ok : Bool) (f : Device → Device) (s : State) : Host.Outcome State Fault Refusal :=
  if ok then run f s else .fault .noSuchUnit

/-- The effect under a condition; an event that is not enabled leaves the device unchanged (log entry 1). -/
def whenever (c : Bool) (d d' : Device) : Device := if c then d' else d

/-- The next free value, of w bits (log entry 2). -/
def Device.fresh (d : Device) (w : Nat) : BitVec w × Device := (Config.freeValue w d.free, { d with free := d.free + 1 })

/-! ## Units -/

def nTiles : Nat := 3072
def nFronds : Nat := 192
def nMcs : Nat := 192
def nRouters : Nat := 384
def nDies : Nat := 8
def nQueues : Nat := 64
def nPorts : Nat := 16

def Device.tile (d : Device) (t : Nat) : Tile := Sparse.get Tile.reset d.tiles t
def Device.setTile (d : Device) (t : Nat) (x : Tile) : Device := { d with tiles := Sparse.put Tile.reset d.tiles t x }
def Device.modTile (d : Device) (t : Nat) (f : Tile → Tile) : Device := d.setTile t (f (d.tile t))

def Device.frond (d : Device) (f : Nat) : Frond := Sparse.get Frond.reset d.fronds f
def Device.setFrond (d : Device) (f : Nat) (x : Frond) : Device := { d with fronds := Sparse.put Frond.reset d.fronds f x }
def Device.modFrond (d : Device) (f : Nat) (g : Frond → Frond) : Device := d.setFrond f (g (d.frond f))

def Device.hq (d : Device) (q : Nat) : HQueue := Sparse.get HQueue.reset d.hqs q
def Device.setHq (d : Device) (q : Nat) (x : HQueue) : Device := { d with hqs := Sparse.put HQueue.reset d.hqs q x }

def Device.router (d : Device) (r : Nat) : Router := Sparse.get Router.reset d.routers r
def Device.setRouter (d : Device) (r : Nat) (x : Router) : Device := { d with routers := Sparse.put Router.reset d.routers r x }
def Device.modRouter (d : Device) (r : Nat) (g : Router → Router) : Device := d.setRouter r (g (d.router r))

def Device.mc (d : Device) (m : Nat) : MemCtl := Sparse.get MemCtl.reset d.mcs m
def Device.setMc (d : Device) (m : Nat) (x : MemCtl) : Device := { d with mcs := Sparse.put MemCtl.reset d.mcs m x }
def Device.modMc (d : Device) (m : Nat) (g : MemCtl → MemCtl) : Device := d.setMc m (g (d.mc m))

def MemCtl.chan (m : MemCtl) (c : Nat) : Channel := Sparse.get Channel.reset m.ch c
def MemCtl.setChan (m : MemCtl) (c : Nat) (x : Channel) : MemCtl := { m with ch := Sparse.put Channel.reset m.ch c x }

/-- Every channel changed by a function that keeps an idle channel idle: the table stays canonical. -/
def MemCtl.mapChan (m : MemCtl) (f : Channel → Channel) : MemCtl :=
  { m with ch := (m.ch.map fun e => (e.1, f e.2)).filter fun e => decide (e.2 ≠ Channel.reset) }

def Device.queue (d : Device) (q : Nat) : HostQueue := Sparse.get HostQueue.reset d.host.queues q
def Device.setQueue (d : Device) (q : Nat) (x : HostQueue) : Device :=
  { d with host := { d.host with queues := Sparse.put HostQueue.reset d.host.queues q x } }

def Device.region (d : Device) (g : Nat) : Region := Sparse.get Region.reset d.fab.regions g
def Device.setRegion (d : Device) (g : Nat) (x : Region) : Device :=
  { d with fab := { d.fab with regions := Sparse.put Region.reset d.fab.regions g x } }
def Device.modRegion (d : Device) (g : Nat) (f : Region → Region) : Device := d.setRegion g (f (d.region g))

def Device.fport (d : Device) (n : Nat) : FPort := Sparse.get FPort.reset d.fab.ports n
def Device.setFport (d : Device) (n : Nat) (x : FPort) : Device :=
  { d with fab := { d.fab with ports := Sparse.put FPort.reset d.fab.ports n x } }

def Device.link (d : Device) (n : Nat) : Link := Sparse.get Link.reset d.bad.links n
def Device.setLink (d : Device) (n : Nat) (x : Link) : Device :=
  { d with bad := { d.bad with links := Sparse.put Link.reset d.bad.links n x } }
def Device.modLink (d : Device) (n : Nat) (g : Link → Link) : Device := d.setLink n (g (d.link n))

def Device.buDie (d : Device) (k : Nat) : BuDie := Sparse.get BuDie.reset d.boot.dies k
def Device.setBuDie (d : Device) (k : Nat) (x : BuDie) : Device :=
  { d with boot := { d.boot with dies := Sparse.put BuDie.reset d.boot.dies k x } }

/-- The time counter of die k (13 R335). -/
def Device.time (d : Device) (k : Nat) : Word := Sparse.get 0 d.pwr.time k

/-- The power state of a domain, by its key (13 R337). -/
def Device.dom (d : Device) (n : Nat) : Dom := Sparse.get .run d.pwr.doms n
def Device.setDom (d : Device) (n : Nat) (x : Dom) : Device :=
  { d with pwr := { d.pwr with doms := Sparse.put .run d.pwr.doms n x } }

/-- Domain keys: fronds, memory-controller groups, patches, router groups. -/
def domFrond (f : Nat) : Nat := f
def domMc (m : Nat) : Nat := 1000 + m / 8
def domPatch (p : Nat) : Nat := 2000 + p
def domRouter (k v : Nat) : Nat := 3000 + 8 * k + v

/-! ## Variant and enabled units -/

/-- The variant the fuses name (08 R190 VARIANT). -/
def Device.variant (d : Device) : Variant :=
  match d.fuses.variant.toNat with
  | 2 => .ael160
  | 3 => .ael96
  | 4 => .ael48
  | _ => .ael192

/-- Frond F is not fused off (14 R359 FROND_EN). -/
def Device.frondOn (d : Device) (f : Nat) : Bool := bitAt (d.fuses.frondEn.getD (f / 24) 0) (f % 24)

/-- A memory controller is not fused off (14 R359 MC_EN). -/
def Device.mcOn (d : Device) (m : Nat) : Bool := bitAt (d.fuses.mcEn.getD (m / 24) 0) (m % 24)

/-- A patch is not fused off (14 R359 PATCH_EN). -/
def Device.patchOn (d : Device) (p : Nat) : Bool := bitAt d.fuses.patchEn p

/-- A link port is not fused off (14 R359 LINK_EN). -/
def Device.linkOn (d : Device) (n : Nat) : Bool := bitAt d.fuses.linkEn n

/-- A tile is present: its frond is not fused off and bring-up has not excluded it (01 R19). -/
def Device.tileOn (d : Device) (t : Nat) : Bool := d.frondOn (t / 16) && decide ((d.tile t).avail = .available)

/-- A region of the fabric is present: a patch by its fuse, a static region always (01 R19). -/
def Device.regionOn (d : Device) (g : Nat) : Bool := if g % 9 = 8 then true else d.patchOn (8 * (g / 9) + g % 9)

/-- The enabled fronds of die k, in rising order. -/
def Device.frondsOf (d : Device) (k : Nat) : List Nat := (upFrom (24 * k) 24).filter d.frondOn

/-- The enabled memory controllers of die k, in rising order. -/
def Device.mcsOf (d : Device) (k : Nat) : List Nat := (upFrom (24 * k) 24).filter d.mcOn

/-- The available tiles of a frond, in rising order (08 R208). -/
def Device.tilesOf (d : Device) (f : Nat) : List Nat := if d.frondOn f then (upFrom (16 * f) 16).filter d.tileOn else []

/-- Tiles available in the whole part. -/
def Device.tilesAvail (d : Device) : Nat := ((List.range nFronds).map (fun f => (d.tilesOf f).length)).sum

/-! ## The internal address map -/

/-- What an internal address names (01 R20-R23). -/
inductive Place where
  | dram (die off : Nat)
  | tile (t off : Nat)
  | patch (p off : Nat)
  | static (k off : Nat)
  | unit (k off : Nat)
  | reserved
  deriving DecidableEq, Repr

/-- The place of a 44-bit internal address (01 R20). -/
def placeOf (a : Nat) : Place :=
  if a < 0x8000000000 then .dram (a / 0x1000000000) (a % 0x1000000000)
  else if a < 0x10000000000 then .reserved
  else if a < 0x10180000000 then .tile ((a - 0x10000000000) / 0x200000) (a % 0x200000)
  else if a < 0x20000000000 then .reserved
  else if a < 0x20400000000 then .patch ((a - 0x20000000000) / 0x10000000) (a % 0x10000000)
  else if a < 0x20480000000 then .static ((a - 0x20400000000) / 0x10000000) (a % 0x10000000)
  else if a < 0x30000000000 then .reserved
  else if a < 0x30080000000 then .unit ((a - 0x30000000000) / 0x10000000) (a % 0x10000000)
  else .reserved

/-- First address of a tile's window (01 R20). -/
def tileBase (t : Nat) : Nat := 0x10000000000 + t * 0x200000

/-- The router answers the access itself (01 R24); ctl says whether the source may reach unit control (01 R23). -/
def Device.unmapped (d : Device) (ctl : Bool) (a : Nat) : Bool :=
  match placeOf a with
  | .reserved => true
  | .dram _ off => decide (d.variant.dram ≤ off)
  | .tile t off => (decide (0x140000 ≤ off) && decide (off < 0x180000)) || !d.tileOn t
  | .patch p _ => !d.patchOn p
  | .static _ _ => false
  | .unit _ _ => !ctl

/-- The HDM translation (01 R26); none beyond the range. -/
def Device.hdm (d : Device) (h : Nat) : Option Nat :=
  let p := d.variant.dram
  if h < 8 * p then some (h / p * 0x1000000000 + h % p) else none

/-! ## Counters and events -/

/-- One more (08 R219): at all ones the value stays and OVF is set. -/
def Counter.inc (c : Counter) : Counter := if c.value = BitVec.allOnes 48 then ⟨c.value, true⟩ else ⟨c.value + 1, c.ovf⟩

/-- So many more (08 R219). -/
def Counter.add (c : Counter) (n : Nat) : Counter :=
  if c.value.toNat + n < 2 ^ 48 then ⟨BitVec.ofNat 48 (c.value.toNat + n), c.ovf⟩ else ⟨BitVec.allOnes 48, true⟩

/-- A counter as it is reported (08 R219). -/
def Counter.word (c : Counter) : Word :=
  BitVec.ofNat 64 ((if c.ovf then 2 ^ 48 - 1 else c.value.toNat) + b2n c.ovf * 2 ^ 48)

/-- Statistics counter i of unit u (08 R221). -/
def Device.counter (d : Device) (i u : Nat) : Counter := Sparse.get Counter.zero d.ctrs (65536 * i + u)
def Device.setCounter (d : Device) (i u : Nat) (c : Counter) : Device :=
  { d with ctrs := Sparse.put Counter.zero d.ctrs (65536 * i + u) c }

/-- The kinds of unit a counter may have (08 R221). -/
inductive CtrKind where
  | device | queue | frond | die | mc | region | link
  deriving DecidableEq, Repr

/-- The kind of a counter index; none where the index is reserved (08 R221). -/
def ctrKind (i : Nat) : Option CtrKind :=
  if i ≤ 2 then some .queue
  else if i ≤ 4 then some .device
  else if i < 0x10 then none
  else if i ≤ 0x12 then some .frond
  else if i ≤ 0x16 then some .device
  else if i ≤ 0x1A then some .frond
  else if i < 0x20 then none
  else if i ≤ 0x24 then some .frond
  else if i < 0x30 then none
  else if i = 0x30 then some .die
  else if i ≤ 0x32 then some .mc
  else if i < 0x40 then none
  else if i = 0x40 then some .region
  else if i < 0x50 then none
  else if i ≤ 0x52 then some .link
  else if i = 0x60 then some .die
  else none

/-- The mask bits that always read 1 (08 R222): codes 0x08, 0x1A, 0x28. -/
def alwaysOn : Word := 0x0000010004000100

/-- Whether an event code is enabled (08 R222). -/
def Device.enabled (d : Device) (code : Nat) : Bool := bitAt (d.host.mask ||| alwaysOn) code

/-- Codes of fatal events (08 R222). -/
def fatalCode (code : Nat) : Bool := code == 0x08 || code == 0x1A

/-- An event record enters the device buffer; a full buffer drops it (08 R223, R224). An overflow of EVENTS_LOST itself finds the buffer full and is one more drop. -/
def Device.raise (d : Device) (code : Nat) (r0 r1 : Word) : Device :=
  if d.enabled code then
    let d := if fatalCode code then { d with rst := { d.rst with fatal := true } } else d
    if d.host.events.length < 256 then
      -- beside held completions, its place in their common order is kept (15 R385)
      { d with host := { d.host with
          events := d.host.events ++ [⟨code, r0, r1, 0⟩]
          heldOrder := if d.host.heldOrder.isEmpty then [] else d.host.heldOrder ++ [none] } }
    else
      let c := d.counter 3 0
      let n := if c.inc.ovf && !c.ovf && d.enabled 1 then 2 else 1
      let d := { d with host := { d.host with lost := d.host.lost + BitVec.ofNat 32 n } }
      d.setCounter 3 0 (c.add n)
  else d

/-- A statistics counter counts; the first OVF raises COUNTER_OVERFLOW (08 R219, R222). -/
def Device.bump (d : Device) (i u n : Nat) : Device :=
  let c := d.counter i u
  let c' := c.add n
  let d := d.setCounter i u c'
  if c'.ovf && !c.ovf then
    d.raise 1 (pack [(i, 0), (u, 16), (if ctrKind i = some .device then 0 else 2, 48)]) 0
  else d

/-- Only an access to a device in service may be made: DEV_STATUS.STATE as its code (08 R190). -/
def DevState.code : DevState → Nat
  | .reset => 0 | .early => 1 | .fiddlehead => 2 | .ready => 3 | .diagHold => 4

/-- Status codes (08 R218). -/
def Status.code : Status → Nat
  | .success => 0x00 | .successDerated => 0x01 | .alreadyComplete => 0x02 | .aborted => 0x03
  | .invalidOpcode => 0x10 | .invalidParam => 0x11 | .notReady => 0x12 | .busy => 0x13 | .noResource => 0x14
  | .memoryUncorrectable => 0x20 | .memoryFrozen => 0x21 | .poison => 0x22
  | .configCrc => 0x30 | .signatureInvalid => 0x31 | .frameOutOfRegion => 0x32 | .regionBusy => 0x33
  | .linkDown => 0x40 | .routeUnreachable => 0x41 | .authFailed => 0x50 | .rollback => 0x51
  | .tileFault => 0x60 | .timeout => 0x61 | .internal => 0x7F

/-- The status of a code; values that are never produced read as INTERNAL. -/
def Status.ofCode (n : Nat) : Status :=
  match n with
  | 0x00 => .success | 0x01 => .successDerated | 0x02 => .alreadyComplete | 0x03 => .aborted
  | 0x10 => .invalidOpcode | 0x11 => .invalidParam | 0x12 => .notReady | 0x13 => .busy | 0x14 => .noResource
  | 0x20 => .memoryUncorrectable | 0x21 => .memoryFrozen | 0x22 => .poison
  | 0x30 => .configCrc | 0x31 => .signatureInvalid | 0x32 => .frameOutOfRegion | 0x33 => .regionBusy
  | 0x40 => .linkDown | 0x41 => .routeUnreachable | 0x50 => .authFailed | 0x51 => .rollback
  | 0x60 => .tileFault | 0x61 => .timeout | _ => .internal

/-- Success of a command: statuses 0x00-0x02 (08 R218). -/
def Status.ok (s : Status) : Bool := decide (s.code ≤ 2)

end Sys2Proof.Machine
end

