-- ==== Sys2Proof/Machine/Packet.lean ====
section
/-! DEFINITION. Packets of the package network: headers and payloads (09 R232-R234), which unit hangs on which local port (01 R18),
and the destination of an address or a queue (09 R236). -/

namespace Sys2Proof.Machine

/-! ## Header fields (09 R232) -/

def Packet.type (p : Packet) : Nat := fld p.hdr 60 4
def Packet.panic (p : Packet) : Bool := bitAt p.hdr 59
def Packet.dlx (p : Packet) : Bool := bitAt p.hdr 58
def Packet.dly (p : Packet) : Bool := bitAt p.hdr 57
def Packet.flits (p : Packet) : Nat := fld p.hdr 55 2 + 1
def Packet.dx (p : Packet) : Nat := fld p.hdr 51 4
def Packet.dy (p : Packet) : Nat := fld p.hdr 46 5
def Packet.dp (p : Packet) : Nat := fld p.hdr 45 1
def Packet.sx (p : Packet) : Nat := fld p.hdr 41 4
def Packet.sy (p : Packet) : Nat := fld p.hdr 36 5
def Packet.sp (p : Packet) : Nat := fld p.hdr 35 1
def Packet.txid (p : Packet) : BitVec 16 := BitVec.ofNat 16 (fld p.hdr 19 16)
def Packet.status (p : Packet) : Nat := fld p.hdr 11 8
def Packet.result (p : Packet) : Nat := fld p.hdr 8 3
def Packet.sub (p : Packet) : Nat := fld p.hdr 0 6

/-- Bytes of the payload. -/
def Packet.bytes (p : Packet) : List Byte := bytesOf p.pay

/-- Word 0 of the payload. -/
def Packet.word0 (p : Packet) : Word := BitVec.ofNat 64 ((p.pay.headD 0).toNat % 2 ^ 64)

/-- A field of the header replaced. -/
def setFld {k : Nat} (w : BitVec k) (lo n x : Nat) : BitVec k :=
  BitVec.ofNat k (w.toNat - (fld w lo n <<< lo) + ((x % 2 ^ n) <<< lo))

def Packet.setHdr (p : Packet) (lo n x : Nat) : Packet := { p with hdr := setFld p.hdr lo n x }

/-- Packet types (09 R233). -/
def tREAD : Nat := 1
def tWRITE : Nat := 2
def tWRITEM : Nat := 3
def tRDRESP : Nat := 4
def tWRACK : Nat := 5
def tHOP : Nat := 6
def tHRESP : Nat := 7
def tMREAD : Nat := 8
def tMWRITE : Nat := 9
def tMCAST : Nat := 10
def tCTRL : Nat := 11

/-- Message class of a type: REQ, RSP, HDL, MGT (09 R230, R233). -/
def classOf (ty : Nat) : Nat :=
  if ty == tRDRESP || ty == tWRACK || ty == tHRESP then 1
  else if ty == tHOP || ty == tMCAST || ty == tCTRL then 2
  else if ty == tMREAD || ty == tMWRITE then 3
  else 0

/-! ## Units on local ports (01 R18) -/

/-- The router at local (u, v) of die k (01 R16). -/
def routerAt (k u v : Nat) : Nat := 12 * (8 * (k / 2) + v) + 6 * (k % 2) + u

/-- Die, local column and local row of a router (01 R16). -/
def rtrDie (r : Nat) : Nat := 2 * (r / 12 / 8) + r % 12 / 6
def rtrCol (r : Nat) : Nat := r % 12 % 6
def rtrRow (r : Nat) : Nat := r / 12 % 8

/-- What hangs on local port lp of router r (01 R18). -/
def unitAt (r lp : Nat) : UnitAt :=
  let k := rtrDie r
  let u := rtrCol r
  let v := rtrRow r
  if lp = 0 then (if u % 2 = 0 then .frond (24 * k + 8 * (u / 2) + v) else .mc (24 * k + 8 * (u / 2) + v))
  else if u = 1 then .patch (8 * k + v) false
  else if u = 4 then .patch (8 * k + v) true
  else if v = 0 then
    (if u = 0 then .link (2 * k) else if u = 5 then .link (2 * k + 1) else if u = 2 then .dieMgr k else .config k)
  else if u = 2 && v = 3 then .static k false
  -- (3, 4) carries port B of the static region
  else if u = 3 && v = 4 then .static k true
  else if v = 7 then
    (if u = 2 then .sec k else if u = 3 then .rcp k
     else if k = 0 && u = 0 then .cxl else if k = 0 && u = 5 then .cmd else .none)
  else .none

/-- Router of a frond attachment; its port is L0. -/
def frondRouter (f : Nat) : Nat := routerAt (f / 24) (2 * (f % 24 / 8)) (f % 8)

/-- Router of a memory controller; its port is L0. -/
def mcRouter (m : Nat) : Nat := routerAt (m / 24) (2 * (m % 24 / 8) + 1) (m % 8)

/-- Router of port A or B of a patch; the port is L1. -/
def patchRouter (p : Nat) (b : Bool) : Nat := routerAt (p / 8) (if b then 4 else 1) (p % 8)

/-- Router of port A or B of a static region; the port is L1. -/
def staticRouter (k : Nat) (b : Bool) : Nat := if b then routerAt k 3 4 else routerAt k 2 3

/-- Router of a link engine; the port is L1. -/
def linkRouter (n : Nat) : Nat := routerAt (n / 2) (if n % 2 = 0 then 0 else 5) 0

def cmdRouter : Nat := routerAt 0 5 7
def cxlRouter : Nat := routerAt 0 0 7

/-- The unit of a local port is there (01 R19). -/
def Device.present (d : Device) : UnitAt → Bool
  | .frond f => d.frondOn f
  | .mc m => d.mcOn m
  | .patch p _ => d.patchOn p
  | .link n => d.linkOn n
  | .none => false
  | _ => true

/-! ## From address to controller (10 R252) -/

/-- Where a DRAM address lies: controller, channel, bank, row, granule column and byte. -/
structure DramLoc where
  mc : Nat
  chan : Nat
  bank : Nat
  row : Nat
  col : Nat
  byte : Nat
  deriving DecidableEq, Repr

/-- The placement function of R252, over the enabled controllers ms of the die in rising order. -/
def placeDram (ms : List Nat) (o : Nat) : DramLoc :=
  let g := o / 256
  let h := g / 2
  let n := ms.length
  let line := h / n
  let i := (h + line) % n
  let l := line / 2
  { mc := ms.getD i 0, chan := 2 * (line % 2) + g % 2, bank := 4 * (l % 4) + l / 4 % 4, row := l / 128 % 16384,
    col := l / 16 % 8, byte := o % 256 }

/-- The location of a DRAM internal address. -/
def Device.loc (d : Device) (a : Nat) : DramLoc := placeDram (d.mcsOf (a / 0x1000000000)) (a % 0x1000000000)

/-- Die k and granule number L of channel c of the i-th of n controllers, as an offset in the die's window: R252 read backwards. -/
def unplaceDram (n i c l : Nat) : Nat :=
  let line := 2 * l + c / 2
  let h := line * n + (i + n - line % n) % n
  (2 * h + c % 2) * 256

/-! ## Destinations (09 R236) -/

/-- A local port: router and port. -/
structure PortId where
  r : Nat
  lp : Nat
  deriving DecidableEq, Repr

/-- The port that serves a unit-control offset of die k (01 R23). Router and bridge registers answer at the die manager's port (log entry 17). -/
def ctlPort (k off : Nat) : PortId :=
  if off < 0x1800000 then ⟨frondRouter (24 * k + off / 0x100000), 0⟩
  else if 0x2000000 ≤ off ∧ off < 0x2180000 then ⟨mcRouter (24 * k + (off - 0x2000000) / 0x10000), 0⟩
  else if 0x4000000 ≤ off ∧ off < 0x4100000 then ⟨routerAt k 3 0, 1⟩
  else if 0x5000000 ≤ off ∧ off < 0x5100000 then ⟨routerAt k 0 0, 1⟩
  else if 0x5100000 ≤ off ∧ off < 0x5200000 then ⟨routerAt k 5 0, 1⟩
  else if 0x7000000 ≤ off ∧ off < 0x7100000 then ⟨routerAt k 3 7, 1⟩
  else if 0x8000000 ≤ off ∧ off < 0x8100000 then ⟨routerAt k 2 7, 1⟩
  else if k = 0 ∧ 0x9000000 ≤ off ∧ off < 0x9100000 then ⟨cmdRouter, 1⟩
  else if k = 0 ∧ 0xA000000 ≤ off ∧ off < 0xA100000 then ⟨cxlRouter, 1⟩
  else ⟨routerAt k 2 0, 1⟩

/-- The port an internal address is sent to. -/
def Device.destOf (d : Device) (a : Nat) : PortId :=
  match placeOf a with
  | .dram _ _ => ⟨mcRouter (d.loc a).mc, 0⟩
  | .tile t _ => ⟨frondRouter (t / 16), 0⟩
  | .patch p off => ⟨patchRouter p (decide (0x8000000 ≤ off)), 1⟩
  | .static k off => ⟨staticRouter k (decide (0x8000000 ≤ off)), 1⟩
  | .unit k off => ctlPort k off
  | .reserved => ⟨0, 0⟩

/-! ## Building packets -/

/-- A header: type, PANIC, flits, destination, source and type-specific fields (09 R232). -/
def mkHdr (ty : Nat) (panic : Bool) (flits : Nat) (dst src : PortId) (tsf : Nat) : Word :=
  pack [(ty, 60), (b2n panic, 59), (flits - 1, 55), (dst.r % 12, 51), (dst.r / 12, 46), (dst.lp, 45), (src.r % 12, 41),
        (src.r / 12, 36), (src.lp, 35), (tsf, 0)]

/-- A READ of len bytes (a multiple of 64 up to 512) at address a. -/
def mkRead (panic : Bool) (src : PortId) (tx : BitVec 16) (a len : Nat) : Packet :=
  ⟨mkHdr tREAD panic 1 ⟨0, 0⟩ src (tx.toNat <<< 19), [BitVec.ofNat 1024 (a + ((len / 64 - 1) <<< 44))]⟩

/-- A WRITE of 128, 256, 384 or 512 bytes at address a. Its upper address bits select the destination and are not sent (R234). -/
def mkWrite (panic : Bool) (src : PortId) (sub a : Nat) (data : List Byte) : Packet :=
  ⟨mkHdr tWRITE panic (data.length / 128) ⟨0, 0⟩ src ((a / 128 % 2 ^ 29) * 64 + sub), flitsOf data⟩

/-- A WRITEM: 128 bytes at an address a, a multiple of 128, under a byte mask. -/
def mkWriteM (panic : Bool) (src : PortId) (sub a : Nat) (data : List Byte) (mask : BitVec 128) : Packet :=
  ⟨mkHdr tWRITEM panic 2 ⟨0, 0⟩ src ((a / 128 % 2 ^ 29) * 64 + sub), [BitVec.ofNat 1024 (leNat data), BitVec.ofNat 1024 mask.toNat]⟩

/-- Codes of the queue operations (09 R234 HOP). -/
def QOp.code : QOp → Nat
  | .push => 0 | .pop => 1 | .popNb => 2 | .peek => 3 | .waith => 4

/-- The operation of a code; none for a reserved one. -/
def QOp.ofCode (n : Nat) : Option QOp :=
  match n with
  | 0 => some .push | 1 => some .pop | 2 => some .popNb | 3 => some .peek | 4 => some .waith | _ => none

/-- A HOP. -/
def mkHop (panic : Bool) (src : PortId) (tx : BitVec 16) (q : HopReq) : Packet :=
  ⟨mkHdr tHOP panic 1 ⟨0, 0⟩ src (tx.toNat <<< 19),
   [BitVec.ofNat 1024 (q.op.code + (q.queue <<< 16) + (q.count <<< 32) + (q.entry.toNat <<< 64) + (q.seq.toNat <<< 128) +
      (q.epoch.toNat <<< 144) + (b2n q.specv <<< 160))]⟩

/-- The operation a HOP carries (09 R234); none where its OP is reserved. -/
def Packet.hop (p : Packet) : Option HopReq :=
  let w := p.pay.headD 0
  match QOp.ofCode (fld w 0 8) with
  | none => none
  | some o => some ⟨o, fld w 16 14, fld w 32 16, BitVec.ofNat 64 (fld w 64 64), BitVec.ofNat 16 (fld w 128 16),
      BitVec.ofNat 16 (fld w 144 16), bitAt w 160, .net p.hdr⟩

/-- The source port of a header. -/
def srcPort (h : Word) : PortId := ⟨12 * fld h 36 5 + fld h 41 4, fld h 35 1⟩

/-- An answer to the request with header h, from the port that answers (09 R236). -/
def mkAnswer (h : Word) (at_ : PortId) (ty : Nat) (tsf : Nat) (pay : List (BitVec 1024)) : Packet :=
  ⟨mkHdr ty (bitAt h 59) pay.length (srcPort h) at_ tsf, pay⟩

/-- An RDRESP. -/
def mkRdResp (h : Word) (at_ : PortId) (st : Nat) (data : List Byte) : Packet :=
  mkAnswer h at_ tRDRESP ((fld h 19 16 <<< 19) + (st <<< 11)) (flitsOf data)

/-- A WRACK: it returns the SUB of a WRITE or WRITEM, the TXID of an MWRITE. -/
def mkWrAck (h : Word) (at_ : PortId) (st : Nat) : Packet :=
  let mg := fld h 60 4 == tMWRITE
  mkAnswer h at_ tWRACK ((st <<< 11) + (if mg then fld h 19 16 <<< 19 else fld h 0 6)) [0]

/-- An HRESP: RESULT 0 DONE, 1 EMPTY, 2 REFUSED. -/
def mkHresp (h : Word) (at_ : PortId) (st result : Nat) (entry : Word) : Packet :=
  mkAnswer h at_ tHRESP ((fld h 19 16 <<< 19) + (st <<< 11) + (result <<< 8)) [BitVec.ofNat 1024 entry.toNat]

/-- Address and length of a READ (09 R234). -/
def Packet.readAddr (p : Packet) : Nat := fld p.word0 0 44
def Packet.readLen (p : Packet) : Nat := 64 * (fld p.word0 44 3 + 1)

/-- Address of a WRITE or WRITEM at a unit whose windows have upper bits hi (09 R234). -/
def Packet.writeAddr (p : Packet) (hi : Nat) : Nat := hi * 0x1000000000 + fld p.hdr 6 29 * 128

/-- The bytes a WRITE or WRITEM enables. -/
def Packet.wmask (p : Packet) : List Bool :=
  if p.type == tWRITEM then (List.range 128).map (fun i => (p.pay.getD 1 0).toNat.testBit i) else List.replicate (128 * p.flits) true

/-- Data bytes of a WRITE or WRITEM. -/
def Packet.wdata (p : Packet) : List Byte := if p.type == tWRITEM then leBytes 128 (p.pay.headD 0).toNat else p.bytes

/-- Poisoned data of n bytes: which bytes they are is left open (log entry 2). -/
def poisonData (a n : Nat) : List Byte := (upFrom a n).map Config.poisonByte

/-- A packet waits to be injected at a local port, with the internal address it names, if it is a request for one (09 R236). -/
def Device.sendTo (d : Device) (p : PortId) (a : Option Nat) (k : Packet) : Device :=
  d.modRouter p.r fun r => { r with outbox := Sparse.put [] r.outbox p.lp (Sparse.get [] r.outbox p.lp ++ [(a, k)]) }

/-- A packet that needs no address: an answer, a HOP, a multicast or a message. -/
def Device.send (d : Device) (p : PortId) (k : Packet) : Device := d.sendTo p none k

/-- The packets delivered to a local port. -/
def Device.inboxOf (d : Device) (p : PortId) : List Packet := Sparse.get [] (d.router p.r).inbox p.lp

/-- The packets of a local port replaced. -/
def Device.setInbox (d : Device) (p : PortId) (l : List Packet) : Device :=
  d.modRouter p.r fun r => { r with inbox := Sparse.put [] r.inbox p.lp l }

/-- The first packet of a list that satisfies f, and the rest. -/
def takeFirst {α : Type} (f : α → Bool) : List α → Option (α × List α)
  | [] => none
  | x :: r =>
    if f x then some (x, r)
    else match takeFirst f r with
      | none => none
      | some (y, q) => some (y, x :: q)

end Sys2Proof.Machine
end

