-- ==== Sys2Proof/Machine/Dram.lean ====
section
/-! DEFINITION. Codewords of the bonded DRAM: the Reed-Solomon code (10 R264), the effect of a write buffer entry (10 R265), the
accesses that hardened units and firmware make as one act (log entry 18), and the freeze of a controller (10 R268-R270). -/

namespace Sys2Proof.Machine

/-! ## The code (10 R264) -/

/-- Multiplication by α = 0x02 in GF(2⁸) on 0x11D. -/
def gfX (a : Nat) : Nat := if 2 * a < 256 then 2 * a else (2 * a) ^^^ 0x11D

/-- Multiplication in GF(2⁸): the bits of b from n - 1 down to 0. -/
def gfMulAux (a b : Nat) : Nat → Nat → Nat
  | 0, acc => acc
  | n + 1, acc => gfMulAux a b n (gfX acc ^^^ (if b.testBit n then a else 0))

def gfMul (a b : Nat) : Nat := gfMulAux a b 8 0

/-- α^n. -/
def gfPow : Nat → Nat
  | 0 => 1
  | n + 1 => gfX (gfPow n)

/-- The value of the polynomial with coefficients l, highest degree first, at x. -/
def gfEval (x : Nat) (l : List Byte) : Nat := l.foldl (fun a c => gfMul a x ^^^ c.toNat) 0

/-- One step of the division by g(x) = x³ + 7x² + 14x + 8, on the remainder's coefficients, highest first. -/
def checkStep (r : Nat × Nat × Nat) (c : Byte) : Nat × Nat × Nat :=
  let f := c.toNat ^^^ r.1
  (r.2.1 ^^^ gfMul f 7, r.2.2 ^^^ gfMul f 14, gfMul f 8)

/-- The three check bytes of 65 symbols. -/
def checkBytes (l : List Byte) : List Byte :=
  let r := l.foldl checkStep (0, 0, 0)
  [BitVec.ofNat 8 r.1, BitVec.ofNat 8 r.2.1, BitVec.ofNat 8 r.2.2]

/-- The syndromes S₀, S₁, S₂ of a read codeword. -/
def syndromes (l : List Byte) : Nat × Nat × Nat := (gfEval 1 l, gfEval 2 l, gfEval 4 l)

/-- What the check of a read codeword finds. -/
inductive EccResult where
  | clean
  | corrected (i : Nat) (l : List Byte)
  | uncorrectable (syn : BitVec 24)
  deriving DecidableEq, Repr

/-- A read codeword checked: an error confined to one symbol is corrected, any other one is uncorrectable (log entry 19). -/
def eccCheck (l : List Byte) : EccResult :=
  let s := syndromes l
  if s.1 = 0 ∧ s.2.1 = 0 ∧ s.2.2 = 0 then .clean
  else
    let bad : EccResult := .uncorrectable (BitVec.ofNat 24 (s.1 + 256 * s.2.1 + 65536 * s.2.2))
    if s.1 ≠ 0 ∧ gfMul s.2.1 s.2.1 = gfMul s.1 s.2.2 then
      match (List.range 68).find? (fun e => gfMul s.1 (gfPow e) == s.2.1) with
      | some e => .corrected (67 - e) (l.set (67 - e) (l.getD (67 - e) 0 ^^^ BitVec.ofNat 8 s.1))
      | none => bad
    else bad

/-! ## Codewords in memory -/

/-- The 68 symbols stored for codeword c (internal address / 64). -/
def Device.cwRaw (d : Device) (c : Nat) : List Byte := d.dram.read (64 * c) 64 ++ d.side.read (4 * c) 4

/-- The POISON bit stored for codeword c. -/
def Device.cwPoison (d : Device) (c : Nat) : Bool := bitAt (d.side.byte (4 * c)) 0

/-- Codeword c written with new check bytes. -/
def Device.cwWrite (d : Device) (c : Nat) (data : List Byte) (poison : Bool) : Device :=
  let l := data ++ [BitVec.ofNat 8 (b2n poison)]
  { d with dram := d.dram.write (64 * c) data, side := d.side.write (4 * c) (l.drop 64 ++ checkBytes l) }

/-- Masked bytes over old ones. -/
def mergeBytes (mask : BitVec 64) (new old : List Byte) : List Byte :=
  ((new.zip old).zipIdx).map fun e => if bitAt mask e.2 then e.1.1 else e.1.2

/-- The effect of a write buffer entry on the DRAM (10 R265). -/
def Device.applyEntry (d : Device) (e : WriteEntry) : Device :=
  if e.mask = BitVec.allOnes 64 then d.cwWrite e.addr e.data e.poison
  else d.cwWrite e.addr (mergeBytes e.mask e.data (d.dram.read (64 * e.addr) 64)) (e.poison || d.cwPoison e.addr)

/-- The controller and channel of codeword c. -/
def Device.cwLoc (d : Device) (c : Nat) : DramLoc := d.loc (64 * c)

/-- Every buffered write of codeword c drained, in the order accepted (10 R258). -/
def Device.drainCw (d : Device) (c : Nat) : Device :=
  let p := d.cwLoc c
  let ch := (d.mc p.mc).chan p.chan
  let d' := (ch.wbuf.filter (fun e => e.addr == c)).foldl Device.applyEntry d
  d'.modMc p.mc fun m => m.setChan p.chan { ch with wbuf := ch.wbuf.filter (fun e => e.addr != c) }

/-- The codeword's controller is trained: before that its DRAM serves no data (01 R26). -/
def Device.cwServed (d : Device) (c : Nat) : Bool :=
  let st := (d.mc (d.cwLoc c).mc).st
  st != .off && st != .training

/-- Codeword c read as one act: its status and bytes (10 R266). The controller's first POISON answer raises its event. -/
def Device.cwRead (d : Device) (c : Nat) : Status × List Byte × Device :=
  let p := d.cwLoc c
  if (d.mc p.mc).st = .frozen then (.memoryFrozen, poisonData (64 * c) 64, d)
  else if !d.cwServed c then (.poison, poisonData (64 * c) 64, d)
  else
    let d := d.drainCw c
    if d.cwPoison c then
      let m := d.mc p.mc
      let d' := if m.poisonSeen then d
        else (d.setMc p.mc { m with poisonSeen := true }).raise 0x09 (BitVec.ofNat 64 p.mc) (BitVec.ofNat 64 (64 * c))
      (.poison, poisonData (64 * c) 64, d')
    else (.success, d.dram.read (64 * c) 64, d)

/-- Codeword c written as one act, under a byte mask. -/
def Device.cwStore (d : Device) (c : Nat) (mask : BitVec 64) (data : List Byte) (poison : Bool) : Status × Device :=
  let p := d.cwLoc c
  if (d.mc p.mc).st = .frozen then (.memoryFrozen, d)
  else if !d.cwServed c then (.poison, d)
  else (.success, (d.drainCw c).applyEntry ⟨c, data, mask, poison⟩)

/-- Codewords c, c + 1, … read as one act, up to the first that fails. -/
def Device.cwReads (d : Device) (c : Nat) : Nat → Status × List Byte × Device
  | 0 => (.success, [], d)
  | n + 1 =>
    match d.cwRead c with
    | (.success, l, d') =>
      match Device.cwReads d' (c + 1) n with
      | (.success, l', d'') => (.success, l ++ l', d'')
      | r => r
    | r => r

/-- An internal address range lies in populated DRAM. -/
def Device.dramRange (d : Device) (a n : Nat) : Bool :=
  match placeOf a with
  | .dram _ off => decide (off + n ≤ d.variant.dram)
  | _ => false

/-- n bytes of DRAM at an internal address, read by firmware as one act (log entry 18). -/
def Device.dramRead (d : Device) (a n : Nat) : Status × List Byte × Device :=
  if n = 0 then (.success, [], d)
  else if d.dramRange a n then
    let c := a / 64
    match d.cwReads c ((a + n - 1) / 64 + 1 - c) with
    | (.success, l, d') => (.success, (l.drop (a % 64)).take n, d')
    | r => r
  else (.invalidParam, [], d)

/-- Bytes of a range that fall in codeword c, as a mask and 64 bytes. -/
def cwSlice (a : Nat) (l : List Byte) (c : Nat) : BitVec 64 × List Byte :=
  let lo := 64 * c
  let idx : List Nat := List.range 64
  (BitVec.ofNat 64 ((idx.filter (fun i => decide (a ≤ lo + i) && decide (lo + i < a + l.length))).foldl (fun x i => x + 2 ^ i) 0),
   idx.map fun i => if a ≤ lo + i then l.getD (lo + i - a) 0 else 0)

/-- Codewords written as one act, up to the first that fails. -/
def Device.cwStores (d : Device) (a : Nat) (l : List Byte) (c : Nat) : Nat → Status × Device
  | 0 => (.success, d)
  | n + 1 =>
    let s := cwSlice a l c
    match d.cwStore c s.1 s.2 false with
    | (.success, d') => Device.cwStores d' a l (c + 1) n
    | r => r

/-- Bytes written to DRAM at an internal address by firmware as one act (log entry 18). -/
def Device.dramWrite (d : Device) (a : Nat) (l : List Byte) : Status × Device :=
  if l = [] then (.success, d)
  else if d.dramRange a l.length then
    let c := a / 64
    d.cwStores a l c ((a + l.length - 1) / 64 + 1 - c)
  else (.invalidParam, d)

/-! ## Host bias (15 R389) -/

/-- The host may hold copies of lines of the HDM range: the port runs in CXL mode, its link is up, and the HDM decoder is committed (log entry 23). -/
def Device.hostCaches (d : Device) : Bool := d.cxl.up && d.cxl.cxlMode && d.cxl.hdm

/-- A line (internal address / 64) lies in a host-bias page of which the host may hold copies. -/
def Device.lineBiased (d : Device) (line : Nat) : Bool := d.hostCaches && !has d.cxl.devBias (line / 64)

/-- An agent's act touches the host-bias lines of n bytes at a. -/
def Device.touch (d : Device) (a n : Nat) : Device :=
  if d.hostCaches then
    { d with cxl := { d.cxl with touched := d.cxl.touched ++ (upFrom (a / 64) ((a + n + 63) / 64 - a / 64)).filter d.lineBiased } }
  else d

/-- Bytes read, and bytes written, as one act by an agent that R389 names: a stream engine, a link engine, firmware. -/
def Device.agentRead (d : Device) (a n : Nat) : Status × List Byte × Device := (d.touch a n).dramRead a n
def Device.agentWrite (d : Device) (a : Nat) (l : List Byte) : Status × Device := (d.touch a l.length).dramWrite a l

/-- What comes of an act that leads from old to new: itself, where the port has resolved every host-bias line it touches; otherwise the act waits, nothing
of it is done, and the port resolves the lines (15 R389). -/
def Device.settled (old new : Device) : Device :=
  let t := new.cxl.touched
  let need := t.filter fun l => !has new.cxl.owned l
  if t.isEmpty then new
  else if need.isEmpty then { new with cxl := { new.cxl with touched := [], owned := new.cxl.owned.filter fun l => !has t l } }
  else { old with cxl := { old.cxl with asked := need.foldl (fun l x => insNat x l) old.cxl.asked } }

/-- The effect of an act that may touch host-bias lines. -/
def runC (f : Device → Device) (s : State) : Host.Outcome State Fault Refusal := .next { s with dev := s.dev.settled (f s.dev) }

def runUnitC (ok : Bool) (f : Device → Device) (s : State) : Host.Outcome State Fault Refusal :=
  if ok then runC f s else .fault .noSuchUnit

/-! ## Commands of a controller and its freeze -/

/-- A command recorded: TIME, and CMD with its place (10 R277 MC_HISTORY). The last 64 are kept. -/
def MemCtl.log (m : MemCtl) (time : Word) (cmd : Nat) (ap : Bool) (p : DramLoc) : MemCtl :=
  { m with cmds := ((time, pack [(cmd, 61), (b2n ap, 60), (p.chan, 58), (p.bank, 54), (p.row, 40), (p.col, 37),
      (p.byte / 64, 35)]) :: m.cmds).take 64 }

/-- One command on each of the four channels recorded: SELF_REFRESH, or TRAIN (10 R263, R277). -/
def MemCtl.logAll (m : MemCtl) (time : Word) (cmd : Nat) : MemCtl :=
  (List.range 4).foldl (fun (x : MemCtl) c => x.log time cmd false ⟨0, c, 0, 0, 0, 0⟩) m

/-- Answers MEMORY_FROZEN to a read or write (10 R269). -/
def Device.answerFrozen (d : Device) (m : Nat) (k : Packet) : Device :=
  let at_ : PortId := ⟨mcRouter m, 0⟩
  if k.type == tREAD then
    d.send at_ (mkRdResp k.hdr at_ Status.memoryFrozen.code (poisonData k.readAddr k.readLen))
  else d.send at_ (mkWrAck k.hdr at_ Status.memoryFrozen.code)

/-- Ids of the network reads queued on a controller's channels, in arrival order. -/
def MemCtl.waitingIds (m : MemCtl) : List Nat :=
  (m.asm.map (·.id)).filter fun id =>
    (List.range 4).any fun c => (m.chan c).readq.any fun r => decide (r.kind = .net id)

/-- A controller freezes (10 R268): the cause, channel and address of the failing access, its syndrome, the write a DRAM ignored. -/
def Device.freeze (d : Device) (m cause chan addr : Nat) (syn : BitVec 24) (w : Option WriteEntry) (refresh : Bool) : Device :=
  let x := d.mc m
  let ids := x.waitingIds
  -- reads held in the queues and reads already issued get no data any more: each network read under assembly is answered once
  let held := x.asm.filter (fun a => has ids a.id)
  let y : MemCtl := { x with
    st := .frozen, frzCause := cause, frzChannel := chan, frzAddr := addr, syndrome := syn, frzWrite := w, frzRefresh := refresh
    history := x.cmds.reverse
    heldAddrs := (held.map (fun a => a.pkt.readAddr)).take 1024
    asm := x.asm.filter (fun a => !has ids a.id) }
  let d := d.setMc m (y.mapChan fun c => { c with readq := [], closed := false, retrainDue := false, batch := false })
  let d := held.foldl (fun d a => d.answerFrozen m a.pkt) d
  -- a request that waits in the input is answered at once (R269)
  let d := (d.mc m).waitW.foldl (fun d k => d.answerFrozen m k) d
  let d := d.modMc m fun y => { y with waitW := [] }
  d.raise 0x08 (BitVec.ofNat 64 m) (BitVec.ofNat 64 addr)

/-- Service resumes after a freeze (10 R270). -/
def Device.thaw (d : Device) (m : Nat) : Device :=
  let x := d.mc m
  if x.st = .frozen then
    let d := match x.frzWrite with
      | some e => d.cwWrite e.addr (d.dram.read (64 * e.addr) 64) true
      | none => if x.frzCause = 1 then d.cwWrite (x.frzAddr / 64) (d.dram.read (x.frzAddr / 64 * 64) 64) true else d
    d.modMc m fun y =>
      let z := { y with st := .run, frzCause := 0, frzWrite := none, frzRefresh := false, poisonSeen := false }
      if x.frzRefresh then z.setChan x.frzChannel { z.chan x.frzChannel with redo := true } else z
  else d

end Sys2Proof.Machine
end

