-- ==== Sys2Proof/Machine/Operands.lean ====
section
/-! DEFINITION. The operand forms of tile instructions: the fields of the 64-bit word (04 R79, R87), the registers as instructions
name them (04 R82-R83), and how an instruction issues, completes, waits or faults (04 R93-R94, R104-R109). -/

namespace Sys2Proof.Machine

/-! ## Registers -/

/-- Physical register of a scalar name (04 R83). -/
def Seq.gPhys (s : Seq) (n : Nat) : Nat := if n < 32 then n else 32 + (n - 32 + s.rrbG.toNat) % 32

/-- Physical register of a vector name (04 R83). -/
def Seq.vPhys (s : Seq) (n : Nat) : Nat := if n < 16 then n else 16 + (n - 16 + s.rrbV.toNat) % 16

/-- A scalar register: g0 reads 0 (04 R82). -/
def Seq.getG (s : Seq) (n : Nat) : Word := if n = 0 then 0 else Sparse.get 0 s.g (s.gPhys n)

/-- A scalar register written: a write to g0 is discarded (04 R82). -/
def Seq.setG (s : Seq) (n : Nat) (x : Word) : Seq := if n = 0 then s else { s with g := Sparse.put 0 s.g (s.gPhys n) x }

/-- One lane of a vector register. -/
def Seq.getLane (s : Seq) (n l : Nat) : BitVec 32 := Sparse.get 0 s.v (64 * s.vPhys n + l)

/-- One lane written. -/
def Seq.setLane (s : Seq) (n l : Nat) (x : BitVec 32) : Seq := { s with v := Sparse.put 0 s.v (64 * s.vPhys n + l) x }

/-- The 64 lanes of a vector register. -/
def Seq.getV (s : Seq) (n : Nat) : List (BitVec 32) := (List.range 64).map (s.getLane n)

/-- Lanes written from lane l on, where the mask is 1. -/
def Seq.setVFrom (s : Seq) (n : Nat) : Nat → List (BitVec 32 × Bool) → Seq
  | _, [] => s
  | l, (x, m) :: r => Seq.setVFrom (if m then s.setLane n l x else s) n (l + 1) r

/-- A vector register written in the lanes of the mask. -/
def Seq.setV (s : Seq) (n : Nat) (mask : Word) (l : List (BitVec 32)) : Seq :=
  s.setVFrom n 0 (l.zipIdx.map (fun e => (e.1, bitAt mask e.2)))

/-- A predicate register: p0 reads all ones (04 R82). -/
def Seq.getP (s : Seq) (n : Nat) : Word := if n = 0 then BitVec.allOnes 64 else Sparse.get 0 s.p n

/-- A predicate register written: p0 cannot be (04 R82). -/
def Seq.setP (s : Seq) (n : Nat) (x : Word) : Seq := if n = 0 then s else { s with p := Sparse.put 0 s.p n x }

/-- The number of active loops (04 R86 LDEPTH). -/
def Seq.depth (s : Seq) : Nat := s.loops.length

/-- SS (04 R86). -/
def Seq.ss (s : Seq) : Word :=
  pack [(s.depth, 20), (s.rrbV.toNat, 16), (s.rrbG.toNat, 11), (s.strmState.toNat, 9), (b2n s.flags.nanSeen, 1), (b2n s.flags.saturated, 0)]

/-- The flags with more raised; only dispatch clears them (02 R45, 04 R86). -/
def Seq.flag (s : Seq) (f : Flags) : Seq := { s with flags := s.flags.or f }

/-! ## Fields of the word -/

def wOpc (w : Word) : Nat := fld w 58 6
def wSat (w : Word) : Bool := bitAt w 57
def wPs (w : Word) : Nat := fld w 54 3
def wGd (w : Word) : Nat := fld w 48 6
def wGa (w : Word) : Nat := fld w 42 6
def wGb (w : Word) : Nat := fld w 36 6
def wImm (w : Word) : Bool := bitAt w 35
def wSub (w : Word) : Nat := fld w 32 3
def wImm32 (w : Word) : Nat := fld w 0 32

/-- The reserved major opcodes (04 R81). -/
def reservedOpc (o : Nat) : Bool := (decide (0x14 ≤ o) && decide (o ≤ 0x17)) || o == 0x37 || o == 0x3A || o == 0x3B || vecReserved o
where
  /-- opcodes of the vector class that no instruction has (05 R114). -/
  vecReserved (o : Nat) : Bool := decide (0x26 ≤ o) && decide (o ≤ 0x2F)

/-- The second scalar operand (04 R88). -/
def Seq.opB (s : Seq) (w : Word) : Word := if wImm w then BitVec.ofInt 64 (sext 32 (wImm32 w)) else s.getG (wGb w)

/-! ## Issue -/

/-- What an instruction's body needs beyond its tile: the tile's number and the die's time. -/
structure Ctx where
  t : Nat
  time : Word
  deriving DecidableEq, Repr

/-- How an instruction ends at issue: it completes and execution falls through; it completes and takes a branch; it completes and goes
on at an index with the active loops as they are; it issues and leaves the tile as given; it faults with no effect; it holds the
sequencer in WAIT (R107); it waits at issue for data or a path, the tile as it was (R104, R106). -/
inductive Issue where
  | done (t : Tile)
  | jump (t : Tile) (pc : Nat)
  | go (t : Tile) (pc : Nat)
  | keep (t : Tile)
  | fault (c : Cause) (trap : BitVec 16)
  | hold (t : Tile)
  | stall
  deriving DecidableEq, Repr

/-- The first cause of the list that holds; causes of one instruction are tried in the order of their codes (log entry 11). -/
def firstFault : List (Bool × Cause) → Option Cause
  | [] => none
  | (b, c) :: r => if b then some c else firstFault r

/-- A body that runs only where no cause of the list holds. -/
def checked (l : List (Bool × Cause)) (body : Unit → Issue) : Issue :=
  match firstFault l with
  | some c => .fault c 0
  | none => body ()

/-- The status a fault cause reports for its item (04 R108); DATA_POISON carries its answer's own. -/
def Cause.status (c : Cause) : Status :=
  match c with
  | .sramUncorrectable => .memoryUncorrectable
  | .dataPoison => .poison
  | _ => .tileFault

/-- Codes of the causes (04 R108). -/
def Cause.code : Cause → Nat
  | .none => 0 | .reservedOpcode => 1 | .reservedField => 2 | .operandRange => 3 | .operandPair => 4 | .stationaryEmpty => 5
  | .loopNest => 6 | .pcRange => 7 | .address => 8 | .dataPoison => 9 | .trap => 10 | .streamState => 11 | .sramUncorrectable => 12

/-- FAULT as a word (04 R78). -/
def FaultReg.word (f : FaultReg) : Word :=
  pack [(f.cause.code, 56), (f.status.toNat, 48), (f.trapCode.toNat, 32), (f.pc.toNat, 0)]

/-- A tile fault (04 R109): FAULT recorded, STATE FAULTED, nothing later issues, and the item's failing end waits to be reported. -/
def Tile.faultAt (t : Tile) (pc : BitVec 14) (c : Cause) (st : Status) (trap : BitVec 16) : Tile :=
  let f : FaultReg := ⟨c, BitVec.ofNat 8 st.code, trap, pc⟩
  { t with
    seq := { t.seq with st := .faulted, fault := f, wait := none }
    ended := match t.running with
      | none => t.ended
      | some _ => some ⟨st, f.word, true⟩ }

/-- A fault of the instruction at the PC. -/
def Tile.fault (t : Tile) (c : Cause) (trap : BitVec 16) : Tile := t.faultAt t.seq.pc c c.status trap

/-- The end of an iteration at index e (04 R93, R94): each active loop whose body ends there, from the innermost outward. Loops inside it that end
elsewhere stay active (log entry 63). The answer is the index execution continues at. -/
def Seq.iterEnd (s : Seq) (e : Nat) (inner : List LoopCtx) : List LoopCtx → Seq × Nat
  | [] => ({ s with loops := inner }, e + 1)
  | l :: r =>
    if l.last = e then
      let s := { s with rrbG := s.rrbG - l.gstep, rrbV := s.rrbV - l.vstep }
      let c := Sparse.get 0 s.lc l.depth
      if c = 0 then Seq.iterEnd s e inner r
      else ({ s with lc := Sparse.put 0 s.lc l.depth (c - 1), loops := inner ++ l :: r }, l.first.toNat)
    else Seq.iterEnd s e (inner ++ [l]) r

/-- The loops that stay active when a taken branch reaches pc (04 R94): the outermost ones whose bodies all hold it. -/
def loopsHolding (pc : Nat) (l : List LoopCtx) : List LoopCtx :=
  (l.reverse.takeWhile (fun c => decide (c.first.toNat ≤ pc) && decide (pc ≤ c.last))).reverse

/-- Execution goes on after the instruction at the PC; falling through from 16,383 is PC_RANGE (04 R90, R93). -/
def Tile.fallThrough (t : Tile) : Tile :=
  let e := t.seq.pc.toNat
  let r := t.seq.iterEnd e [] t.seq.loops
  if r.2 < 16384 then { t with seq := { r.1 with st := .run, pc := BitVec.ofNat 14 r.2, wait := none } }
  else { t with seq := r.1 }.faultAt t.seq.pc .pcRange .tileFault 0

/-- A taken branch (04 R90, R94); a target outside 0-16,383 is PC_RANGE at the branch, which then has no effect. -/
def Tile.branchTo (t : Tile) (pc : Nat) : Tile :=
  if pc < 16384 then
    { t with seq := { t.seq with st := .run, pc := BitVec.ofNat 14 pc, loops := loopsHolding pc t.seq.loops, wait := none } }
  else t.fault .pcRange 0

/-- The tile after an instruction of its own at the PC. -/
def Issue.apply (i : Issue) (t : Tile) : Tile :=
  match i with
  | .done t' => t'.fallThrough
  | .jump t' pc => t'.branchTo pc
  | .go t' pc => { t' with seq := { t'.seq with st := .run, pc := BitVec.ofNat 14 pc, wait := none } }
  | .keep t' => t'
  | .fault c trap => t.fault c trap
  | .hold t' => { t' with seq := { t'.seq with st := .wait } }
  | .stall => t

/-- The sequencer may issue: an item runs and has not ended, and nothing but its own state holds it, no push at a full queue either (04 R104, R107). -/
def Tile.canIssue (t : Tile) : Bool :=
  t.running.isSome && t.ended.isNone && t.seq.wait.isNone && !t.seq.ops.any HandleOp.full && (t.seq.st == .run || t.seq.st == .wait)

/-- The scalar registers an instruction names, as sources or destination, by the layouts of its class (04 R87-R103, 05 R114-R126, R131). -/
def wRegs (w : Word) : List Nat :=
  match wOpc w with
  | 0x07 => [wGd w]
  | 0x08 => match wSub w with
    | 0 => [wGd w, wGa w]
    | 2 => [wGa w]
    | _ => [wGd w]
  | 0x0A => if bitAt w 53 then [fld w 47 6] else []
  | 0x0B => [wGd w]
  | 0x0C => if bitAt w 53 then [] else [fld w 47 6]
  | 0x0D => []
  | 0x0E => if bitAt w 47 then [] else [fld w 41 6]
  | 0x0F => if bitAt w 47 then [wGd w] else [wGd w, fld w 41 6]
  | 0x10 => [fld w 38 6]
  | 0x11 => [fld w 33 6, fld w 27 6]
  | 0x13 => [fld w 22 6]
  | 0x18 => [fld w 43 6]
  | 0x19 => [fld w 43 6]
  | 0x20 => [fld w 33 6]
  | 0x21 => [fld w 33 6]
  | 0x23 => [fld w 27 6]
  | 0x24 => if bitAt w 29 then [fld w 23 6] else []
  | 0x30 => [fld w 47 6]
  | 0x31 => if bitAt w 38 then [] else [fld w 39 6]
  | 0x32 => [wGd w]
  | 0x33 => [wGd w]
  | 0x34 => if bitAt w 47 then [wGd w] else [wGd w, fld w 41 6]
  | 0x35 => if bitAt w 47 then [wGd w] else [wGd w, fld w 41 6]
  | 0x36 => if bitAt w 47 then [wGd w] else [wGd w, fld w 41 6]
  | 0x38 => [wGd w]
  | 0x3C => [fld w 43 6]
  | o =>
    if o ≤ 0x06 ∨ o = 0x09 then (if wImm w then [wGd w, wGa w] else [wGd w, wGa w, wGb w])
    else if 0x1A ≤ o ∧ o ≤ 0x1F then (if bitAt w 29 then [fld w 23 6] else [])
    else []

/-- No register the instruction names still waits for an answer of an HPOP or HPEEK (04 R106). -/
def Seq.regsReady (s : Seq) (w : Word) : Bool :=
  s.ops.isEmpty || !(wRegs w).any fun n => n != 0 && s.ops.any fun o => o.dest == some (s.gPhys n)

/-- The instruction word at the PC. -/
def Tile.fetch (t : Tile) : Word := Sparse.get 0 t.imem t.seq.pc.toNat

/-- The word at the PC holds a double-bit error (04 R76): instruction i lies at window offset 0x1E_0000 + 8i. -/
def Tile.fetchBad (t : Tile) : Bool := has t.badWords ((0x1E0000 + 8 * t.seq.pc.toNat) / 8)

/-- The instruction at the PC may issue now as an instruction of opcode op. -/
def Tile.at (t : Tile) (op : Nat) : Bool := t.canIssue && !t.fetchBad && wOpc t.fetch == op && t.seq.regsReady t.fetch

/-- The tile when its sequencer issues as an instruction of opcode op: the word at the PC decides (log entry 10).
A word with another opcode is not this event; a reserved opcode or a double-bit error is its fault. A register still to be written holds it (04 R106). -/
def Tile.issue (op : Nat) (body : Word → Tile → Issue) (t : Tile) : Tile :=
  if t.canIssue then
    if t.fetchBad then t.fault .sramUncorrectable 0
    else if reservedOpc (wOpc t.fetch) then t.fault .reservedOpcode 0
    else if wOpc t.fetch = op ∧ t.seq.regsReady t.fetch = true then (body t.fetch t).apply t
    else t
  else t

/-- A format code that fiddlehead service does not take (14 R373). -/
def fmtLimited (f : Nat) : Bool := decide (4 ≤ f) && decide (f ≤ 0xB)

/-- The word names such a format in FA, FB, FMT, FROM or TO of a matrix, vector or selector instruction (14 R373). -/
def wordLimited (w : Word) : Bool :=
  match wOpc w with
  | 0x10 => fmtLimited (fld w 48 4) || fmtLimited (fld w 44 4)
  | 0x11 => fmtLimited (fld w 48 4) || fmtLimited (fld w 44 4)
  | 0x13 => fmtLimited (fld w 28 4)
  | 0x18 => fmtLimited (fld w 39 4)
  | 0x19 => fmtLimited (fld w 39 4)
  | 0x20 => fmtLimited (fld w 29 4)
  | 0x21 => fmtLimited (fld w 29 4)
  | 0x22 => fmtLimited (fld w 29 4)
  | 0x23 => fmtLimited (fld w 40 4) || fmtLimited (fld w 36 4)
  | 0x25 => fmtLimited (fld w 29 4)
  | 0x30 => fmtLimited (fld w 28 4)
  | o => ((decide (0x1A ≤ o) && decide (o ≤ 0x1F)) || o == 0x24) && fmtLimited (fld w 30 4)

/-- In fiddlehead service a limited format is the fault OPERAND_PAIR, after the causes of lower code (14 R373; log entry 11). -/
def Issue.limit (i : Issue) : Issue :=
  match i with
  | .fault c x => if c.code < 4 then .fault c x else .fault .operandPair 0
  | _ => .fault .operandPair 0

/-- A body under the limits of the device's state. -/
def limited (st : DevState) (body : Word → Tile → Issue) (w : Word) (t : Tile) : Issue :=
  if st = .fiddlehead && wordLimited w then (body w t).limit else body w t

/-- The device when tile t issues an instruction of opcode op. -/
def Device.issue (op : Nat) (body : Ctx → Word → Tile → Issue) (t : Nat) (d : Device) : Device :=
  d.modTile t (Tile.issue op (limited d.rst.st (body ⟨t, d.time (t / 384)⟩)))

/-- A tile instruction as a command. -/
def runTile (op : Nat) (body : Ctx → Word → Tile → Issue) (t : Nat) (s : State) : Host.Outcome State Fault Refusal :=
  runUnit (decide (t < nTiles)) (Device.issue op body t) s

/-- PS and SAT are not permitted (04 R80). -/
def psSat (w : Word) : Bool := wSat w || wPs w != 0

end Sys2Proof.Machine
end

