-- ==== Sys2Proof/Machine/Control.lean ====
section
/-! DEFINITION. The control instructions: branches, HALT, LOOP (04 R90-R94) and the system instructions FENCE and TRAP (04 R103). -/

namespace Sys2Proof.Machine

/-- BR (04 R90). -/
def brBody (_ : Ctx) (w : Word) (t : Tile) : Issue :=
  let ind := bitAt w 53
  checked [(psSat w || fld w 24 23 != 0 || (if ind then fld w 0 24 != 0 else fld w 47 6 != 0), .reservedField)] fun _ =>
    if ind then .jump t (t.seq.getG (fld w 47 6)).toNat
    else
      let a : Int := (t.seq.pc.toNat : Int) + sext 24 (fld w 0 24)
      if a < 0 then .fault .pcRange 0 else .jump t a.toNat

def execBr (t : Nat) (s : State) : Host.Outcome State Fault Refusal := runTile 0x0A brBody t s

/-- COND of BRC: EQZ, NEZ, LTZ, GEZ, GTZ, LEZ (04 R90). -/
def condHolds (c : Nat) (x : Int) : Bool :=
  match c with
  | 0 => decide (x = 0)
  | 1 => decide (x ≠ 0)
  | 2 => decide (x < 0)
  | 3 => decide (0 ≤ x)
  | 4 => decide (0 < x)
  | _ => decide (x ≤ 0)

/-- BRC (04 R90): not taken, it raises no fault whatever its target. -/
def brcBody (_ : Ctx) (w : Word) (t : Tile) : Issue :=
  checked [(psSat w || fld w 24 21 != 0 || decide (5 < fld w 45 3), .reservedField)] fun _ =>
    if condHolds (fld w 45 3) (t.seq.getG (wGd w)).toInt then
      let a : Int := (t.seq.pc.toNat : Int) + sext 24 (fld w 0 24)
      if a < 0 then .fault .pcRange 0 else .jump t a.toNat
    else .done t

def execBrc (t : Nat) (s : State) : Host.Outcome State Fault Refusal := runTile 0x0B brcBody t s

/-- LOOP (04 R92-R94). A trip count of 0 continues after the body, with the active loops as they are; where that lies beyond 16,383 the LOOP itself is
the fault PC_RANGE (DESIGN CHOICE, log entry 106). -/
def loopBody (_ : Ctx) (w : Word) (t : Tile) : Issue :=
  let timm := bitAt w 53
  let body := fld w 18 13
  let i := t.seq.pc.toNat
  let gt := (t.seq.getG (fld w 47 6)).toNat
  let n := if timm then fld w 31 16 else gt
  checked
    [(psSat w || fld w 0 9 != 0 || (if timm then fld w 47 6 != 0 else fld w 31 16 != 0), .reservedField),
     (body == 0 || decide (4096 < body) || (!timm && decide (2 ^ 32 ≤ gt)), .operandRange),
     (t.seq.depth == 4 || (match t.seq.loops with | [] => false | l :: _ => decide (l.last < i + body)), .loopNest),
     (n == 0 && decide (16384 ≤ i + body + 1), .pcRange)] fun _ =>
    if n = 0 then .go t (i + body + 1)
    else
      let l : LoopCtx := ⟨BitVec.ofNat 14 (i + 1), i + body, BitVec.ofNat 5 (fld w 13 5), BitVec.ofNat 4 (fld w 9 4), t.seq.depth⟩
      .done { t with seq := { t.seq with loops := l :: t.seq.loops, lc := Sparse.put 0 t.seq.lc t.seq.depth (BitVec.ofNat 32 (n - 1)) } }

def execLoop (t : Nat) (s : State) : Host.Outcome State Fault Refusal := runTile 0x0C loopBody t s

/-- Everything issued before has completed: array blocks, a BALLAST's cycles, the B port's load, handle messages, the stream engine's blocks (04 R91, R103). -/
def Tile.settled (t : Tile) : Bool :=
  t.arr.blocks.isEmpty && t.arr.ballast == 0 && t.arr.loading.isNone && t.seq.ops.isEmpty && t.strm.blocks.isEmpty

/-- HALT (04 R91): waits until every earlier instruction has completed; the item then ends normally and the tile is idle. -/
def haltBody (_ : Ctx) (w : Word) (t : Tile) : Issue :=
  checked [(psSat w || fld w 16 38 != 0, .reservedField)] fun _ =>
    if t.settled then
      .keep { t with seq := { t.seq with st := .idle }, ended := some ⟨.success, BitVec.ofNat 64 (fld w 0 16), false⟩ }
    else .hold t

def execHalt (t : Nat) (s : State) : Host.Outcome State Fault Refusal := runTile 0x0D haltBody t s

/-- FENCE (04 R103): every accumulator write has landed (stores and selector writes land at issue), and with SCOPE 1 every push is acknowledged. -/
def fenceBody (_ : Ctx) (w : Word) (t : Tile) : Issue :=
  checked [(psSat w || fld w 2 52 != 0 || decide (1 < fld w 0 2), .reservedField)] fun _ =>
    if t.arr.blocks.isEmpty && (fld w 0 2 == 0 || !t.seq.ops.any fun o => o.op == .push) then .done t else .hold t

def execFence (t : Nat) (s : State) : Host.Outcome State Fault Refusal := runTile 0x3E fenceBody t s

/-- TRAP (04 R103): the fault TRAP with its code. -/
def trapBody (_ : Ctx) (w : Word) (_ : Tile) : Issue :=
  checked [(psSat w || fld w 16 38 != 0, .reservedField)] fun _ => .fault .trap (BitVec.ofNat 16 (fld w 0 16))

def execTrap (t : Nat) (s : State) : Host.Outcome State Fault Refusal := runTile 0x3F trapBody t s

end Sys2Proof.Machine
end

