-- ==== Sys2Proof/Machine/Matrix.lean ====
section
/-! DEFINITION. The matrix arrays (03 R51-R75) and their instructions MLD, MMA, MZERO, BALLAST (04 R96-R98, R103), with the events at
which sets complete and swap, blocks write, and arrays ramp. A bytes are fetched at issue (log entry 13). -/

namespace Sys2Proof.Machine

/-! ## Operand pairs and modes -/

/-- The class of an operand pair (02 R34): 4-bit, 8-bit, block-scaled, 16-bit. -/
inductive PairClass where
  | four | eight | mx | sixteen
  deriving DecidableEq, Repr

/-- The class of a pair of format codes; none where the pair is not one of R34's. -/
def pairClass (fa fb : Nat) : Option PairClass :=
  if (fa == 0 || fa == 1) && fb == 0 then some .four
  else if fa == 1 && fb == 1 then some .eight
  else if (fa == 4 || fa == 5) && (fb == 4 || fb == 5) then some .eight
  else if (fa == 9 || fa == 10) && (fb == 9 || fb == 10) then some .mx
  else if fa == 6 && fb == 6 then some .sixteen
  else if fa == 7 && fb == 7 then some .sixteen
  else none

/-- K positions of one array and issue (03 R51). -/
def PairClass.kA : PairClass → Nat
  | .four => 8 | .eight => 4 | .mx => 4 | .sixteen => 1

/-- Arrays of a group by MODE: G8, G4, G2, G1 (03 R52). -/
def groupOf (mode : Nat) : Nat := 8 / 2 ^ mode

/-- Columns of a mode (02 R35). -/
def colsOf (mode : Nat) : Nat := 4 * 2 ^ mode

/-- K positions of one issue (02 R35). -/
def kcOf (mode : Nat) (c : PairClass) : Nat := groupOf mode * c.kA

/-- Element bytes of a B image (03 R62). -/
def imageElems (c : PairClass) (fb : Nat) : Nat := 32 * c.kA * fmtBits fb / 8

/-- Bytes of a B image: elements, then one scale byte per column for block-scaled pairs (03 R62). -/
def imageBytes (mode : Nat) (c : PairClass) (fb : Nat) : Nat := imageElems c fb + (if c = .mx then colsOf mode else 0)

/-- Element i of packed elements of format f (02 R29): its code. -/
def elemCode (f : Nat) (l : List Byte) (i : Nat) : Nat :=
  match fmtBits f with
  | 4 => (l.getD (i / 2) 0).toNat / (if i % 2 = 0 then 1 else 16) % 16
  | 8 => (l.getD i 0).toNat
  | _ => leAt l (2 * i) 2

/-- The code of B at K position k of output column j (03 R52, 04 R96). -/
def bCode (mode : Nat) (c : PairClass) (fb : Nat) (image : List Byte) (k j : Nat) : Nat :=
  elemCode fb image (((groupOf mode * (j / 4) + k / c.kA) * 4 + j % 4) * c.kA + k % c.kA)

/-- The integer a code decodes to: an integer format, MXINT8 or MXFP4 (02 R28, R33). -/
def intCode (f code : Nat) : Int := if f == 10 then e2m1 code else sext (fmtBits f) code

/-- Grid exponent of a block-scaled format (02 R33). -/
def gridExp (f : Nat) : Int := if f == 10 then -1 else -6

/-- Bytes of the operand SRAM (01 R21). -/
def sramBytes : Nat := 0x100000

/-- Window offset of an accumulator element (03 R53, 01 R21). -/
def accAt (row col : Nat) : Nat := 0x100000 + 256 * row + 4 * col

/-- An accumulator element. -/
def Tile.acc (t : Tile) (row col : Nat) : BitVec 32 := BitVec.ofNat 32 (t.mem.num (accAt row col) 4)

/-- Every byte of the 8-byte word u lies among bytes written from offset a on (04 R108). -/
def wholeIn (a : Nat) (l : List Bool) (u : Nat) : Bool := (List.range 8).all fun i => decide (a ≤ 8 * u + i) && l.getD (8 * u + i - a) false

/-- Bytes stored in the tile's SRAM; a word that is written whole loses its error (04 R108). -/
def Tile.store (t : Tile) (a : Nat) (l : List Byte) : Tile :=
  { t with mem := t.mem.write a l
           badWords := t.badWords.filter (fun u => !(decide (a ≤ 8 * u) && decide (8 * u + 8 ≤ a + l.length))) }

/-- An accumulator element written. -/
def Tile.setAcc (t : Tile) (row col : Nat) (x : BitVec 32) : Tile := t.store (accAt row col) (leBytes 4 x.toNat)

/-- A read of n bytes from window offset a meets a double-bit error (04 R108). -/
def Tile.badRead (t : Tile) (a n : Nat) : Bool := t.badWords.any (fun u => decide (8 * u < a + n) && decide (a < 8 * u + 8))

/-! ## Sets -/

/-- The sets as the next matrix instruction will find them, after every swap that has issued (03 R63, R66): active, shadow. -/
def Arrays.prospect (a : Arrays) : Option StatSet × Option StatSet :=
  (a.blocks.filter Block.newwHead).foldl (fun p _ => (p.2, p.1)) (a.active, a.loading.or a.shadow)

/-- A swap has issued and is still to come (03 R64). -/
def Arrays.swapPending (a : Arrays) : Bool := a.blocks.any Block.newwHead

/-- The flagged block is held: its set is still being loaded, and no further matrix instruction issues (03 R63). -/
def Arrays.flagHeld (a : Arrays) : Bool := a.swapPending && a.loading.isSome

/-- MLD (04 R96, 03 R62-R64): waits for the B port and for a pending swap, then overwrites the shadow set. -/
def mldBody (_ : Ctx) (w : Word) (t : Tile) : Issue :=
  let mode := fld w 52 2
  let fa := fld w 48 4
  let fb := fld w 44 4
  let off := fld (t.seq.getG (fld w 38 6)) 0 20
  let cls := pairClass fa fb
  let n := match cls with | some c => imageBytes mode c fb | none => 0
  checked
    [(psSat w || fld w 0 38 != 0, .reservedField),
     (off % 32 != 0 || decide (sramBytes < off + n), .operandRange),
     (cls.isNone, .operandPair),
     (t.badRead off n, .sramUncorrectable)] fun _ =>
    if t.arr.loading.isSome || t.arr.swapPending then .stall
    else .done { t with arr := { t.arr with
      shadow := none
      loading := some ⟨BitVec.ofNat 2 mode, BitVec.ofNat 4 fa, BitVec.ofNat 4 fb, t.mem.read off n⟩ } }

def execMld (t : Nat) (s : State) : Host.Outcome State Fault Refusal := runTile 0x10 mldBody t s

/-- The last beat completes the shadow set (03 R62). -/
def Arrays.setComplete (a : Arrays) : Arrays :=
  match a.loading with
  | none => a
  | some x => { a with shadow := some x, loading := none }

def execMldSetComplete (t : Nat) (s : State) : Host.Outcome State Fault Refusal :=
  runUnit (decide (t < nTiles)) (fun d => d.modTile t fun x => { x with arr := x.arr.setComplete }) s

/-- Blocks bound to the set: from the flagged block on, up to the next flagged one (03 R63). -/
def bindSet (set : Option StatSet) : List Block → List Block
  | [] => []
  | b :: r => if b.newwHead then b :: r else { b with set := set } :: bindSet set r

/-- The first flagged block takes the swap (03 R63). -/
def swapBlocks (set : Option StatSet) : List Block → List Block
  | [] => []
  | b :: r => if b.newwHead then { b with newwHead := false, set := set } :: bindSet set r else b :: swapBlocks set r

/-- The swap (03 R63, R65): it waits until the shadow set is complete; the former active set becomes the shadow. -/
def Arrays.swap (a : Arrays) : Arrays :=
  if a.swapPending && a.loading.isNone then
    { a with active := a.shadow, shadow := a.active, blocks := swapBlocks a.shadow a.blocks }
  else a

def execNewwSwap (t : Nat) (s : State) : Host.Outcome State Fault Refusal :=
  runUnit (decide (t < nTiles)) (fun d => d.modTile t fun x => { x with arr := x.arr.swap }) s

/-! ## MMA and MZERO -/

/-- A block of an MMA whose M, KV and NV are all above 0 (03 R69). -/
def Block.product (b : Block) : Bool := !b.mzero && decide (0 < b.rows) && decide (0 < b.kv) && decide (0 < b.nv)

/-- The block spans several issues, with a held partial (03 R56). -/
def Block.split (b : Block) : Bool := decide (pairClass b.fa.toNat b.fb.toNat = some .mx) && b.mode != 0

/-- A row has a write of the block still in flight (03 R56, R60). -/
def Block.writes (b : Block) (r : Nat) : Bool :=
  (decide (b.row ≤ r) && decide (r < b.row + b.rows)) ||
  (b.split && b.product && decide (b.row + 512 ≤ r) && decide (r < b.row + 512 + b.rows))

/-- A row with a write in flight (03 R60). -/
def Arrays.rowBusy (a : Arrays) (r : Nat) : Bool := a.blocks.any (fun b => b.writes r)

/-- A row is a bias row that a block in flight has still to read (03 R55); a block that only adds to a held partial reads none (03 R56). -/
def Block.reads (b : Block) (r : Nat) : Bool := b.bias && b.biasRow == r && (b.kv == 0 || !b.split || b.blast)

/-- A row that a block in flight has still to write, or to read as its bias row: a store to it waits (03 R55, R60). -/
def Arrays.rowHeld (a : Arrays) (r : Nat) : Bool := a.blocks.any (fun b => b.writes r || b.reads r)

/-- A product block issues (03 R69, R70, R72): the first one while arrays are off triggers the ramp-up; at full rate the tile runs. -/
def Arrays.productIssued (a : Arrays) : Arrays := { a with phase := if a.enabled = 8 then .run else .rampUp }

/-- MMA (03 R54-R57, R63, R66, R68; 04 R97). It waits while a BALLAST or an unfinished matrix instruction holds the path (04 R104). -/
def mmaBody (_ : Ctx) (w : Word) (t : Tile) : Issue :=
  let mode := fld w 52 2
  let fa := fld w 48 4
  let fb := fld w 44 4
  let neww := bitAt w 43
  let zero := bitAt w 42
  let bias := bitAt w 41
  let ga := t.seq.getG (fld w 33 6)
  let gd := t.seq.getG (fld w 27 6)
  let m := fld w 18 9
  let kv := fld w 11 7
  let nv := fld w 5 6
  let r := fld gd 0 10
  let c := fld gd 10 6
  let b := fld gd 16 10
  let aoff := fld ga 0 20
  let stride := fld ga 20 16
  let soff := fld ga 36 20
  let cls := pairClass fa fb
  let mx := decide (cls = some .mx)
  let n := colsOf mode
  let work := decide (0 < m) && decide (0 < nv) && decide (0 < kv)
  let fill := decide (0 < m) && decide (0 < nv) && kv == 0 && (zero || bias)
  let part := mx && mode != 0
  let full := !part || bitAt w 39
  let abytes := (kv * fmtBits fa + 7) / 8
  let use := if neww then t.arr.prospect.2 else t.arr.prospect.1
  checked
    [(wPs w != 0 || fld w 0 5 != 0 || (!mx && cls.isSome && (bitAt w 40 || bitAt w 39)), .reservedField),
     ((zero && bias) || decide (256 < m) || (match cls with | some x => decide (kcOf mode x < kv) | none => false) || decide (n < nv) ||
       c % n != 0 || decide (64 < c + n) || decide (1024 < r + m) || (mx && mode != 0 && decide (512 < r + m)) ||
       aoff % 8 != 0 || stride % 8 != 0 ||
       (work && decide (sramBytes < aoff + (m - 1) * stride + abytes)) || (work && mx && decide (sramBytes < soff + m)), .operandRange),
     (cls.isNone || (match use with
       | some x => x.mode.toNat != mode || x.fa.toNat != fa || x.fb.toNat != fb
       | none => false), .operandPair),
     (use.isNone, .stationaryEmpty),
     ((work && ((List.range m).any fun i => t.badRead (aoff + i * stride) abytes)) || (work && mx && t.badRead soff m) ||
       (work && full && !zero && !bias && (List.range m).any fun i => t.badRead (accAt (r + i) c) (4 * n)) ||
       (work && part && !bitAt w 40 && (List.range m).any fun i => t.badRead (accAt (r + i + 512) c) (4 * n)) ||
       (((work && full) || fill) && bias && t.badRead (accAt b c) (4 * n)), .sramUncorrectable)] fun _ =>
    if t.arr.ballast != 0 || t.arr.flagHeld then .stall
    else
      let mk (row rows : Nat) (head : Bool) (i : Nat) : Block :=
        { mode := BitVec.ofNat 2 mode, fa := BitVec.ofNat 4 fa, fb := BitVec.ofNat 4 fb, sat := wSat w, zero, bias,
          bfirst := bitAt w 40, blast := bitAt w 39, row, rows, col := c, biasRow := b, kv, nv,
          a := if work then (upFrom i rows).map (fun k => t.mem.read (aoff + k * stride) abytes) else []
          scales := if work && mx then t.mem.read (soff + i) rows else []
          newwHead := head
          set := if head || t.arr.swapPending || neww then none else t.arr.active
          mzero := false }
      let bl :=
        if work || fill then
          (List.range ((m + 3) / 4)).map fun i => mk (r + 4 * i) (min 4 (m - 4 * i)) (neww && i == 0) (4 * i)
        else if neww then [mk r 0 true 0]
        else []
      let arr := { t.arr with blocks := t.arr.blocks ++ bl, passTag := if neww then !t.arr.passTag else t.arr.passTag }
      .done { t with arr := if work then arr.productIssued else arr }

def execMma (t : Nat) (s : State) : Host.Outcome State Fault Refusal := runTile 0x11 mmaBody t s

/-- A block of MZERO (04 R98). -/
def mzeroBlock (row rows : Nat) : Block :=
  { mode := 0, fa := 0, fb := 0, sat := false, zero := true, bias := false, bfirst := false, blast := false, row, rows, col := 0,
    biasRow := 0, kv := 0, nv := 64, a := [], scales := [], newwHead := false, set := none, mzero := true }

/-- MZERO (04 R98). -/
def mzeroBody (_ : Ctx) (w : Word) (t : Tile) : Issue :=
  let row := fld w 44 10
  let n := fld w 33 11
  checked
    [(psSat w || fld w 0 33 != 0, .reservedField),
     (n == 0 || decide (1024 < n) || decide (1024 < row + n), .operandRange)] fun _ =>
    if t.arr.ballast != 0 || t.arr.flagHeld then .stall
    else .done { t with arr := { t.arr with
      blocks := t.arr.blocks ++ (List.range ((n + 3) / 4)).map fun i => mzeroBlock (row + 4 * i) (min 4 (n - 4 * i)) } }

def execMzero (t : Nat) (s : State) : Host.Outcome State Fault Refusal := runTile 0x12 mzeroBody t s

/-! ## What a block writes -/

/-- Adjacent values added, one rounding each (02 R36). -/
def pairUp : List FVal → List FVal × Flags
  | a :: b :: r =>
    let s := fadd a b
    let q := pairUp r
    (s.1 :: q.1, s.2.or q.2)
  | l => (l, Flags.clear)

/-- The pairwise tree, in K order (02 R36); n levels. -/
def treeSum : Nat → List FVal → FVal × Flags
  | 0, l => (l.headD FVal.zero, Flags.clear)
  | n + 1, l =>
    let p := pairUp l
    let q := treeSum n p.1
    (q.1, p.2.or q.2)

/-- The start value of element (row, col), column of the block j (03 R55), from the memory as earlier blocks left it. -/
def Block.start (b : Block) (t : Tile) (row j : Nat) : BitVec 32 :=
  if b.zero then 0 else if b.bias then t.acc b.biasRow (b.col + j) else t.acc row (b.col + j)

/-- An element of an integer pair (02 R36, R39). -/
def intElem (b : Block) (cls : PairClass) (image a : List Byte) (start : BitVec 32) (j : Nat) : BitVec 32 × Flags :=
  let fa := b.fa.toNat
  let fb := b.fb.toNat
  let s := (List.range b.kv).foldl (fun (x : Int) k =>
    x + intCode fa (elemCode fa a k) * intCode fb (bCode b.mode.toNat cls fb image k j)) 0
  let r := narrowInt 32 b.sat (start.toInt + s)
  (BitVec.ofNat 32 r.1, r.2)

/-- An element of an FP8, FP16 or BF16 pair (02 R36, R37). -/
def floatElem (b : Block) (cls : PairClass) (image a : List Byte) (start : BitVec 32) (j : Nat) : BitVec 32 × Flags :=
  let fa := b.fa.toNat
  let fb := b.fb.toNat
  let ps := (List.range (kcOf b.mode.toNat cls)).map fun k =>
    if k < b.kv then fmul ((floatFmt fa).decode (elemCode fa a k)) ((floatFmt fb).decode (bCode b.mode.toNat cls fb image k j))
    else (FVal.zero, Flags.clear)
  let s := treeSum 6 (ps.map Prod.fst)
  let r := fadd (val32 start) s.1
  (r.1.code32, ((Flags.all (ps.map Prod.snd)).or s.2).or r.2)

/-- The integer sum of a block-scaled issue (02 R38). -/
def mxSum (b : Block) (image a : List Byte) (j : Nat) : Int :=
  let fa := b.fa.toNat
  let fb := b.fb.toNat
  (List.range b.kv).foldl (fun (x : Int) k =>
    x + intCode fa (elemCode fa a k) * intCode fb (bCode b.mode.toNat .mx fb image k j)) 0

/-- A completed block scaled and added to its start value (02 R38). -/
def mxApply (b : Block) (image : List Byte) (sa : Byte) (s : Int) (start : BitVec 32) (j : Nat) : BitVec 32 × Flags :=
  let sb := image.getD (imageElems .mx b.fb.toNat + j) 0
  let f : FVal × Flags :=
    if sa = 0xFF || sb = 0xFF then (.nan, ⟨false, true⟩)
    else
      let x := FVal.ofInt s
      let r := (match x with
        | .fin n m _ => FVal.fin n m ((sa.toNat : Int) - 127 + ((sb.toNat : Int) - 127) + gridExp b.fa.toNat + gridExp b.fb.toNat)
        | y => y).rnd32
      (r, arithFlags [x] r)
  let r := fadd (val32 start) f.1
  (r.1.code32, f.2.or r.2)

/-- Row i of a product block, column j: what is written, as (row, column, value), and the flags (02 R36-R39, 03 R54-R56). -/
def Block.elem (b : Block) (t : Tile) (set : StatSet) (i j : Nat) : List (Nat × Nat × BitVec 32) × Flags :=
  let row := b.row + i
  let a := b.a.getD i []
  match pairClass b.fa.toNat b.fb.toNat with
  | none => ([], Flags.clear)
  | some .mx =>
    let sa := b.scales.getD i 0
    let seen := Flags.ofNan (sa == 0xFF)
    let s := mxSum b set.image a j
    if b.split then
      let p := (if b.bfirst then 0 else (t.acc (row + 512) (b.col + j)).toInt) + s
      if b.blast then
        let r := mxApply b set.image sa p (b.start t row j) j
        ([(row, b.col + j, r.1), (row + 512, b.col + j, 0)], seen.or r.2)
      else ([(row + 512, b.col + j, BitVec.ofInt 32 p)], seen)
    else
      let r := mxApply b set.image sa s (b.start t row j) j
      ([(row, b.col + j, r.1)], seen.or r.2)
  | some c =>
    let r := if c = .sixteen || b.fa.toNat ≥ 4 then floatElem b c set.image a (b.start t row j) j
      else intElem b c set.image a (b.start t row j) j
    ([(row, b.col + j, r.1)], r.2)

/-- Everything a block writes, and its flags: formed from the memory as it stood before the block. -/
def Block.output (b : Block) (t : Tile) : List (Nat × Nat × BitVec 32) × Flags :=
  let cells := (List.range b.rows).flatMap fun i => (List.range b.nv).map fun j => (i, j)
  if b.mzero then (cells.map fun e => (b.row + e.1, e.2, 0), Flags.clear)
  else if b.kv = 0 then (cells.map fun e => (b.row + e.1, b.col + e.2, b.start t (b.row + e.1) e.2), Flags.clear)
  else
    match b.set with
    | none => ([], Flags.clear)
    | some set =>
      let r := cells.map fun e => b.elem t set e.1 e.2
      (r.flatMap Prod.fst, Flags.all (r.map Prod.snd))

/-- The gap starts when the last product block has passed (03 R69, R70): ballast runs for W cycles; with W = 0 the ramp-down begins. -/
def Arrays.gapStart (w : Nat) (a : Arrays) : Arrays :=
  if a.phase = .run && !a.blocks.any Block.product then { a with phase := if w = 0 && a.ballast = 0 then .rampDown else .ballast } else a

/-- The oldest block may write: its set is bound, and a product block has an enabled array (03 R63, R71, R72). -/
def Block.ready (b : Block) (a : Arrays) : Bool := !b.newwHead && (!b.product || (b.set.isSome && decide (0 < a.enabled)))

/-- The oldest block writes (03 R59, R60; 02 R36-R39). -/
def Tile.blockWrite (w : Nat) (t : Tile) : Tile :=
  match t.arr.blocks with
  | [] => t
  | b :: r =>
    if b.ready t.arr then
      let o := b.output t
      let t' := o.1.foldl (fun x e => x.setAcc e.1 e.2.1 e.2.2) t
      let whole := fun (u : Nat) => [8 * u, 8 * u + 4].all fun a => o.1.any fun e => accAt e.1 e.2.1 == a
      { t' with
        badWords := t'.badWords.filter fun u => !whole u
        seq := t.seq.flag o.2
        arr := ({ t.arr with blocks := r }).gapStart w }
    else t

def execMmaBlockWrite (t : Nat) (s : State) : Host.Outcome State Fault Refusal :=
  runUnit (decide (t < nTiles)) (fun d => d.modTile t (Tile.blockWrite d.pwr.window.toNat)) s

/-! ## Ballast and ramp -/

/-- The gap exceeds W (03 R69, R70): the ramp-down begins; not while blocks with products are in flight, a BALLAST or a ramp-up runs. -/
def Arrays.gapExpiry (a : Arrays) : Arrays :=
  if (a.phase = .run || a.phase = .ballast) && a.ballast = 0 && !a.blocks.any Block.product then { a with phase := .rampDown } else a

def execArrayGapExpiry (t : Nat) (s : State) : Host.Outcome State Fault Refusal :=
  runUnit (decide (t < nTiles)) (fun d => d.modTile t fun x => { x with arr := x.arr.gapExpiry }) s

/-- 32 cycles of a ramp pass: one array more, or one fewer (03 R70). -/
def Arrays.rampStep (w : Nat) (a : Arrays) : Arrays :=
  match a.phase with
  | .rampUp =>
    if a.enabled < 7 then { a with enabled := a.enabled + 1 }
    else { a with enabled := 8
                  phase := if a.blocks.any Block.product then .run else if w = 0 && a.ballast = 0 then .rampDown else .ballast }
  | .rampDown => if a.enabled ≤ 1 then { a with enabled := 0, phase := .idle } else { a with enabled := a.enabled - 1 }
  | _ => a

def execArrayRampStep (t : Nat) (s : State) : Host.Outcome State Fault Refusal :=
  runUnit (decide (t < nTiles)) (fun d => d.modTile t fun x => { x with arr := x.arr.rampStep d.pwr.window.toNat }) s

/-- A ramp-up is triggered while arrays are off; all on and about to ramp down, they run ballast again (03 R70). -/
def Arrays.trigger (a : Arrays) : Arrays :=
  if a.enabled < 8 then { a with phase := .rampUp } else if a.phase = .rampDown then { a with phase := .ballast } else a

/-- BALLAST (03 R73, 04 R103). -/
def ballastBody (_ : Ctx) (w : Word) (t : Tile) : Issue :=
  let n := fld w 0 13
  checked
    [(psSat w || fld w 13 41 != 0, .reservedField),
     (n == 0 || decide (4096 < n), .operandRange)] fun _ =>
    if t.arr.ballast != 0 || t.arr.flagHeld then .stall
    else
      let a := { t.arr with ballast := n }.trigger
      .done { t with arr := { a with phase := if a.enabled = 8 && a.phase != .run then .ballast else a.phase } }

def execBallast (t : Nat) (s : State) : Host.Outcome State Fault Refusal := runTile 0x3D ballastBody t s

/-- The n cycles of a BALLAST end (03 R73): the gap count restarts, and with W = 0 the ramp-down begins at once (03 R69). -/
def Arrays.ballastEnd (w : Nat) (a : Arrays) : Arrays :=
  { a with ballast := 0, phase := if w = 0 ∧ a.ballast ≠ 0 ∧ a.phase = .ballast ∧ a.blocks.any Block.product = false then .rampDown else a.phase }

def execBallastEnd (t : Nat) (s : State) : Host.Outcome State Fault Refusal :=
  runUnit (decide (t < nTiles)) (fun d => d.modTile t fun x => { x with arr := x.arr.ballastEnd d.pwr.window.toNat }) s

/-! ## Registers -/

/-- The physical column a logical column of an array uses, by its SPARE_SEL (03 R74); none for a reserved value. -/
def spareColumn (sel col : Nat) : Option Nat := if 4 < sel then none else some (if sel ≤ col then col + 1 else col)

/-- SPARE_SEL of array i (03 R75). -/
def spareOf (sel : BitVec 24) (i : Nat) : Nat := fld sel (3 * i) 3

/-- Every array's mapping is one of the table's (03 R74). -/
def spareSelOk (sel : BitVec 24) : Bool := (List.range 8).all fun i => decide (spareOf sel i ≤ 4)

/-- Codes of PHASE (03 R75). -/
def ArrPhase.code : ArrPhase → Nat
  | .idle => 0 | .rampUp => 1 | .run => 2 | .ballast => 3 | .rampDown => 4

/-- ARRAY_REPAIR (03 R75). -/
def Arrays.repairWord (a : Arrays) : Word := pack [(a.spareOk.toNat, 24), (a.spareSel.toNat, 0)]

/-- ARRAY_STATE (03 R75). -/
def Arrays.stateWord (a : Arrays) (p : Power) : Word :=
  pack [(a.enabled, 16), (a.phase.code, 12), (b2n p.lead, 11), (p.window.toNat, 0)]

end Sys2Proof.Machine
end

