-- ==== Sys2Proof/Machine/Vector.lean ====
section
/-! DEFINITION. The vector unit (05 R111-R122): loads and stores, element-wise instructions, reductions, scans, search with index,
conversions. Only selected lanes raise flags (log entry 15). -/

namespace Sys2Proof.Machine

/-! ## Elements of a lane -/

/-- Element width of a vector FMT: INT8, INT16, INT32 or FP32 (05 R114); 0 where reserved. -/
def vecWidth (f : Nat) : Nat :=
  match f with
  | 1 => 8 | 2 => 16 | 3 => 32 | 8 => 32 | _ => 0

/-- The codes of a lane's elements, lowest first (02 R29). -/
def laneElems (w : Nat) (x : BitVec 32) : List Nat := (List.range (32 / w)).map fun i => x.toNat / 2 ^ (w * i) % 2 ^ w

/-- A lane from its elements' codes. -/
def joinElems (w : Nat) (l : List Nat) : BitVec 32 := BitVec.ofNat 32 ((l.zipIdx.map fun e => e.1 % 2 ^ w * 2 ^ (w * e.2)).sum)

/-- One element in every place of a lane. -/
def splat (w : Nat) (x : Nat) : BitVec 32 := joinElems w (List.replicate (32 / w) x)

/-- Element-wise on one lane of three sources, with the flags of all its elements. -/
def laneMap (w : Nat) (f : Nat → Nat → Nat → Nat × Flags) (a b c : BitVec 32) : BitVec 32 × Flags :=
  let r := ((laneElems w a).zip ((laneElems w b).zip (laneElems w c))).map fun e => f e.1 e.2.1 e.2.2
  (joinElems w (r.map Prod.fst), Flags.all (r.map Prod.snd))

/-- An exact integer result checked against the element range (05 R115). -/
def intElem2 (w : Nat) (sat : Bool) (f : Int → Int → Int → Int) (a b c : Nat) : Nat × Flags :=
  narrowInt w sat (f (sext w a) (sext w b) (sext w c))

/-- An FP32 result on codes, operands read as the vector unit reads them (05 R115, 02 R40). -/
def fpElem (f : FVal → FVal → FVal → FVal × Flags) (a b c : Nat) : Nat × Flags :=
  let r := f (vec32 (BitVec.ofNat 32 a)) (vec32 (BitVec.ofNat 32 b)) (vec32 (BitVec.ofNat 32 c))
  (r.1.code32.toNat, r.2)

/-- VMAX and VMIN on FP32 (05 R115): a NaN yields the other; of +0 and -0 the larger is +0. -/
def fmaxmin (mx : Bool) (a b : FVal) : FVal × Flags :=
  let fl := Flags.ofNan (a.isNan || b.isNan)
  if a.isNan then (b, fl)
  else if b.isNan then (a, fl)
  else if FVal.lt a b then (if mx then b else a, fl)
  else if FVal.lt b a then (if mx then a else b, fl)
  else
    match a, b with
    | .fin s 0 _, .fin t 0 _ => (.fin (if mx then s && t else s || t) 0 0, fl)
    | _, _ => (a, fl)

/-! ## The element-wise layout -/

def wVd (w : Word) : Nat := fld w 49 5
def wVa (w : Word) : Nat := fld w 44 5
def wVb (w : Word) : Nat := fld w 39 5
def wVc (w : Word) : Nat := fld w 34 5
def wVfmt (w : Word) : Nat := fld w 30 4
def wSb (w : Word) : Bool := bitAt w 29
def wVgb (w : Word) : Nat := fld w 23 6
def wVsub (w : Word) : Nat := fld w 20 3

/-- The fields of the layout that must be zero (05 R114); vc and sub say whether the instruction uses VC and SUBOP. -/
def elemBad (vc sub : Bool) (w : Word) : Bool :=
  fld w 0 20 != 0 || vecWidth (wVfmt w) == 0 || (wSb w && wVb w != 0) || (!wSb w && wVgb w != 0) ||
  (!vc && wVc w != 0) || (!sub && wVsub w != 0)

/-- The second source: a register, or the scalar's low bits in every element (05 R114). -/
def Seq.srcB (s : Seq) (w : Word) : List (BitVec 32) :=
  if wSb w then List.replicate 64 (splat (vecWidth (wVfmt w)) (s.getG (wVgb w)).toNat) else s.getV (wVb w)

/-- Flags of the selected lanes only. -/
def maskFlags (mask : Word) (l : List Flags) : Flags := Flags.all ((l.zipIdx.filter fun e => bitAt mask e.2).map Prod.fst)

/-- An element-wise instruction (05 R114, R115): fi on integer elements, ff on FP32. -/
def elemOp (sat vc : Bool) (fi : Int → Int → Int → Int) (ff : FVal → FVal → FVal → FVal × Flags) (_ : Ctx) (w : Word) (t : Tile) : Issue :=
  checked [((!sat && wSat w) || elemBad vc false w, .reservedField)] fun _ =>
    let s := t.seq
    let f := wVfmt w
    let k := vecWidth f
    let op := if f = 8 then fpElem ff else intElem2 k (wSat w) fi
    let r := ((s.getV (wVa w)).zip ((s.srcB w).zip (s.getV (wVc w)))).map fun e => laneMap k op e.1 e.2.1 e.2.2
    let m := s.getP (wPs w)
    .done { t with seq := (s.setV (wVd w) m (r.map Prod.fst)).flag (maskFlags m (r.map Prod.snd)) }

def execVadd (t : Nat) (s : State) : Host.Outcome State Fault Refusal :=
  runTile 0x1A (elemOp true false (fun a b _ => a + b) (fun a b _ => fadd a b)) t s

def execVsub (t : Nat) (s : State) : Host.Outcome State Fault Refusal :=
  runTile 0x1B (elemOp true false (fun a b _ => a - b) (fun a b _ => fsub a b)) t s

def execVmul (t : Nat) (s : State) : Host.Outcome State Fault Refusal :=
  runTile 0x1C (elemOp true false (fun a b _ => a * b) (fun a b _ => fmul a b)) t s

def execVfma (t : Nat) (s : State) : Host.Outcome State Fault Refusal :=
  runTile 0x1D (elemOp true true (fun a b c => a * b + c) ffma) t s

def execVmax (t : Nat) (s : State) : Host.Outcome State Fault Refusal :=
  runTile 0x1E (elemOp false false (fun a b _ => max a b) (fun a b _ => fmaxmin true a b)) t s

def execVmin (t : Nat) (s : State) : Host.Outcome State Fault Refusal :=
  runTile 0x1F (elemOp false false (fun a b _ => min a b) (fun a b _ => fmaxmin false a b)) t s

/-- A condition of VSEL by SUBOP: EQ, NE, LT, LE, GT, GE (05 R116); NE is true of a NaN. -/
def vselHolds (sub : Nat) (eq lt gt : Bool) : Bool :=
  match sub with
  | 1 => eq
  | 2 => !eq
  | 3 => lt
  | 4 => lt || eq
  | 5 => gt
  | _ => gt || eq

/-- One lane of a VSEL compare, and whether it read a NaN. -/
def vselLane (fmt sub : Nat) (a b : BitVec 32) : Bool × Bool :=
  if fmt = 8 then
    let x := vec32 a
    let y := vec32 b
    (vselHolds sub (FVal.eqv x y) (FVal.lt x y) (FVal.lt y x), x.isNan || y.isNan)
  else (vselHolds sub (a == b) (decide (a.toInt < b.toInt)) (decide (b.toInt < a.toInt)), false)

/-- A word from its bits, lowest first. -/
def ofBits (l : List Bool) : Word := BitVec.ofNat 64 ((l.zipIdx.map fun e => b2n e.1 * 2 ^ e.2).sum)

/-- VSEL (05 R116): SELECT, the compares, BCAST. -/
def vselBody (_ : Ctx) (w : Word) (t : Tile) : Issue :=
  let sub := wVsub w
  let cmp := decide (1 ≤ sub) && decide (sub ≤ 6)
  let f := wVfmt w
  checked
    [(wSat w || elemBad false true w || (cmp && f != 3 && f != 8) || (sub == 7 && (!wSb w || wVa w != 0)), .reservedField),
     (cmp && (wVd w == 0 || decide (7 < wVd w)), .operandRange)] fun _ =>
    let s := t.seq
    let m := s.getP (wPs w)
    let a := s.getV (wVa w)
    let b := s.srcB w
    if sub = 0 then
      let r := ((a.zip b).zipIdx).map fun e => if bitAt m e.2 then e.1.1 else e.1.2
      .done { t with seq := s.setV (wVd w) (BitVec.allOnes 64) r }
    else if sub = 7 then .done { t with seq := s.setV (wVd w) m b }
    else
      let r := (a.zip b).map fun e => vselLane f sub e.1 e.2
      let bits := (r.zipIdx).map fun e => e.1.1 && bitAt m e.2
      .done { t with seq := (s.setP (wVd w) (ofBits bits)).flag (maskFlags m (r.map fun e => Flags.ofNan e.2)) }

def execVsel (t : Nat) (s : State) : Host.Outcome State Fault Refusal := runTile 0x24 vselBody t s

/-! ## Loads and stores -/

/-- A raw move of 256 bytes (05 R117). -/
def rawFmt (f : Nat) : Bool := f == 3 || f == 8

/-- Bytes of one element, and of a whole transfer (05 R117). -/
def elemBytes (f : Nat) : Nat := max 1 (fmtBits f / 8)
def moveBytes (f : Nat) (bcast : Bool) : Nat := if bcast then elemBytes f else 8 * fmtBits f

/-- The transfer breaks the range and alignment rules of VLD and VST (05 R117). The rule names a fault for no one of them: every one is OPERAND_RANGE
(DESIGN CHOICE, log entry 110). -/
def moveBad (a f : Nat) (bcast : Bool) : Bool :=
  let n := moveBytes f bcast
  let inAcc := decide (0x100000 ≤ a) && decide (a + n ≤ 0x140000)
  a % elemBytes f != 0 || !(decide (a + n ≤ 0x100000) || inAcc) || (inAcc && (!rawFmt f || a % 256 != 0 || bcast))

/-- The tile-local address ga + OFFSET, modulo 2^64 (05 R117; log entry 15). -/
def Seq.localAddr (s : Seq) (w : Word) : Nat := (s.getG (fld w 43 6) + BitVec.ofInt 64 (sext 22 (fld w 0 22))).toNat

/-- The accumulator row of a local address, where it is one. -/
def rowOf (a : Nat) : Option Nat := if 0x100000 ≤ a then some ((a - 0x100000) / 256) else none

/-- The transfer names an accumulator row that is not readable yet (03 R60, 05 R117). -/
def Tile.rowWait (t : Tile) (a : Nat) : Bool := match rowOf a with | some r => t.arr.rowBusy r | none => false

/-- The transfer names a row that a block in flight has still to write or to read (03 R55, R60). -/
def Tile.rowHeld (t : Tile) (a : Nat) : Bool := match rowOf a with | some r => t.arr.rowHeld r | none => false

/-- VLD (05 R112, R117). -/
def vldBody (_ : Ctx) (w : Word) (t : Tile) : Issue :=
  let f := fld w 39 4
  let bc := bitAt w 38
  let hi := bitAt w 37
  let a := t.seq.localAddr w
  let n := moveBytes f bc
  checked
    [(wSat w || decide (8 < f) || (hi && !(bc && f == 0)) || fld w 22 15 != 0, .reservedField),
     (moveBad a f bc, .operandRange),
     (t.badRead a n, .sramUncorrectable)] fun _ =>
    if t.rowWait a then .stall
    else
      let l := t.mem.read a n
      let code (i : Nat) : Nat := if rawFmt f then leAt l (4 * i) 4 else elemCode f l i
      let lane (i : Nat) : BitVec 32 × Flags :=
        let c := if bc then code (b2n hi) else code i
        if rawFmt f then (BitVec.ofNat 32 c, Flags.clear) else widen f c
      let r := (List.range 64).map lane
      let m := t.seq.getP (wPs w)
      .done { t with seq := (t.seq.setV (fld w 49 5) m (r.map Prod.fst)).flag (maskFlags m (r.map Prod.snd)) }

def execVld (t : Nat) (s : State) : Host.Outcome State Fault Refusal := runTile 0x18 vldBody t s

/-- The bytes VST stores, each with whether it is written; lanes are codes with their selection (05 R112, R117). -/
def storeBytes (f : Nat) (old : List Byte) (l : List (Nat × Bool)) : List (Byte × Bool) :=
  if fmtBits f = 4 then
    (chunksOf 2 64 l).zipIdx.map fun e =>
      let o := (old.getD e.2 0).toNat
      let x := e.1.getD 0 (0, false)
      let y := e.1.getD 1 (0, false)
      (BitVec.ofNat 8 ((if x.2 then x.1 % 16 else o % 16) + 16 * (if y.2 then y.1 % 16 else o / 16)), x.2 || y.2)
  else l.flatMap fun e => (leBytes (elemBytes f) e.1).map fun b => (b, e.2)

/-- VST (05 R112, R113, R117). -/
def vstBody (_ : Ctx) (w : Word) (t : Tile) : Issue :=
  let f := fld w 39 4
  let a := t.seq.localAddr w
  checked
    [((wSat w && rawFmt f) || decide (8 < f) || bitAt w 38 || bitAt w 37 || fld w 22 15 != 0, .reservedField),
     (moveBad a f false, .operandRange)] fun _ =>
    if t.rowHeld a then .stall
    else
      let m := t.seq.getP (wPs w)
      let r := (t.seq.getV (fld w 49 5)).map fun x => if rawFmt f then (x.toNat, Flags.clear) else narrowLane f (wSat w) x
      let sel := (r.zipIdx).map fun e => (e.1.1, bitAt m e.2)
      let bytes := storeBytes f (t.mem.read a (moveBytes f false)) sel
      .done { t with
        mem := t.mem.writeMask a bytes
        badWords := t.badWords.filter fun u => !wholeIn a (bytes.map Prod.snd) u
        seq := t.seq.flag (maskFlags m (r.map Prod.snd)) }

def execVst (t : Nat) (s : State) : Host.Outcome State Fault Refusal := runTile 0x19 vstBody t s

/-! ## Reductions, scans, search -/

def wRvi (w : Word) : Nat := fld w 39 5
def wRgi (w : Word) : Nat := fld w 33 6
def wRfmt (w : Word) : Nat := fld w 29 4
def wRsub (w : Word) : Nat := fld w 26 3

/-- One addition of a reduction or scan: FP32 with one rounding, or a checked INT32 one (05 R118, R119). -/
def addLane (fmt : Nat) (sat : Bool) (a b : BitVec 32) : BitVec 32 × Flags :=
  if fmt = 8 then let r := fadd (vec32 a) (vec32 b); (r.1.code32, r.2)
  else let r := narrowInt 32 sat (a.toInt + b.toInt); (BitVec.ofNat 32 r.1, r.2)

/-- Adjacent lanes added (05 R118). -/
def addPairs (fmt : Nat) (sat : Bool) : List (BitVec 32) → List (BitVec 32) × Flags
  | a :: b :: r =>
    let x := addLane fmt sat a b
    let q := addPairs fmt sat r
    (x.1 :: q.1, x.2.or q.2)
  | l => (l, Flags.clear)

/-- The fixed pairwise tree of n levels (05 R118). -/
def sumTree (fmt : Nat) (sat : Bool) : Nat → List (BitVec 32) → BitVec 32 × Flags
  | 0, l => (l.headD 0, Flags.clear)
  | n + 1, l =>
    let p := addPairs fmt sat l
    let q := sumTree fmt sat n p.1
    (q.1, p.2.or q.2)

/-- The value a vector FMT's code has, for ranking; FP32 as the vector unit reads it. -/
def rankVal (fmt code : Nat) : FVal := if fmt = 8 then vec32 (BitVec.ofNat 32 code) else FVal.ofInt (sext (vecWidth fmt) code)

/-- x outranks y: better, or equal with the lower index (05 R120). Neither is a NaN. -/
def outranks (mx : Bool) (x : FVal × Nat) (y : FVal × Nat) : Bool :=
  (if mx then FVal.lt y.1 x.1 else FVal.lt x.1 y.1) || (!FVal.lt x.1 y.1 && !FVal.lt y.1 x.1 && decide (x.2 < y.2))

/-- The best candidate, as (value, index). -/
def bestOf (mx : Bool) (l : List (FVal × Nat)) : Option (FVal × Nat) :=
  l.foldl (fun a x => match a with | none => some x | some y => if outranks mx x y then some x else some y) none

/-- The empty value of a search (05 R121), as a code. -/
def emptyVal (mx : Bool) (fmt : Nat) : Nat :=
  if fmt = 8 then fmtFP32.infCode mx
  else let w := vecWidth fmt; if mx then 2 ^ (w - 1) else 2 ^ (w - 1) - 1

/-- The code of a value of a vector FMT. -/
def valCode (fmt : Nat) (v : FVal) : Nat :=
  match v with
  | .fin s m _ => if fmt = 8 then v.code32.toNat else wrapInt (vecWidth fmt) (sgn s m)
  | _ => v.code32.toNat

/-- The selected elements of a register, as (value, position). -/
def candidates (fmt : Nat) (m : Word) (l : List (BitVec 32)) : List (FVal × Nat) :=
  let w := vecWidth fmt
  (l.zipIdx.flatMap fun e =>
    if bitAt m e.2 then (laneElems w e.1).zipIdx.map fun x => (rankVal fmt x.1, e.2 * (32 / w) + x.2) else [])

/-- A reduction's result in lane 0, or in every lane (05 R118). -/
def spread (lane0 : Bool) (x : BitVec 32) : List (BitVec 32) := if lane0 then x :: List.replicate 63 0 else List.replicate 64 x

/-- VRED (05 R118). MAX and MIN of equal zeros of both signs give the zero of the lowest lane (DESIGN CHOICE, log entry 109). -/
def vredBody (_ : Ctx) (w : Word) (t : Tile) : Issue :=
  let f := wRfmt w
  let sub := wRsub w
  checked
    [((wSat w && decide (1 < sub)) || (f != 3 && f != 8) || decide (5 < sub) || wRvi w != 0 || wRgi w != 0 || fld w 0 26 != 0, .reservedField)] fun _ =>
    let s := t.seq
    let m := s.getP (wPs w)
    let a := s.getV (wVa w)
    let r : BitVec 32 × Flags :=
      if sub ≤ 1 then sumTree f (wSat w) 6 (a.zipIdx.map fun e => if bitAt m e.2 then e.1 else 0)
      else
        let c := candidates f m a
        let mx := decide (sub ≤ 3)
        (match bestOf mx (c.filter fun x => !x.1.isNan) with
          | some x => BitVec.ofNat 32 (valCode f x.1)
          | none => BitVec.ofNat 32 (emptyVal mx f), Flags.ofNan (c.any fun x => x.1.isNan))
    .done { t with seq := (s.setV (wVd w) (BitVec.allOnes 64) (spread (sub % 2 == 1) r.1)).flag r.2 }

def execVred (t : Nat) (s : State) : Host.Outcome State Fault Refusal := runTile 0x22 vredBody t s

/-- One level of the scan: lane l gains lane l - d (05 R119). -/
def scanLevel (fmt : Nat) (sat : Bool) (d : Nat) (l : List (BitVec 32)) : List (BitVec 32) × Flags :=
  let r := ((List.replicate d none ++ l.map some).zip l).map fun (e : Option (BitVec 32) × BitVec 32) =>
    match e.1 with
    | none => (e.2, Flags.clear)
    | some x => addLane fmt sat x e.2
  (r.map Prod.fst, Flags.all (r.map Prod.snd))

/-- The six levels of the inclusive scan. -/
def scanAll (fmt : Nat) (sat : Bool) : Nat → Nat → List (BitVec 32) → List (BitVec 32) × Flags
  | 0, _, l => (l, Flags.clear)
  | n + 1, d, l =>
    let p := scanLevel fmt sat d l
    let q := scanAll fmt sat n (2 * d) p.1
    (q.1, p.2.or q.2)

/-- VSCAN (05 R119). -/
def vscanBody (_ : Ctx) (w : Word) (t : Tile) : Issue :=
  let f := wRfmt w
  checked
    [((f != 3 && f != 8) || decide (1 < wRsub w) || wRvi w != 0 || wRgi w != 0 || fld w 0 26 != 0, .reservedField)] fun _ =>
    let s := t.seq
    let m := s.getP (wPs w)
    let x0 := (s.getV (wVa w)).zipIdx.map fun (e : BitVec 32 × Nat) => if bitAt m e.2 then (if f = 8 then (vec32 e.1).code32 else e.1) else 0
    let r := scanAll f (wSat w) 6 1 x0
    let x := if wRsub w = 1 then (0 :: r.1).take 64 else r.1
    .done { t with seq := (s.setV (wVd w) (BitVec.allOnes 64) x).flag r.2 }

def execVscan (t : Nat) (s : State) : Host.Outcome State Fault Refusal := runTile 0x25 vscanBody t s

/-- NaNs excluded are counted; the counter sticks at all ones with OVF set (05 R121, R130). -/
def nanCountAdd (c : Counter) (n : Nat) : Counter :=
  if c.value.toNat + n < 2 ^ 48 - 1 then ⟨BitVec.ofNat 48 (c.value.toNat + n), c.ovf⟩ else ⟨BitVec.allOnes 48, true⟩

/-- NaNs excluded are counted and seen (05 R121, 02 R45). -/
def Tile.nans (t : Tile) (n : Nat) : Tile :=
  { t with
    sel := { t.sel with nanCount := nanCountAdd t.sel.nanCount n }
    seq := t.seq.flag (Flags.ofNan (decide (0 < n))) }

/-- The registers written by a search in the lanes of the mask; where VD and VI name one register, which of the two writes stands is not stated: a free
value of the lane and of both (log entry 2). -/
def Seq.setSearch (s : Seq) (vd vi : Nat) (m : Word) (x ix : List (BitVec 32)) : Seq :=
  if vd = vi then s.setV vd m ((x.zip ix).zipIdx.map fun e => Config.searchSame e.2 e.1.1 e.1.2) else (s.setV vd m x).setV vi m ix

/-- VMAXI and VMINI (05 R120, R121). -/
def searchBody (mx : Bool) (_ : Ctx) (w : Word) (t : Tile) : Issue :=
  let f := wRfmt w
  let sub := wRsub w
  checked
    [(wSat w || vecWidth f == 0 || decide (1 < sub) || (sub == 1 && f != 3 && f != 8) || fld w 0 26 != 0, .reservedField)] fun _ =>
    let s := t.seq
    let m := s.getP (wPs w)
    let a := s.getV (wVa w)
    let base := (s.getG (wRgi w)).toNat % 2 ^ 32
    if sub = 0 then
      let c := candidates f m a
      let good := (c.filter fun x => !x.1.isNan).map fun x => (x.1, (base + x.2) % 2 ^ 32)
      let r := match bestOf mx good with
        | some x => (valCode f x.1, x.2)
        | none => (emptyVal mx f, 2 ^ 32 - 1)
      let x := List.replicate 64 (splat (vecWidth f) r.1)
      let q := s.setSearch (wVd w) (wRvi w) (BitVec.allOnes 64) x (List.replicate 64 (BitVec.ofNat 32 r.2))
      .done (Tile.nans { t with seq := q } (c.length - good.length))
    else
      let lanes := (a.zip ((s.getV (wVd w)).zip (s.getV (wRvi w)))).map fun e =>
        let x := rankVal f e.1.toNat
        let y := rankVal f e.2.1.toNat
        let win := !x.isNan && (y.isNan || outranks mx (x, base) (y, e.2.2.toNat))
        (win, BitVec.ofNat 32 (valCode f x), x.isNan, y.isNan)
      let bad := ((lanes.zipIdx).filter fun e => bitAt m e.2 && e.1.2.2.1).length
      let held := (lanes.zipIdx).any fun e => bitAt m e.2 && e.1.2.2.2
      let q := s.setSearch (wVd w) (wRvi w) (m &&& ofBits (lanes.map Prod.fst)) (lanes.map fun e => e.2.1) (List.replicate 64 (BitVec.ofNat 32 base))
      .done (Tile.nans { t with seq := q.flag (Flags.ofNan held) } bad)

def execVmaxi (t : Nat) (s : State) : Host.Outcome State Fault Refusal := runTile 0x20 (searchBody true) t s

def execVmini (t : Nat) (s : State) : Host.Outcome State Fault Refusal := runTile 0x21 (searchBody false) t s

/-! ## Conversions -/

/-- A source element's value: an exact integer or a floating value; a BF16 or FP32 subnormal is a zero of its sign (02 R40, R44). -/
def convVal (f code : Nat) : FVal :=
  if isIntFmt f then FVal.ofInt (sext (fmtBits f) code)
  else if f = 8 then vec32 (BitVec.ofNat 32 code)
  else
    match (floatFmt f).decode code with
    | .fin s m e => if f = 7 && decide (m < 128) then .fin s 0 0 else .fin s m e
    | x => x

/-- One conversion (02 R44). -/
def convElem (fr to_ : Nat) (sat : Bool) (code : Nat) : Nat × Flags :=
  let v := convVal fr code
  if isIntFmt to_ then toInt (fmtBits to_) sat v
  else if to_ = 8 then (v.rnd32.code32.toNat, Flags.ofNan v.isNan)
  else narrow (floatFmt to_) sat v

/-- The first lane and the codes per lane of the narrow side (05 R122). -/
def partLane (w part i : Nat) : Nat := 2 * w * part + i * w / 32

/-- The 64 codes of width w in the part of a register (05 R122). -/
def partCodes (w part : Nat) (l : List (BitVec 32)) : List Nat :=
  (List.range 64).map fun i => (l.getD (partLane w part i) 0).toNat / 2 ^ (i * w % 32) % 2 ^ w

/-- The lanes of the part that 64 codes of width w fill (05 R122). -/
def partJoin (w : Nat) (l : List Nat) : List (BitVec 32) := (chunksOf (32 / w) 64 l).map (joinElems w)

/-- The lanes of a part as a mask. -/
def partMask (w part : Nat) : Word := BitVec.ofNat 64 ((2 ^ (2 * w) - 1) * 2 ^ (2 * w * part))

/-- A register's lanes with those of a part replaced; the others are not written. -/
def partLanes (w part : Nat) (l : List (BitVec 32)) : List (BitVec 32) :=
  (List.replicate (2 * w * part) 0 ++ l ++ List.replicate 64 0).take 64

/-- VCVT (05 R122, 02 R44, R46). -/
def vcvtBody (_ : Ctx) (w : Word) (t : Tile) : Issue :=
  let fr := fld w 40 4
  let to_ := fld w 36 4
  let part := fld w 33 3
  let gd := fld w 27 6
  let mx := to_ == 9 || to_ == 10
  let wide (f : Nat) : Bool := f == 3 || f == 8
  let k := min (fmtBits fr) (fmtBits to_)
  let bad := fr == to_ || decide (8 < fr) || decide (10 < to_) || (!wide fr && !wide to_) || (mx && fr != 8)
  checked
    [((mx && wPs w != 0) || bad || (!mx && gd != 0) || fld w 0 27 != 0, .reservedField),
     (k != 0 && decide (32 / k ≤ part), .operandRange)] fun _ =>
    let s := t.seq
    let m := s.getP (wPs w)
    let a := s.getV (wVa w)
    if mx then
      let q0 := mxQuant (to_ == 10) (a.take 32)
      let q1 := mxQuant (to_ == 10) (a.drop 32)
      let lanes := partLanes k part (partJoin k (q0.2.1 ++ q1.2.1))
      let s := s.setV (wVd w) (partMask k part) lanes
      .done { t with seq := (s.setG gd (BitVec.ofNat 64 (q0.1 + 256 * q1.1))).flag (q0.2.2.or q1.2.2) }
    else if fmtBits to_ < fmtBits fr then
      let r := a.map fun x => convElem fr to_ (wSat w) x.toNat
      let on (i : Nat) : Bool := bitAt m (partLane k part i)
      let fl := Flags.all ((r.zipIdx.filter fun e => on e.2).map fun e => e.1.2)
      let lanes := partLanes k part (partJoin k (r.map Prod.fst))
      .done { t with seq := (s.setV (wVd w) (partMask k part &&& m) lanes).flag fl }
    else
      let r := (partCodes k part a).map fun x => convElem fr to_ (wSat w) x
      .done { t with seq := (s.setV (wVd w) m (r.map fun e => BitVec.ofNat 32 e.1)).flag (maskFlags m (r.map Prod.snd)) }

def execVcvt (t : Nat) (s : State) : Host.Outcome State Fault Refusal := runTile 0x23 vcvtBody t s

end Sys2Proof.Machine
end

