-- ==== Sys2Proof/Machine/Selector.lean ====
section
/-! DEFINITION. The selector (05 R123-R130), MDRAIN (04 R99) and the generator RNG (05 R131). -/

namespace Sys2Proof.Machine

/-- Rows of the configuration: 2^LOGR (05 R123). -/
def Selector.nrows (s : Selector) : Nat := 2 ^ s.logr.toNat

/-- DIR names MAX (05 R126). -/
def Selector.isMax (s : Selector) : Bool := !s.dir

/-- The rank of an entry: its value as the vector unit reads it, and its index (05 R124). -/
def Selector.rank (s : Selector) (e : SelEntry) : FVal × Nat := (rankVal s.fmt.toNat e.score.toNat, e.index.toNat)

/-- A candidate in its place, best first; equal entries are all kept (05 R124). Of entries of one rank the earlier arrival stands first (DESIGN CHOICE,
log entry 111). -/
def Selector.place (s : Selector) (e : SelEntry) : List SelEntry → List SelEntry
  | [] => [e]
  | x :: r => if outranks s.isMax (s.rank e) (s.rank x) then e :: x :: r else x :: Selector.place s e r

/-- Candidates into row i: empty ones dropped, NaN scores excluded; the best K stay (05 R123, R124, R127). The second answer is the NaNs. -/
def Selector.feed (s : Selector) (i : Nat) (l : List SelEntry) : Selector × Nat :=
  let l := l.filter fun e => e.index != BitVec.allOnes 32
  let good := l.filter fun e => !(s.rank e).1.isNan
  let row := (good.foldl (fun a e => s.place e a) (s.rows.getD i [])).take s.k.toNat
  ({ s with rows := setAt s.rows i row }, l.length - good.length)

/-- Every entry empty (05 R127). -/
def Selector.clearRows (s : Selector) : Selector := { s with rows := List.replicate s.nrows [] }

/-- Bytes of an image (05 R125). -/
def Selector.imageLen (s : Selector) : Nat := 8 * s.nrows * s.k.toNat

/-- The bytes of one row: its scores, then its indices, empty entries last (05 R124, R125). -/
def Selector.rowBytes (s : Selector) (row : List SelEntry) : List Byte :=
  let e : SelEntry := ⟨BitVec.ofNat 32 (emptyVal s.isMax s.fmt.toNat), BitVec.allOnes 32⟩
  let l := row ++ List.replicate (s.k.toNat - row.length) e
  (l.flatMap fun x => leBytes 4 x.score.toNat) ++ (l.flatMap fun x => leBytes 4 x.index.toNat)

/-- The live state as an image (05 R125). -/
def Selector.image (s : Selector) : List Byte := (List.range s.nrows).flatMap fun i => s.rowBytes (s.rows.getD i [])

/-- Row i of an image's bytes (05 R125). -/
def imageRow (k i : Nat) (l : List Byte) : List SelEntry :=
  (List.range k).map fun j =>
    ⟨BitVec.ofNat 32 (leAt l (8 * k * i + 4 * j) 4), BitVec.ofNat 32 (leAt l (8 * k * i + 4 * k + 4 * j) 4)⟩

/-- Every row of an image fed as candidates (05 R127). -/
def Selector.merge (s : Selector) (l : List Byte) : Selector × Nat :=
  (List.range s.nrows).foldl (fun a i => let r := a.1.feed i (imageRow s.k.toNat i l); (r.1, a.2 + r.2)) (s, 0)

/-- An image offset breaks the rules (05 R126). -/
def imageBad (off len : Nat) : Bool := off % 256 != 0 || decide (sramBytes < off + len)

/-- Window offset of the selector state (05 R130). -/
def selBase : Nat := 0x180000

/-- Bytes of one row of an image (05 R125). -/
def Selector.rowLen (s : Selector) : Nat := 8 * s.k.toNat

/-- A row of the live state meets a double-bit error (04 R108). -/
def Tile.rowBad (t : Tile) (i : Nat) : Bool := t.badRead (selBase + t.sel.rowLen * i) t.sel.rowLen

/-- The live state meets one. -/
def Tile.selBad (t : Tile) : Bool := t.badRead selBase t.sel.imageLen

/-- The selector's words written whole: their errors are gone (04 R108). -/
def Tile.freshSel (t : Tile) (len : Nat) : Tile :=
  { t with badWords := t.badWords.filter fun u => !(decide (selBase ≤ 8 * u) && decide (8 * u + 8 ≤ selBase + len)) }

/-- A tile with its selector as given and NaNs counted (05 R121). -/
def Tile.withSel (t : Tile) (r : Selector × Nat) : Tile :=
  Tile.nans { t with sel := { r.1 with nanCount := t.sel.nanCount } } r.2

/-- SINIT (05 R123, R126, R127). -/
def sinitBody (_ : Ctx) (w : Word) (t : Tile) : Issue :=
  let src := bitAt w 53
  let logr := fld w 44 3
  let k := fld w 33 11
  let off := fld (t.seq.getG (fld w 47 6)) 0 20
  let len := 8 * 2 ^ logr * k
  checked
    [(psSat w || decide (4 < logr) || !rawFmt (fld w 28 4) || fld w 0 28 != 0 || (!src && fld w 47 6 != 0), .reservedField),
     (k == 0 || decide (1024 < k) || decide (1024 < 2 ^ logr * k) || (src && imageBad off len), .operandRange),
     (src && t.badRead off len, .sramUncorrectable)] fun _ =>
    let s : Selector := { t.sel with valid := true, dir := bitAt w 32, fmt := BitVec.ofNat 4 (fld w 28 4), logr := BitVec.ofNat 3 logr,
                                     k := BitVec.ofNat 11 k }
    .done ((t.freshSel len).withSel (if src then s.clearRows.merge (t.mem.read off len) else (s.clearRows, 0)))

def execSinit (t : Nat) (s : State) : Host.Outcome State Fault Refusal := runTile 0x30 sinitBody t s

/-- SFEED (05 R126, R128). -/
def sfeedBody (_ : Ctx) (w : Word) (t : Tile) : Issue :=
  let row := fld w 45 4
  let xi := bitAt w 38
  let m := t.seq.getP (wPs w)
  let base := t.seq.getG (fld w 39 6)
  let vi := t.seq.getV (fld w 33 5)
  let ix (l : Nat) : BitVec 32 := if xi then vi.getD l 0 else BitVec.ofNat 32 (base.toNat + l)
  let cand : List SelEntry := ((t.seq.getV (fld w 49 5)).zipIdx.filter fun e => bitAt m e.2).map fun e => ⟨e.1, ix e.2⟩
  checked
    [(wSat w || fld w 0 33 != 0 || (xi && fld w 39 6 != 0) || (!xi && fld w 33 5 != 0), .reservedField),
     (!t.sel.valid || decide (t.sel.nrows ≤ row) || cand.any (fun e => e.index == BitVec.allOnes 32), .operandRange),
     (t.rowBad row, .sramUncorrectable)] fun _ =>
    .done (t.withSel (t.sel.feed row cand))

def execSfeed (t : Nat) (s : State) : Host.Outcome State Fault Refusal := runTile 0x31 sfeedBody t s

/-- SREAD (05 R126, R127). -/
def sreadBody (_ : Ctx) (w : Word) (t : Tile) : Issue :=
  let off := fld (t.seq.getG (fld w 48 6)) 0 20
  checked
    [(psSat w || fld w 0 47 != 0, .reservedField),
     (!t.sel.valid || imageBad off t.sel.imageLen, .operandRange),
     (t.selBad, .sramUncorrectable)] fun _ =>
    let t' := t.store off t.sel.image
    .done (if bitAt w 47 then { t' with sel := t.sel.clearRows } else t')

def execSread (t : Nat) (s : State) : Host.Outcome State Fault Refusal := runTile 0x32 sreadBody t s

/-- SMERGE (05 R126, R127). -/
def smergeBody (_ : Ctx) (w : Word) (t : Tile) : Issue :=
  let off := fld (t.seq.getG (fld w 48 6)) 0 20
  checked
    [(psSat w || fld w 0 48 != 0, .reservedField),
     (!t.sel.valid || imageBad off t.sel.imageLen, .operandRange),
     (t.badRead off t.sel.imageLen || t.selBad, .sramUncorrectable)] fun _ =>
    .done (t.withSel (t.sel.merge (t.mem.read off t.sel.imageLen)))

def execSmerge (t : Nat) (s : State) : Host.Outcome State Fault Refusal := runTile 0x33 smergeBody t s

/-- The index of column j of the k-th row MDRAIN reads (05 R128). -/
def drainIndex (base : Word) (nrows k j : Nat) : BitVec 32 := BitVec.ofNat 32 (base.toNat + 64 * (k / nrows) + j)

/-- MDRAIN (04 R99, 05 R127, R128): it waits until its rows are readable, then delivers them in ascending order. -/
def mdrainBody (_ : Ctx) (w : Word) (t : Tile) : Issue :=
  let row := fld w 44 10
  let n := fld w 33 11
  let f := fld w 28 4
  let base := t.seq.getG (fld w 22 6)
  let r := t.sel.nrows
  checked
    [(psSat w || !rawFmt f || fld w 0 22 != 0, .reservedField),
     (n == 0 || decide (1024 < n) || decide (1024 < row + n) || !t.sel.valid || f != t.sel.fmt.toNat ||
       (List.range ((n + r - 1) / r)).any (fun q => (List.range 64).any fun j => drainIndex base 1 q j == BitVec.allOnes 32), .operandRange),
     (t.badRead (accAt row 0) (256 * n) || (List.range (min n r)).any t.rowBad, .sramUncorrectable)] fun _ =>
    if (List.range n).any (fun k => if bitAt w 32 then t.arr.rowHeld (row + k) else t.arr.rowBusy (row + k)) then .stall
    else
      let feed (a : Selector × Nat) (k : Nat) : Selector × Nat :=
        let c : List SelEntry := (List.range 64).map fun j => ⟨t.acc (row + k) j, drainIndex base r k j⟩
        let q := a.1.feed (k % r) c
        (q.1, a.2 + q.2)
      let t' := t.withSel ((List.range n).foldl feed (t.sel, 0))
      .done (if bitAt w 32 then t'.store (accAt row 0) (List.replicate (256 * n) 0) else t')

def execMdrain (t : Nat) (s : State) : Host.Outcome State Fault Refusal := runTile 0x13 mdrainBody t s

/-- SEL_CONFIG (05 R130). -/
def Selector.configWord (s : Selector) : Word :=
  pack [(b2n s.valid, 23), (b2n s.dir, 22), (s.fmt.toNat, 18), (s.logr.toNat, 15), (s.k.toNat, 0)]

/-- A byte of the selector window, by its offset from 0x18_0000 (05 R130); beyond the image it is not stated. -/
def Selector.windowByte (s : Selector) (t off : Nat) : Byte :=
  if off < s.imageLen then s.image.getD off 0
  else if off < 0x2000 then Config.selBeyond t off
  else if off < 0x2008 then (leBytes 8 s.configWord.toNat).getD (off - 0x2000) 0
  else if off < 0x2010 then (leBytes 8 (pack [(b2n s.nanCount.ovf, 48), (s.nanCount.value.toNat, 0)]).toNat).getD (off - 0x2008) 0
  else 0

/-! ## The generator -/

/-- The state of Philox: four counter words and two key words (05 R131). -/
structure Philox where
  c0 : BitVec 32
  c1 : BitVec 32
  c2 : BitVec 32
  c3 : BitVec 32
  k0 : BitVec 32
  k1 : BitVec 32
  deriving DecidableEq, Repr

/-- The high and low half of a 32 x 32 bit product. -/
def mulHi (a b : BitVec 32) : BitVec 32 := BitVec.ofNat 32 (a.toNat * b.toNat / 2 ^ 32)
def mulLo (a b : BitVec 32) : BitVec 32 := a * b

/-- One round, with the key as it stands (05 R131). -/
def Philox.round (p : Philox) : Philox :=
  let m0 : BitVec 32 := 0xD2511F53
  let m1 : BitVec 32 := 0xCD9E8D57
  { p with c0 := mulHi m1 p.c2 ^^^ p.c1 ^^^ p.k0, c1 := mulLo m1 p.c2, c2 := mulHi m0 p.c0 ^^^ p.c3 ^^^ p.k1, c3 := mulLo m0 p.c0 }

/-- The key's step before every round but the first (05 R131). -/
def Philox.bump (p : Philox) : Philox := { p with k0 := p.k0 + 0x9E3779B9, k1 := p.k1 + 0xBB67AE85 }

/-- n further rounds. -/
def Philox.rounds : Nat → Philox → Philox
  | 0, p => p
  | n + 1, p => Philox.rounds n p.bump.round

/-- Word w of the generator's output for lane l (05 R131). -/
def philox (seed step : Word) (item : BitVec 32) (l w : Nat) : BitVec 32 :=
  let p : Philox := ⟨step.extractLsb' 0 32, step.extractLsb' 32 32, BitVec.ofNat 32 l, item, seed.extractLsb' 0 32, seed.extractLsb' 32 32⟩
  let q := Philox.rounds 9 p.round
  match w with
  | 0 => q.c0 | 1 => q.c1 | 2 => q.c2 | _ => q.c3

/-- RNG (04 R103, 05 R131). -/
def rngBody (_ : Ctx) (w : Word) (t : Tile) : Issue :=
  checked [(wSat w || fld w 0 41 != 0, .reservedField)] fun _ =>
    let s := t.seq
    let x := (List.range 64).map fun l => philox s.seed (s.getG (fld w 43 6)) s.item l (fld w 41 2)
    .done { t with seq := s.setV (fld w 49 5) (s.getP (wPs w)) x }

def execRng (t : Nat) (s : State) : Host.Outcome State Fault Refusal := runTile 0x3C rngBody t s

end Sys2Proof.Machine
end

