-- ==== Sys2Proof/Machine/Regs.lean ====
section
/-! DEFINITION. What reads return: the tile register block and the rest of a tile window (01 R21, 04 R77-R78), and the unit-control registers
of every unit (01 R23). Every register of these blocks is read-only; reserved offsets read 0. -/

namespace Sys2Proof.Machine

/-! ## Tile windows -/

def SeqState.code : SeqState → Nat
  | .idle => 0 | .run => 1 | .wait => 2 | .faulted => 3 | .loading => 4

/-- SEQ_STATUS (04 R78). -/
def Seq.statusWord (s : Seq) : Word := pack [(s.slot.toNat, 20), (s.st.code, 16), (s.pc.toNat, 0)]

/-- One byte of the tile register block (04 R77). -/
def Device.tileRegByte (d : Device) (t off : Nat) : Byte :=
  let x := d.tile t
  if 0x1E0000 ≤ off then BitVec.ofNat 8 ((Sparse.get 0 x.imem ((off - 0x1E0000) / 8)).toNat >>> (8 * (off % 8)))
  else
    let w : Word :=
      match off / 8 * 8 with
      | 0x1C0000 => x.seq.statusWord
      | 0x1C0008 => x.seq.ss
      | 0x1C0010 => x.seq.fault.word
      | 0x1C0400 => x.arr.repairWord
      | 0x1C0408 => x.arr.stateWord d.pwr
      | _ => 0
    BitVec.ofNat 8 (w.toNat >>> (8 * (off % 8)))

/-- One byte of a tile window as a request from outside reads it (01 R21). -/
def Device.tileByte (d : Device) (t off : Nat) : Byte :=
  if off < 0x140000 then (d.tile t).mem.byte off
  else if off < 0x180000 then 0
  else if off < 0x1C0000 then Selector.windowByte (d.tile t).sel t (off - 0x180000)
  else d.tileRegByte t off

/-- A range of a tile window holds a double-bit error (04 R76, R108). -/
def Tile.badIn (x : Tile) (off n : Nat) : Bool := x.badWords.any (fun w => decide (off < 8 * w + 8) && decide (8 * w < off + n))

/-! ## Frond controller, memory controller, router, bridge -/

/-- QSTAT (06 R156). -/
def HQueue.stat (q : HQueue) : Word :=
  pack [(b2n q.owner.isSome, 33), ((q.owner.map (·.2)).getD 0, 16), (q.parked.length, 10), (q.entries.length, 0)]

def McState.code : McState → Nat
  | .off => 0 | .training => 1 | .run => 2 | .frozen => 3 | .selfRefresh => 4

/-- MC_STATUS (10 R277). -/
def MemCtl.statusWord (m : MemCtl) : Word :=
  pack [(m.temp.toNat, 40), (m.trainTemp.toNat, 32), (m.trained.toNat, 8), (b2n m.hot, 7),
        (b2n (((List.range 4).any fun c => (m.chan c).readq.any (·.panic)) || m.waitW.any Packet.panic), 6), (m.st.code, 0)]

/-- A memory controller's registers (10 R277). -/
def MemCtl.reg (m : MemCtl) (off : Nat) : Word :=
  if off = 0 then m.statusWord
  else if off = 8 then pack [(m.frzCause, 56), (m.frzChannel, 54), (m.frzAddr, 0)]
  else if off = 0x10 then pack [(m.heldAddrs.length, 32), (m.symbol.toNat, 24), (m.syndrome.toNat, 0)]
  else if off = 0x18 then pack [(m.passes.toNat, 32), (m.pos.toNat, 0)]
  else if 0x1000 ≤ off ∧ off < 0x1400 then
    let e := m.history.getD ((off - 0x1000) / 16) (0, 0)
    if off % 16 = 0 then e.1 else e.2
  else if 0x2000 ≤ off ∧ off < 0x4000 then BitVec.ofNat 64 (m.heldAddrs.getD ((off - 0x2000) / 8) 0)
  else 0

/-- A power state as DOM_FROND and DOM_OTHER report it (13 R354): a domain on its way reads as the state it leaves until it has arrived; where a wake has
reversed an entry, as the state whose wake time counts (13 R339). -/
def Dom.code : Dom → Nat
  | .run => 0 | .enterDamp => 0 | .enterDry was => if was then 1 else 0 | .damp => 1 | .dry => 2 | .waking deep => if deep then 2 else 1 | .off => 3

/-- The state of a domain with its unit's fuse (13 R337). -/
def Device.domCode (d : Device) (on : Bool) (key : Nat) : Nat := if on then (d.dom key).code else 3

/-- RTR_STATE (09 R249). -/
def Device.rtrState (d : Device) (r : Nat) : Word :=
  let x := d.router r
  let held := fun (lp : Nat) => ((List.range 8).filter fun v => (Sparse.find x.held (8 * lp + v)).isSome).foldl (fun a v => a + 2 ^ v) 0
  let panic := ((List.range 6).filter fun i => (List.range 8).any fun v => (Sparse.get [] x.inq (8 * i + v)).any Packet.panic).foldl
    (fun a i => a + 2 ^ i) 0
  pack [(d.domCode true (domRouter (rtrDie r) (rtrRow r)), 32), (held 1, 16), (held 0, 8), (panic, 0)]

/-- A counter in the RTR_REPLAY form (09 R249). -/
def Counter.reg (c : Counter) : Word := pack [(b2n c.ovf, 48), (c.value.toNat, 0)]

/-- Router and input port of the receiving end of bridge link n of die k (09 R250). -/
def bridgeEnd (k n : Nat) : Nat × Nat :=
  if n < 8 then (routerAt k 0 n, 0)
  else if n < 16 then (routerAt k 5 (n - 8), 1)
  else if n < 22 then (routerAt k (n - 16) 0, 2)
  else (routerAt k (n - 22) 7, 3)

/-! ## Fabric -/

def RegState.code : RegState → Nat
  | .off => 0 | .blank => 1 | .writing => 3 | .starting => 4 | .active => 5 | .clearing => 6

/-- REGION_STATE (12 R333). -/
def Region.word (g : Region) (st : Nat) : Word :=
  pack [(g.period.toNat, 32), (b2n g.readbackOk, 11), (b2n g.captureOk, 10), (b2n g.enc, 9), (b2n g.captured, 8), (b2n g.unverified, 7),
        (b2n g.paused, 6), (g.fclk.toNat, 4), (st, 0)]

/-- The region a load of one patch works on. -/
def Load.region (l : Load) : Option Nat :=
  match l.kind with
  | .full => none
  | .patch p => some (9 * (p / 8) + p % 8)
  | .clear p => some (9 * (p / 8) + p % 8)

/-- REGION_STATE.STATE of region g (12 R333). -/
def Device.regionCode (d : Device) (g : Nat) : Nat :=
  if !d.regionOn g then 0
  else if d.fab.loads.any (fun l => decide (l.region = some g) && decide (l.phase = .verifying)) then 2
  else (d.region g).st.code

/-- CC_STATUS (12 R333): the command being served on the die; a whole-die load names no region. READBACK and rebuild are one act here, and so are never seen
under way. -/
def Device.ccStatus (d : Device) (k : Nat) : Word :=
  let l := d.fab.loads.find? (fun l => l.die == k)
  let c := d.fab.captures.find? (fun c => c.2.2 / 9 == k)
  let x := match l.map (·.kind) with
    | some .full => (15, 1)
    | some (.patch p) => (p % 8, 2)
    | some (.clear p) => (p % 8, 3)
    | none => match c with
      | some c => (c.2.2 % 9, 5)
      | none => (15, 0)
  pack [(b2n (has d.fab.stalled k), 16), (x.1, 8), (x.2, 0)]

/-- The region of a fabric port: n = 2p or 2p + 1 for a patch, 16 or 17 for the static region of die k (11 R298). -/
def fportRegion (k n : Nat) : Nat := 9 * k + (if n < 16 then n / 2 else 8)

/-- Router and local port of fabric port n of die k (11 R298, 01 R18), as a key 2*router + port. -/
def fportKey (k n : Nat) : Nat :=
  2 * (if n < 16 then patchRouter (8 * k + n / 2) (n % 2 == 1) else staticRouter k (n % 2 == 1)) + 1

/-- SPECV passes for a patch's ports: some active RUN sets its SPEC_AWARE bit (11 R294). -/
def Device.specAware (d : Device) (p : Nat) : Bool := d.sched.runs.any (fun r => bitAt r.specAware p)

/-- Logic is started in a region and its outputs are released (01 R22, 11 R290). -/
def Device.regionLive (d : Device) (g : Nat) : Bool :=
  let x := d.region g
  d.regionOn g && !x.isolated && x.lock

/-- The registers of a fabric port (11 R298). -/
def Device.fportReg (d : Device) (k n off : Nat) : Word :=
  let x := d.fport (fportKey k n)
  let g := d.region (fportRegion k n)
  let on := d.regionOn (fportRegion k n)
  let out := (x.iq.filter IqEntry.live).length
  if off = 0 then
    let st := if !on then 0 else if d.regionLive (fportRegion k n) then 3 else if g.st = .blank then 1 else 2
    pack [(min 255 out, 32), (b2n (decide (256 ≤ out)), 31), (x.tq.length, 24),
          (b2n (decide (n < 16) && d.specAware (8 * k + n / 2)), 9), (b2n (g.sleepOk && n % 2 == 0), 8),
          ((if n < 16 then d.domCode on (domPatch (8 * k + n / 2)) else 0), 6), (g.fclk.toNat, 4), (b2n g.lock, 3), (st, 0)]
  else if off = 8 then BitVec.ofNat 64 x.tgtTimeout.toNat
  else if off = 0x10 then x.timeouts.reg
  else if off = 0x18 then x.late.reg
  else if off = 0x20 then x.lockLoss.reg
  else 0

/-- The configuration controller's registers of die k (12 R333). -/
def Device.ccReg (d : Device) (k off : Nat) : Word :=
  if off = 0 then d.ccStatus k
  else if 0x100 ≤ off ∧ off < 0x148 then (d.region (9 * k + (off - 0x100) / 8)).word (d.regionCode (9 * k + (off - 0x100) / 8))
  else if 0x200 ≤ off ∧ off < 0x248 then BitVec.ofNat 64 (d.region (9 * k + (off - 0x200) / 8)).passes.toNat
  else if 0x80000 ≤ off ∧ off < 0x81200 then d.fportReg k ((off - 0x80000) / 0x100) (off % 0x100)
  else 0

/-! ## Links, die manager, reset controller, security core -/

/-- Training states as TSTATE reports them (16 R405): 0 DETECT to 7 DISABLED. -/
def Train.code : Train → Nat
  | .detect => 0 | .acquire => 1 | .equalize => 2 | .align => 3 | .param => 4 | .admitted => 5 | .run => 6 | .disabled => 7

def LPow.code : LPow → Nat
  | .run => 0 | .damp => 1 | .dry => 2

/-- A port in RUN; one that is coming back from L-DRY counts, since its traffic only waits (16 R409). -/
def Link.inRun (l : Link) : Bool := decide (l.st = .run) || l.fromDry

/-- Direction k is down: none of its enabled ports is in RUN (16 R397, R416). -/
def Device.dirDown (d : Device) (k : Nat) : Bool := !([2 * k, 2 * k + 1].any fun n => d.linkOn n && (d.link n).inRun)

/-- The registers of link engine n (16 R422). -/
def Device.linkReg (d : Device) (n off : Nat) : Word :=
  let l := d.link n
  if !d.linkOn n then 0
  else if off = 0 then
    pack [(l.partner.toNat, 28), (b2n l.pvalid, 27), (b2n d.bad.addr.isSome, 26), (b2n l.miscabled, 25), (b2n (d.dirDown (n / 2)), 24), (l.lanes.toNat, 16),
          (max l.txPow.code l.rxPow.code, 12), (b2n l.allowed, 11), (b2n l.panic, 10), (l.lastDown, 4), (l.st.code, 0)]
  else if off = 8 then
    pack ((l.iter.toNat, 48) :: ((l.taps.zip [32, 24, 16, 8, 0]).map fun e => (wrapInt 8 e.1, e.2)))
  else if off = 0x10 then l.lostRacks.reg
  else 0

/-- BU_STATUS (14 R380). -/
def Device.buStatus (d : Device) (k : Nat) : Word :=
  pack [((d.buDie k).discrep.toNat, 32), ((d.buDie k).holdCause, 24), (d.boot.step, 8), (b2n d.boot.warm, 0)]

/-- CENSUS (14 R380). -/
def Device.censusWord (d : Device) (k : Nat) : Word :=
  let b := d.buDie k
  pack [(b.missing.toNat, 40), (b.extra.toNat, 32), (b.firstU.toNat, 24), (b.firstV.toNat, 20), (b.firstPort.toNat, 16), (b.passes.toNat, 8),
        (b2n b.agree, 0)]

/-- TILE_DIV of die k (13 R354): before READY the largest divider among its fronds in RUN. -/
def Device.tileDivWord (d : Device) (k : Nat) : Nat :=
  if d.rst.st = .ready ∨ d.rst.st = .diagHold then d.pwr.div
  else
    let fs := (d.frondsOf k).filter (fun f => decide (d.dom (domFrond f) = .run))
    fs.foldl (fun a f => max a (max (d.frond f).baseDiv d.pwr.div)) 2

/-- The RCP registers of die k (13 R354). -/
def Device.rcpReg (d : Device) (k off : Nat) : Word :=
  if off = 0 then
    pack [(d.tileDivWord k, 24), (b2n (decide (2 < d.pwr.hDemand)), 17), (b2n (decide (2 < d.pwr.pDemand)), 16), (b2n (has d.pwr.pll k), 8)]
  else if off = 8 then d.time k
  else if off = 0x10 then
    pack ((List.range 24).map fun f => (d.domCode (d.frondOn (24 * k + f)) (domFrond (24 * k + f)), 2 * f))
  else if off = 0x18 then
    let mcg := (List.range 3).map fun r =>
      (d.domCode ((upFrom (24 * k + 8 * r) 8).any d.mcOn) (domMc (24 * k + 8 * r)), 2 * r)
    let pat := (List.range 8).map fun p => (d.domCode (d.patchOn (8 * k + p)) (domPatch (8 * k + p)), 16 + 2 * p)
    let lnk := (List.range 2).map fun i =>
      let l := d.link (2 * k + i)
      ((if d.linkOn (2 * k + i) then max l.txPow.code l.rxPow.code else 3), 32 + 2 * i)
    let rtr := (List.range 8).map fun v => (d.domCode true (domRouter k v), 48 + 2 * v)
    pack (mcg ++ pat ++ lnk ++ rtr)
  else if off = 0x20 then
    let hot := (d.mcsOf k).foldl (fun a m => max a (d.mc m).temp.toNat) 0
    pack [(hot, 24), (Sparse.get 0 d.pwr.tj k, 8), (b2n (has d.pwr.hot k), 1), (b2n (has d.pwr.warn k), 0)]
  else 0

/-- The security version counter: bits blown (17 R434). -/
def Device.svc (d : Device) : Nat := popCount d.fuses.svcBits.toNat

/-- SEC_STATUS of die k (17 R440). -/
def Device.secStatus (d : Device) (k : Nat) : Word :=
  pack [(d.svc, 24), (min 255 d.fuses.fuseFix, 13), (b2n (d.sec.recovery && k == 0), 12), (b2n (d.sec.identity && k == 0), 11),
        (b2n (!d.fuses.ownerAes.isEmpty), 10), (b2n (!d.fuses.ownerHash.isEmpty), 9), (b2n (d.sec.session != 0), 8),
        (b2n (has d.sec.slotB k), 1), (b2n (has d.sec.fwOk k), 0)]

/-! ## Unit control -/

/-- The 64-bit register at an offset, a multiple of 8, of die k's unit-control block (01 R23); a fused-off unit's block reads 0. -/
def Device.ctlRead (d : Device) (k off : Nat) : Word :=
  if off < 0x1800000 then
    let f := 24 * k + off / 0x100000
    let o := off % 0x100000
    if d.frondOn f ∧ 0x80000 ≤ o ∧ o < 0x80200 then (d.hq (64 * f + (o - 0x80000) / 8)).stat else 0
  else if 0x2000000 ≤ off ∧ off < 0x2180000 then
    let m := 24 * k + (off - 0x2000000) / 0x10000
    if d.mcOn m then (d.mc m).reg (off % 0x10000) else 0
  else if 0x3000000 ≤ off ∧ off < 0x3030000 then
    let uv := (off - 0x3000000) / 0x1000
    let r := routerAt k (uv / 8) (uv % 8)
    match off % 0x1000 with
    | 0 => d.rtrState r
    | 8 => (d.router r).replays.reg
    | 0x10 => (d.router r).unmappedCount.reg
    | _ => 0
  else if 0x3100000 ≤ off ∧ off < 0x31000E0 then
    let e := bridgeEnd k ((off - 0x3100000) / 8)
    (Sparse.get Counter.zero (d.router e.1).bridgeReplays e.2).reg
  else if 0x4000000 ≤ off ∧ off < 0x4100000 then d.ccReg k (off - 0x4000000)
  else if 0x5000000 ≤ off ∧ off < 0x5100000 then d.linkReg (2 * k) (off - 0x5000000)
  else if 0x5100000 ≤ off ∧ off < 0x5200000 then d.linkReg (2 * k + 1) (off - 0x5100000)
  else if off = 0x6000000 then d.buStatus k
  else if off = 0x6000008 then d.censusWord k
  else if 0x7000000 ≤ off ∧ off < 0x7100000 then d.rcpReg k (off - 0x7000000)
  else if off = 0x8000000 then d.secStatus k
  else 0

/-- Words of unit control from an internal address on (01 R23); beyond the range, 0. -/
def Device.ctlReads (d : Device) (a : Nat) : Nat → List Word
  | 0 => []
  | n + 1 =>
    (match placeOf a with
     | .unit k off => d.ctlRead k off
     | _ => 0) :: Device.ctlReads d (a + 8) n

end Sys2Proof.Machine
end

