-- ==== Sys2Proof/Machine/Net.lean ====
section
/-! DEFINITION. The package network: links and flits (09 R229-R232), routing (R237, R238), arbitration (R240), multicast (R242-R244), wake on
packet (R245, R247), injection and the unmapped responder (R236), and what a unit does with a packet that needs no event of its own. -/

namespace Sys2Proof.Machine

/-! ## Links -/

/-- The router behind torus output o: 0 X-, 1 X+, 2 Y-, 3 Y+ (09 R229). -/
def neighbour (r o : Nat) : Nat :=
  let x := r % 12
  let y := r / 12
  match o with
  | 0 => 12 * y + (x + 11) % 12
  | 1 => 12 * y + (x + 1) % 12
  | 2 => 12 * ((y + 31) % 32) + x
  | _ => 12 * ((y + 1) % 32) + x

/-- The input port a link from output o arrives at. -/
def facing (o : Nat) : Nat :=
  match o with
  | 0 => 1 | 1 => 0 | 2 => 3 | _ => 2

/-- The link from output o is a wrap link (09 R229). -/
def isWrap (r o : Nat) : Bool :=
  match o with
  | 0 => r % 12 == 0
  | 1 => r % 12 == 11
  | 2 => r / 12 == 0
  | _ => r / 12 == 31

/-- The link from output o is a bridge (01 R17). -/
def isBridge (r o : Nat) : Bool := rtrDie r != rtrDie (neighbour r o)

/-- Buffer of a virtual channel behind output o, in flits (09 R230). -/
def vcDepth (r o : Nat) : Nat := if isBridge r o then 16 else 8

/-- A counter in the RTR_REPLAY form counts one: OVF is set when COUNT reaches all ones (09 R249). -/
def Counter.incReg (c : Counter) : Counter :=
  let v := if c.value = BitVec.allOnes 48 then c.value else c.value + 1
  ⟨v, c.ovf || decide (v = BitVec.allOnes 48)⟩

/-! ## Routing of unicast packets (09 R237) -/

/-- Hops in the negative and in the positive direction of a ring of n; the shorter way, negative on a tie. -/
def ringHops (n a b : Nat) : Nat × Nat :=
  let neg := (a + n - b) % n
  let pos := (b + n - a) % n
  if neg ≤ pos then (neg, 0) else (0, pos)

/-- The outputs a unicast packet may take next at router r; a local port when it has arrived (local outputs are 4 and 5). -/
def routeOut (r : Nat) (p : Packet) : List Nat :=
  let h := ringHops 12 (r % 12) p.dx
  let v := ringHops 32 (r / 12) p.dy
  let mgt := classOf p.type == 3
  if h.1 = 0 ∧ h.2 = 0 ∧ v.1 = 0 ∧ v.2 = 0 then [4 + p.dp]
  else if h.1 ≠ 0 ∨ v.1 ≠ 0 then
    (if v.1 = 0 then [0] else if h.1 = 0 then [2] else if mgt ∨ r / 12 < v.1 then [0] else [0, 2])
  else
    (if v.2 = 0 then [1] else if h.2 = 0 then [3] else if mgt ∨ 32 ≤ r / 12 + v.2 then [1] else [1, 3])

/-- The packet as it crosses output o: a wrap link sets its dateline bit (09 R238). -/
def crossing (r o : Nat) (p : Packet) : Packet :=
  if isWrap r o then p.setHdr (if o < 2 then 58 else 57) 1 1 else p

/-- The virtual channel of a packet on an X link (o below 2) or a Y link (09 R230, R238). -/
def vcOn (o : Nat) (p : Packet) : Nat := 2 * classOf p.type + b2n (if o < 2 then p.dlx else p.dly)

/-- Free credits of a virtual channel behind output o. -/
def Device.credits (d : Device) (r o vc : Nat) : Nat := vcDepth r o - Sparse.get 0 (d.router r).used (8 * o + vc)

/-- The output a unicast packet asks for: with two, the one with more free credits, X when they are equal (09 R237). -/
def Device.chooseOut (d : Device) (r : Nat) (p : Packet) : Nat :=
  match routeOut r p with
  | [a, b] =>
    let ca := d.credits r a (vcOn a (crossing r a p))
    let cb := d.credits r b (vcOn b (crossing r b p))
    if ca < cb then b else a
  | l => l.headD 4

/-! ## Multicast (09 R242) -/

def Packet.mx0 (p : Packet) : Nat := p.dx
def Packet.my0 (p : Packet) : Nat := p.dy
def Packet.mx1 (p : Packet) : Nat := fld p.hdr 31 4
def Packet.my1 (p : Packet) : Nat := fld p.hdr 26 5
def Packet.mkind (p : Packet) : Nat := fld p.hdr 22 4
def Packet.mtag (p : Packet) : BitVec 22 := BitVec.ofNat 22 (fld p.hdr 0 22)

/-- A multicast that came from input port i is on its way along the rectangle: it moves in a positive direction. -/
def alongRect (i : Nat) : Bool := i == 0 || i == 2

/-- The packet as the router of its corner sends it on: both dateline bits cleared. -/
def Packet.atCorner (p : Packet) : Packet := (p.setHdr 58 1 0).setHdr 57 1 0

/-- What a router does with a multicast from input i: the torus outputs of its copies, whether it delivers here, and the packet it copies. -/
def mcastOut (r i : Nat) (p : Packet) : List Nat × Bool × Packet :=
  let x := r % 12
  let y := r / 12
  if !alongRect i && x != p.mx0 then ([0], false, p)
  else if !alongRect i && y != p.my0 then ([2], false, p)
  else
    let q := if alongRect i then p else p.atCorner
    ((if i != 2 && x != p.mx1 then [1] else []) ++ (if y != p.my1 then [3] else []), true, q)

/-- The local ports of a router that a multicast of a KIND reaches (09 R243). -/
def mcastPorts (r kind : Nat) : List Nat :=
  [0, 1].filter fun lp =>
    match unitAt r lp, kind with
    | .frond _, 0 => true
    | .mc _, 1 => true
    | .patch _ _, 2 => true
    | .static _ _, 2 => true
    | .link _, 3 => true
    | .dieMgr _, 4 => true
    | .config _, 5 => true
    | _, _ => false

/-! ## Delivery -/

/-- The power domain a unit lies in; none for the always-on domain (13 R337). -/
def domainOf : UnitAt → Option Nat
  | .frond f => some (domFrond f)
  | .mc m => some (domMc m)
  | .patch p _ => some (domPatch p)
  | _ => none

/-- The unit's domain is in RUN. -/
def Device.awake (d : Device) (u : UnitAt) : Bool :=
  match domainOf u with
  | some k => decide (d.dom k = .run)
  | none => true

/-- Wake asserted for a domain (09 R245, 13 R339): an entry under way is reversed. -/
def Device.wakeDom (d : Device) (k : Nat) : Device :=
  match d.dom k with
  | .enterDamp => d.setDom k (.waking false)
  | .enterDry _ => d.setDom k (.waking true)
  | .damp => d.setDom k (.waking false)
  | .dry => d.setDom k (.waking true)
  | _ => d

/-- The region of a fabric port's unit. -/
def regionAt : UnitAt → Nat
  | .patch p _ => 9 * (p / 8) + p % 8
  | .static k _ => 9 * k + 8
  | _ => 0

/-- A packet joins the inbox of a local port. -/
def Device.toInbox (d : Device) (at_ : PortId) (p : Packet) : Device := d.setInbox at_ (d.inboxOf at_ ++ [p])

/-- An access to a tile window that arrives at frond f (01 R21, 04 R78, 05 R130). -/
def Device.tileAccess (d : Device) (at_ : PortId) (p : Packet) : Device :=
  if p.type == tREAD then
    match placeOf p.readAddr with
    | .tile t off =>
      if (d.tile t).badIn off p.readLen then
        d.send at_ (mkRdResp p.hdr at_ Status.memoryUncorrectable.code (poisonData p.readAddr p.readLen))
      else d.send at_ (mkRdResp p.hdr at_ 0 ((upFrom off p.readLen).map (d.tileByte t)))
    | _ => d.send at_ (mkRdResp p.hdr at_ Status.invalidParam.code (poisonData p.readAddr p.readLen))
  else
    match placeOf (p.writeAddr 16) with
    | .tile t off =>
      if off < 0x140000 then
        (d.modTile t fun x => { x with
          mem := x.mem.writeMask off (p.wdata.zip p.wmask)
          badWords := x.badWords.filter fun u => !wholeIn off p.wmask u }).send at_ (mkWrAck p.hdr at_ 0)
      else d.send at_ (mkWrAck p.hdr at_ Status.invalidParam.code)
    | _ => d.send at_ (mkWrAck p.hdr at_ Status.invalidParam.code)

/-- A register access (09 R234): every register is read-only, so a write changes nothing; both succeed (01 R23). -/
def Device.regAccess (d : Device) (at_ : PortId) (p : Packet) : Device :=
  if p.type == tMREAD then
    d.send at_ (mkRdResp p.hdr at_ 0 ((d.ctlReads (fld p.word0 0 44) (fld p.word0 48 3 + 1)).flatMap fun w => leBytes 8 w.toNat))
  else d.send at_ (mkWrAck p.hdr at_ 0)

/-- The TTAG of a new request: the lowest that is neither outstanding nor owed a late answer, else the one owed longest (11 R295; log entry 116). -/
def FPort.freeTag (x : FPort) : BitVec 6 :=
  match (List.range 64).find? fun t => !x.tq.any (fun q => q.ttag.toNat == t) && !x.lateTags.any (fun q => q.toNat == t) with
  | some t => BitVec.ofNat 6 t
  | none => x.lateTags.headD 0

/-- The beats of a target request on TQ: OFFSET within the port's half of the window (11 R292, R295, 01 R22). -/
def Packet.tqBeats (p : Packet) (ttag : BitVec 6) (off : Nat) : List TqBeat :=
  let o := BitVec.ofNat 27 off
  if p.type == tREAD then [.read ttag o (BitVec.ofNat 3 (fld p.word0 44 3))]
  else if p.type == tWRITEM then [.writem ttag o (p.pay.headD 0) (BitVec.ofNat 128 (p.pay.getD 1 0).toNat)]
  else p.pay.zipIdx.map fun e => .write ttag o (BitVec.ofNat 3 (p.flits - 1)) e.1 (e.2 + 1 == p.pay.length)

/-- A beat of a multicast. -/
def TqBeat.isMcast : TqBeat → Bool
  | .mcast _ _ => true
  | _ => false

/-- Answer beats of a target request (11 R295). -/
def Packet.beats (p : Packet) : Nat := if p.type == tREAD then (p.readLen + 127) / 128 else 1

/-- An answer the port gives to a target request itself: NOT_READY, TIMEOUT (11 R295, R296). -/
def Device.portAnswer (d : Device) (at_ : PortId) (p : Packet) (st : Status) : Device :=
  if p.type == tREAD then d.send at_ (mkRdResp p.hdr at_ st.code (poisonData p.readAddr p.readLen))
  else d.send at_ (mkWrAck p.hdr at_ st.code)

/-- A target request reaches a fabric port (01 R22, 11 R295, R296). -/
def Device.targetRequest (d : Device) (u : UnitAt) (at_ : PortId) (p : Packet) : Device :=
  if d.regionLive (regionAt u) then
    let n := 2 * at_.r + at_.lp
    let x := d.fport n
    let tag := x.freeTag
    let a := if p.type == tREAD then p.readAddr else p.writeAddr 0
    d.setFport n { x with
      tq := x.tq ++ [⟨tag, p, [], p.beats, none⟩]
      lateTags := x.lateTags.filter fun y => y != tag
      tqOut := x.tqOut ++ p.tqBeats tag (a % 0x8000000) }
  else d.portAnswer at_ p .notReady

/-- The lines of an access to DRAM that lie in host-bias pages (15 R389); the host's own accesses wait for none. -/
def Device.biasLines (d : Device) (p : Packet) (m : Nat) : List Nat :=
  if d.hostCaches && !(p.sx == 0 && p.sy == 7 && p.sp == 1) then
    let a := if p.type == tREAD then p.readAddr else p.writeAddr (m / 24)
    let n := if p.type == tREAD then p.readLen else 128 * (if p.type == tWRITEM then 1 else p.flits)
    (upFrom (a / 64) (n / 64)).filter d.lineBiased
  else []

/-- A unicast packet leaves the network at a local port. -/
def Device.deliver (d : Device) (at_ : PortId) (p : Packet) : Device :=
  let ty := p.type
  if ty == tMREAD || ty == tMWRITE then d.regAccess at_ p
  else if ty == tREAD || ty == tWRITE || ty == tWRITEM then
    match unitAt at_.r at_.lp with
    | .frond _ => d.tileAccess at_ p
    | .patch k b => d.targetRequest (.patch k b) at_ p
    | .static k b => d.targetRequest (.static k b) at_ p
    | .mc m =>
      let ls := d.biasLines p m
      if ls.isEmpty then d.toInbox at_ p else d.modRouter at_.r fun r => { r with coher := r.coher ++ [(p, ls)] }
    | _ => d.toInbox at_ p
  else if ty == tCTRL then
    match unitAt at_.r at_.lp with
    | .link n => d.modLink n fun l => { l with ctrl := l.ctrl ++ [(fld p.hdr 32 3, p)] }
    | _ => d.toInbox at_ p
  else d.toInbox at_ p

/-- A local output can take a packet of virtual channel vc now, or hold it for wake. -/
def Device.localRoom (d : Device) (r lp vc : Nat) (p : Packet) : Bool :=
  let u := unitAt r lp
  (Sparse.find (d.router r).held (8 * lp + vc)).isNone &&
  (match u with
   | .patch _ _ => decide (classOf p.type ≠ 0) || !d.regionLive (regionAt u) || decide ((d.fport (2 * r + lp)).tq.length < 64)
   | .static _ _ => decide (classOf p.type ≠ 0) || !d.regionLive (regionAt u) || decide ((d.fport (2 * r + lp)).tq.length < 64)
   | _ => true)

/-- A unicast packet of virtual channel vc takes a local output: it is delivered, or held while the unit's domain wakes (09 R245). -/
def Device.arrive (d : Device) (r lp vc : Nat) (p : Packet) : Device :=
  let u := unitAt r lp
  if d.awake u then d.deliver ⟨r, lp⟩ p
  else
    let d := d.modRouter r fun x => { x with held := Sparse.ins x.held (8 * lp + vc) p }
    match domainOf u with
    | some k => d.wakeDom k
    | none => d

/-- A multicast enters the receive buffer of a fabric port whose logic is started; false where it finds no room (09 R244, 11 R295). -/
def Device.mcastPort (d : Device) (n : Nat) (u : UnitAt) (p : Packet) : Option Device :=
  let x := d.fport n
  if d.regionLive (regionAt u) && decide ((x.tqOut.filter TqBeat.isMcast).length < 4) then
    some (d.setFport n { x with tqOut := x.tqOut ++ [.mcast p.mtag (p.pay.headD 0)] })
  else none

/-- A multicast reaches one local port (09 R243, R244). -/
def Device.mcastArrive (d : Device) (r : Nat) (p : Packet) (lp : Nat) : Device :=
  let u := unitAt r lp
  let at_ : PortId := ⟨r, lp⟩
  let drop := d.bump 0x30 (rtrDie r) 1
  if !d.present u then d
  else if !d.awake u then drop
  else
    match u with
    | .frond f => if (d.frond f).mcBuf.length < 4 then d.modFrond f fun x => { x with mcBuf := x.mcBuf ++ [p] } else drop
    | .patch _ _ => (d.mcastPort (2 * r + lp) u p).getD drop
    | .static _ _ => (d.mcastPort (2 * r + lp) u p).getD drop
    | _ => if ((d.inboxOf at_).filter (fun q => q.type == tMCAST)).length < 4 then d.toInbox at_ p else drop

/-! ## Sending over a link -/

/-- The flit with payload x of packet p, with its check (09 R231, R232). -/
def mkFlit (hdr : Word) (x : BitVec 1024) : BitVec 1120 :=
  BitVec.ofNat 1120 (hdr.toNat + (x.toNat <<< 64) +
    ((crc32c (leBytes 8 hdr.toNat ++ leBytes 128 x.toNat)).toNat <<< 1088))

/-- The last n elements. -/
def lastN {α : Type} (n : Nat) (l : List α) : List α := l.drop (l.length - n)

/-- Flits a sender keeps for a replay (09 R231). -/
def keptFlits (r o : Nat) : Nat := if isBridge r o then 64 else 32

/-- A packet crosses output o of router r: its flits go onto the link, and their credits are in use (09 R230, R231). -/
def Device.sendFlits (d : Device) (r o : Nat) (p : Packet) : Device :=
  let q := crossing r o p
  let fl := q.pay.map (mkFlit q.hdr)
  let k := 8 * o + vcOn o q
  let i := facing o
  let d := d.modRouter r fun x => { x with used := Sparse.put 0 x.used k (Sparse.get 0 x.used k + fl.length) }
  d.modRouter (neighbour r o) fun x => { x with
    wire := Sparse.put [] x.wire i (Sparse.get [] x.wire i ++ fl)
    sent := Sparse.put [] x.sent i (lastN (keptFlits r o) (Sparse.get [] x.sent i ++ fl)) }

/-- Output o has room for the whole packet, no replay is owed on its link, and every flit on the link stays among those the sender keeps (09 R230, R231;
log entry 24). -/
def Device.linkRoom (d : Device) (r o : Nat) (p : Packet) : Bool :=
  let q := crossing r o p
  let x := d.router (neighbour r o)
  decide (q.flits ≤ d.credits r o (vcOn o q)) && Sparse.get 0 x.replay (facing o) == 0 &&
    decide ((Sparse.get [] x.wire (facing o)).length + q.flits ≤ keptFlits r o)

/-! ## Arbitration (09 R240) -/

/-- The output a packet at input key k asks for: a multicast is granted at the first output of its fork; 6 stands for one that only delivers. -/
def Device.wantOut (d : Device) (r k : Nat) (p : Packet) : Nat :=
  if p.type == tMCAST then (mcastOut r (k / 8) p).1.headD 6 else d.chooseOut r p

/-- Every output the packet needs has room. -/
def Device.canGo (d : Device) (r k : Nat) (p : Packet) : Bool :=
  if p.type == tMCAST then
    let m := mcastOut r (k / 8) p
    m.1.all fun o => d.linkRoom r o m.2.2
  else
    let o := d.chooseOut r p
    if o < 4 then d.linkRoom r o p else d.localRoom r (o - 4) (k % 8) p

/-- The head packets waiting for output o with room for them, by input key. -/
def Device.askers (d : Device) (r o : Nat) : List (Nat × Packet) :=
  (d.router r).inq.filterMap fun (e : Nat × List Packet) =>
    match e.2 with
    | [] => none
    | p :: _ => if d.wantOut r e.1 p = o && d.canGo r e.1 p then some (e.1, p) else none

/-- The first one in turn after key k. -/
def afterKey (k : Nat) (l : List (Nat × Packet)) : Option (Nat × Packet) :=
  (l.find? (fun e => decide (k < e.1))).or l.head?

/-- A packet leaves its input: its credits are owed to the sender behind a torus input, and its place's count of passings starts again. -/
def Device.popInput (d : Device) (r k : Nat) (p : Packet) : Device :=
  d.modRouter r fun x => { x with
    inq := Sparse.put [] x.inq k ((Sparse.get [] x.inq k).drop 1)
    passed := Sparse.put 0 x.passed k 0
    owed := if k < 32 then Sparse.put 0 x.owed k (Sparse.get 0 x.owed k + p.flits) else x.owed }

/-- The packet with its output granted. -/
def Device.moveOn (d : Device) (r k : Nat) (p : Packet) : Device :=
  let d := d.popInput r k p
  if p.type == tMCAST then
    let m := mcastOut r (k / 8) p
    let d := m.1.foldl (fun d o => d.sendFlits r o m.2.2) d
    if m.2.1 then (mcastPorts r p.mkind).foldl (fun d lp => d.mcastArrive r m.2.2 lp) d else d
  else
    let o := d.chooseOut r p
    if o < 4 then d.sendFlits r o p else d.arrive r (o - 4) (k % 8) p

/-- The packets one grant is made among: those without PANIC that have been passed over 16 times in a row, else those with PANIC, else all (09 R240). -/
def Router.pool (x : Router) (l : List (Nat × Packet)) : List (Nat × Packet) :=
  let late := l.filter fun e => !e.2.panic && decide (16 ≤ Sparse.get 0 x.passed e.1)
  let hi := l.filter fun e => e.2.panic
  if !late.isEmpty then late else if !hi.isEmpty then hi else l

/-- Each packet without PANIC that waited for the output and did not get it has been passed over once more (09 R240). -/
def Router.passOver (x : Router) (k : Nat) (l : List (Nat × Packet)) : Router :=
  l.foldl (fun x e => if e.1 = k || e.2.panic then x else { x with passed := Sparse.put 0 x.passed e.1 (Sparse.get 0 x.passed e.1 + 1) }) x

/-- One grant at output o, in turn after the input granted last. -/
def Device.grant (d : Device) (r o : Nat) : Option Device :=
  let l := d.askers r o
  let x := d.router r
  match afterKey (Sparse.get 0 x.lastGrant o) (x.pool l) with
  | none => none
  | some (k, p) =>
    let d := d.modRouter r fun x => { x.passOver k l with lastGrant := Sparse.put 0 x.lastGrant o k }
    some (d.moveOn r k p)

/-- The first output that grants. -/
def Device.grantAny (d : Device) (r : Nat) : List Nat → Option Device
  | [] => none
  | o :: rest =>
    match d.grant r o with
    | some d' => some d'
    | none => Device.grantAny d r rest

/-- Grants until nothing more moves, unicasts to the local ports before multicasts (09 R244); the fuel bounds the packets waiting. -/
def Device.grants (r : Nat) : Nat → Device → Device
  | 0, d => d
  | n + 1, d =>
    match d.grantAny r [4, 5, 0, 1, 2, 3, 6] with
    | some d' => Device.grants r n d'
    | none => d

/-- Router r moves what it can. A router group in DAMP moves nothing until it has restarted (09 R247). -/
def Device.forward (d : Device) (r : Nat) : Device :=
  let k := domRouter (rtrDie r) (rtrRow r)
  if d.dom k = .run then
    Device.grants r (((d.router r).inq.map fun (e : Nat × List Packet) => e.2.length).sum) d
  else d.wakeDom k

/-! ## Events -/

/-- The unit of a port may reach unit control (01 R23). -/
def ctlSource (at_ : PortId) : Bool :=
  match unitAt at_.r at_.lp with
  | .dieMgr _ => true
  | .cmd => true
  | .sec _ => true
  | _ => false

/-- The destination written into a header. -/
def Packet.toPort (p : Packet) (at_ : PortId) : Packet :=
  ((p.setHdr 51 4 (at_.r % 12)).setHdr 46 5 (at_.r / 12)).setHdr 45 1 at_.lp

/-- The unit of a local port asserts PANIC: a link receive engine, or the CXL.mem path (09 R241, 10 R272). -/
def Device.panics (d : Device) (at_ : PortId) : Bool :=
  match unitAt at_.r at_.lp with
  | .link n => (d.link n).panic
  | .cxl => d.cxl.panic
  | _ => false

/-- A request carries the PANIC its source asserts when it is injected (09 R241); an answer copies its request's, and any other packet goes as it is. -/
def Packet.injected (p : Packet) (panic : Bool) : Packet :=
  if p.type == tREAD || p.type == tWRITE || p.type == tWRITEM || p.type == tHOP then p.setHdr 59 1 (b2n panic) else p

/-- The oldest packet of a local port is injected (09 R236, R241). A group in DAMP restarts (R247). -/
def packetInject (r lp : Nat) (d : Device) : Device :=
  match Sparse.get [] (d.router r).outbox lp with
  | [] => d
  | (a, p0) :: rest =>
    let p := p0.injected (d.panics ⟨r, lp⟩)
    let d := d.modRouter r fun x => { x with outbox := Sparse.put [] x.outbox lp rest }
    let put := fun (d : Device) (q : Packet) =>
      (d.modRouter r fun x =>
        let k := 8 * (4 + lp) + 2 * classOf q.type
        { x with inq := Sparse.put [] x.inq k (Sparse.get [] x.inq k ++ [q]) }).forward r
    let refuse := fun (d : Device) => (d.modRouter r fun x => { x with unmapped := x.unmapped ++ [p] }).forward r
    if p.type == tHOP then
      let q := fld (p.pay.headD 0) 16 14
      if q < 12288 && d.frondOn (q / 64) then put d (p.toPort ⟨frondRouter (q / 64), 0⟩) else refuse d
    else
      match a with
      | none => put d p
      | some a => if d.unmapped (ctlSource ⟨r, lp⟩) a then refuse d else put d (p.toPort (d.destOf a))

def execPacketInject (r lp : Nat) (s : State) : Host.Outcome State Fault Refusal :=
  runUnit (decide (r < nRouters) && decide (lp < 2)) (packetInject r lp) s

/-- The answer of the unmapped responder to a request (01 R24). -/
def Packet.refusal (p : Packet) : Packet :=
  let at_ := srcPort p.hdr
  let st := Status.invalidParam.code
  if p.type == tREAD then mkRdResp p.hdr at_ st (poisonData p.readAddr p.readLen)
  else if p.type == tMREAD then mkRdResp p.hdr at_ st (poisonData (fld p.word0 0 44) (8 * (fld p.word0 48 3 + 1)))
  else if p.type == tHOP then mkHresp p.hdr at_ st 0 0
  else mkWrAck p.hdr at_ st

/-- The unmapped responder answers its oldest request at the port that sent it (01 R24, 09 R236), on virtual channel 2 of that local output: it is
held there while the port's unit sleeps (09 R245). -/
def unmappedAnswer (r : Nat) (d : Device) : Device :=
  match (d.router r).unmapped with
  | [] => d
  | p :: rest =>
    let at_ := srcPort p.hdr
    if d.dom (domRouter (rtrDie r) (rtrRow r)) = .run ∧ (Sparse.find (d.router r).held (8 * at_.lp + 2)).isNone = true then
      (d.modRouter r fun x => { x with unmapped := rest, unmappedCount := x.unmappedCount.incReg }).arrive at_.r at_.lp 2 p.refusal
    else d

def execUnmappedAnswer (r : Nat) (s : State) : Host.Outcome State Fault Refusal := runUnit (decide (r < nRouters)) (unmappedAnswer r) s

/-- A flit reaches input port p of router r, with the bits err changed on the link (09 R231); it restarts a group in DAMP (R247). -/
def flitReceive (r p : Nat) (err : BitVec 1120) (d : Device) : Device :=
  let x := d.router r
  match Sparse.get [] x.wire p with
  | [] => d
  | f0 :: rest =>
    let d := d.wakeDom (domRouter (rtrDie r) (rtrRow r))
    let f := f0 ^^^ err
    let hdr : Word := BitVec.ofNat 64 (fld f 0 64)
    let pay : BitVec 1024 := BitVec.ofNat 1024 (fld f 64 1024)
    if mkFlit hdr pay = f then
      let q := match Sparse.find x.part p with
        | some q => { q with pay := q.pay ++ [pay] }
        | none => ⟨hdr, [pay]⟩
      let x := { x with wire := Sparse.put [] x.wire p rest }
      if q.pay.length < q.flits then d.setRouter r { x with part := Sparse.ins x.part p q }
      else
        let k := 8 * p + vcOn p q
        (d.setRouter r { x with part := Sparse.del x.part p, inq := Sparse.put [] x.inq k (Sparse.get [] x.inq k ++ [q]) }).forward r
    else
      d.setRouter r { x with wire := Sparse.put [] x.wire p [], replay := Sparse.put 0 x.replay p (rest.length + 1) }

def execFlitReceive (r p : Nat) (err : BitVec 1120) (s : State) : Host.Outcome State Fault Refusal :=
  runUnit (decide (r < nRouters) && decide (p < 4)) (flitReceive r p err) s

/-- The sender resends from the discarded flit onward (09 R231, R249, R250; log entry 24). -/
def flitReplayRequest (r p : Nat) (d : Device) : Device :=
  let x := d.router r
  let n := Sparse.get 0 x.replay p
  if n = 0 then d
  else
    let x := { x with wire := Sparse.put [] x.wire p (lastN n (Sparse.get [] x.sent p)), replay := Sparse.put 0 x.replay p 0 }
    d.setRouter r (if isBridge r p
      then { x with bridgeReplays := Sparse.put Counter.zero x.bridgeReplays p (Sparse.get Counter.zero x.bridgeReplays p).incReg }
      else { x with replays := x.replays.incReg })

def execFlitReplayRequest (r p : Nat) (s : State) : Host.Outcome State Fault Refusal :=
  runUnit (decide (r < nRouters) && decide (p < 4)) (flitReplayRequest r p) s

/-- The receiver behind output p of router r returns the credits it owes on a virtual channel (09 R230). -/
def creditReturn (r p vc : Nat) (d : Device) : Device :=
  let k := 8 * facing p + vc
  let n := Sparse.get 0 (d.router (neighbour r p)).owed k
  let d := d.modRouter (neighbour r p) fun x => { x with owed := Sparse.put 0 x.owed k 0 }
  let d := d.modRouter r fun x => { x with used := Sparse.put 0 x.used (8 * p + vc) (Sparse.get 0 x.used (8 * p + vc) - n) }
  d.forward r

def execCreditReturn (r p vc : Nat) (s : State) : Host.Outcome State Fault Refusal :=
  runUnit (decide (r < nRouters) && decide (p < 4) && decide (vc < 8)) (creditReturn r p vc) s

/-- The packets held for a domain are released in the cycle it reports RUN (09 R245), router by router. -/
def Device.releaseHeld (d : Device) (r lp : Nat) : Device :=
  let vs := (List.range 8).filterMap fun v => Sparse.find (d.router r).held (8 * lp + v)
  let d := d.modRouter r fun x => { x with held := x.held.filter fun (e : Nat × Packet) => e.1 / 8 != lp }
  (vs.foldl (fun d p => d.deliver ⟨r, lp⟩ p) d).forward r

end Sys2Proof.Machine
end

