-- ==== Sys2Proof/Machine/Handle.lean ====
section
/-! DEFINITION. Handles and handle queues: entries (06 R149, R150), the queue operations with parking, refusal and speculation tags (06 R152-R155,
07 R175-R177), the handle instructions of a tile (04 R100, R101), and the frond controller's event that takes the next operation. -/

namespace Sys2Proof.Machine

/-! ## Entries (06 R149, R150) -/

def entryKind (e : Word) : Nat := fld e 62 2

/-- A valid token. -/
def validToken (e : Word) : Bool := entryKind e == 1 && fld e 32 30 == 0

/-- A valid tile or DRAM handle. -/
def validHandle (e : Word) : Bool :=
  (entryKind e == 2 && fld e 16 4 == 0 && fld e 20 15 != 0 && decide (fld e 20 15 ≤ 20480) && decide (fld e 50 12 ≤ 3071) &&
    decide (64 * (fld e 35 15 + fld e 20 15) ≤ 0x140000)) ||
  (entryKind e == 3 && fld e 16 13 != 0 && decide (64 * (fld e 29 33 + fld e 16 13) ≤ 0x8000000000))

/-- An entry that may be pushed by SIGNAL_HANDLE or a fabric port. -/
def validEntry (e : Word) : Bool := validToken e || validHandle e

/-- Buffer base and length in bytes of a handle (06 R149). -/
def handleBuf (e : Word) : Nat × Nat :=
  if entryKind e = 2 then (tileBase (fld e 50 12) + 64 * fld e 35 15, 64 * fld e 20 15) else (64 * fld e 29 33, 64 * fld e 16 13)

/-- A token (06 R149). -/
def tokenOf (v : Nat) : Word := pack [(1, 62), (v % 2 ^ 32, 0)]

/-! ## Queues -/

/-- A tagged entry may be popped or peeked by an asker (07 R176). -/
def tagEligible (r : HopReq) (tag : BitVec 16 × BitVec 16) : Bool :=
  r.specv && r.seq == tag.1 && decide ((r.epoch - tag.2).toNat ≤ 32767)

def QEntry.eligible (e : QEntry) (r : HopReq) : Bool :=
  match e.tag with
  | none => true
  | some t => tagEligible r t

/-- The entries, from the head, that the asker may pop in succession (07 R176). -/
def HQueue.visible (q : HQueue) (r : HopReq) : List QEntry := q.entries.takeWhile (fun e => e.eligible r)

/-- The RUN that owns a queue. -/
def Device.ownerRun (d : Device) (q : HQueue) : Option Run :=
  match q.owner with
  | none => none
  | some o => d.sched.runs.find? (fun r => r.q == o.1 && r.tag == o.2)

/-- An epoch of a RUN's sequence has been consumed (07 R178). -/
def Run.consumed (r : Run) (seq epoch : BitVec 16) : Bool :=
  match r.seqs[seq.toNat]? with
  | none => false
  | some s => let x := (epoch - s.epochC).toNat; x == 0 || decide (32768 ≤ x)

/-- A push whose epoch is consumed is discarded (07 R178). -/
def Device.pushDiscarded (d : Device) (q : HQueue) (r : HopReq) : Bool :=
  r.specv && ((d.ownerRun q).map (fun x => x.consumed r.seq r.epoch)).getD false

/-- An operation that can complete at once: the queue after it, and the entry it returns; RESULT 1 is EMPTY (06 R152-R154). -/
def HQueue.serve (q : HQueue) (discard : Bool) (r : HopReq) : Option (HQueue × Word × Nat) :=
  match r.op with
  | .push =>
    if discard then some (q, 0, 0)
    else if q.entries.length < 256 then
      some ({ q with entries := q.entries ++ [⟨r.entry, if r.specv then some (r.seq, r.epoch) else none⟩] }, 0, 0)
    else none
  | .pop =>
    match q.visible r with
    | [] => none
    | e :: _ => some ({ q with entries := q.entries.drop 1 }, e.value, 0)
  | .popNb =>
    match q.visible r with
    | [] => some (q, 0, 1)
    | e :: _ => some ({ q with entries := q.entries.drop 1 }, e.value, 0)
  | .peek =>
    match q.visible r with
    | [] => some (q, 0, 1)
    | e :: _ => some (q, e.value, 0)
  | .waith => if r.count ≤ (q.visible r).length then some (q, 0, 0) else none

/-! ## Sending an operation -/

/-- The first index of a list that satisfies f. -/
def firstIdxOf {α : Type} (f : α → Bool) (l : List α) : Option Nat := (l.zipIdx.find? (fun e => f e.1)).map (·.2)

/-- The operation of a tile that a request stands for. -/
def HandleOp.is (o : HandleOp) (r : HopReq) : Bool := o.op == r.op && o.queue == r.queue

/-- A push of the tile has met a full queue: it holds the sequencer, which reads WAIT (04 R107). -/
def Tile.showFull (t : Tile) (r : HopReq) : Tile :=
  match firstIdxOf (fun o => o.is r) t.seq.ops with
  | none => t
  | some i =>
    { t with seq := { t.seq with
      ops := t.seq.ops.zipIdx.map fun e => if e.2 = i then { e.1 with full := true } else e.1
      st := if t.seq.st = .run then .wait else t.seq.st } }

/-- The request as the frond of its source port knows it: a HOP of a frond attachment is found by its TXID (09 R234). -/
def Device.requester (d : Device) (r : HopReq) : HopReq :=
  match r.src with
  | .net hdr =>
    (match unitAt (srcPort hdr).r (srcPort hdr).lp with
     | .frond f =>
       (match Sparse.find (d.frond f).outst (fld hdr 19 16) with
        | some (.hop q) => q
        | _ => r)
     | _ => r)
  | _ => r

/-- A push waits for room, in the queue's parking or to be retried: the tile that issued it is held (04 R107). -/
def Device.showWait (d : Device) (r : HopReq) : Device :=
  if r.op = .push then
    match (d.requester r).src with
    | .tile t => d.modTile t fun x => x.showFull r
    | _ => d
  else d

/-- A transaction number not outstanding, from n on. -/
def freeTx (out : Sparse TxUse) (n : BitVec 16) : Nat → BitVec 16
  | 0 => n
  | k + 1 => if (Sparse.find out n.toNat).isSome then freeTx out (n + 1) k else n

/-- Frond f opens a transaction of its attachment. -/
def Device.openTx (d : Device) (f : Nat) (u : TxUse) : BitVec 16 × Device :=
  let x := d.frond f
  let tx := freeTx x.outst x.nextTx 65536
  (tx, d.setFrond f { x with outst := Sparse.ins x.outst tx.toNat u, nextTx := tx + 1 })

/-- An operation leaves frond f: to a queue of its own, or as a HOP. -/
def Device.submit (d : Device) (f : Nat) (r : HopReq) : Device :=
  if r.queue / 64 = f then d.modFrond f fun x => { x with ops := x.ops ++ [r] }
  else
    let o := d.openTx f (.hop r)
    o.2.send ⟨frondRouter f, 0⟩ (mkHop false ⟨frondRouter f, 0⟩ o.1 r)

/-! ## Results -/

/-- A physical register written. -/
def Seq.setPhys (s : Seq) (n : Nat) (x : Word) : Seq := { s with g := Sparse.put 0 s.g n x }

/-- An operation that did not hold the sequencer is answered (04 R101, R106): its entry lands in the register named at its issue (R95), and a push that
met a full queue holds no longer. -/
def Seq.opAnswered (s : Seq) (r : HopReq) (entry : Word) : Seq :=
  match firstIdxOf (fun o => o.is r) s.ops with
  | none => s
  | some i =>
    let o := s.ops.getD i ⟨s.pc, r.op, r.queue, none, false⟩
    let s := match o.dest with
      | some g => s.setPhys g entry
      | none => s
    let ops := dropAt s.ops i
    { s with ops := ops, st := if o.full && !ops.any HandleOp.full && s.wait.isNone && decide (s.st = .wait) then .run else s.st }

/-- A tile's sequencer gets the result of its operation (04 R101): the instruction that holds it is complete, or an earlier one is. -/
def Tile.opDone (t : Tile) (r : HopReq) (entry : Word) : Tile :=
  if r.op = .pop ∨ r.op = .waith then
    match t.seq.wait with
    | some (.handle dest) =>
      let s := match dest with
        | some g => t.seq.setG g entry
        | none => t.seq
      { t with seq := { s with wait := none } }.fallThrough
    | _ => t
  else { t with seq := t.seq.opAnswered r entry }

/-- An operation of the tile is answered with a failure: the fault ADDRESS of its instruction, the one that holds the sequencer or an earlier one (06 R155). -/
def Tile.opFailed (t : Tile) (r : HopReq) : Tile :=
  if r.op = .pop ∨ r.op = .waith then
    match t.seq.wait with
    | some (.handle _) => t.fault .address 0
    | _ => t
  else
    match firstIdxOf (fun o => o.is r) t.seq.ops with
    | none => t
    | some i =>
      let t' := { t with seq := { t.seq with ops := dropAt t.seq.ops i } }
      t'.faultAt (t.seq.ops.getD i ⟨t.seq.pc, r.op, r.queue, none, false⟩).pc .address .tileFault 0

/-- The stream engine gets the entry it popped, or its push is done (06 R137). -/
def Stream.opDone (s : Stream) (op : QOp) (entry : Word) : Stream :=
  match op with
  | .push =>
    match firstIdx' (fun (b : StrmBlock) => b.sigSent && !b.sigDone) s.blocks with
    | some i => { s with blocks := s.blocks.zipIdx.map fun e => if e.2 = i then { e.1 with sigDone := true } else e.1 }
    | none => s
  | _ => if s.waiting.isSome then { s with popped := some entry } else s
where
  firstIdx' {α : Type} (f : α → Bool) (l : List α) : Option Nat := (l.zipIdx.find? (fun e => f e.1)).map (·.2)

/-- The pop of a queue source for a reserved tile, under the item's tag (07 R168, R176). -/
def Reservation.pop (r : Reservation) (q : Nat) : HopReq :=
  let w := r.item.words.getD 1 0
  ⟨.pop, q, 0, 0, BitVec.ofNat 16 (fld w 48 16), BitVec.ofNat 16 (fld w 32 16), bitAt w 15 || bitAt w 14, .dispatch r.tile⟩

/-- A queue source of a reserved tile is filled, and the next one is popped (07 R168). -/
def Device.dispatchDone (d : Device) (t : Nat) (entry : Word) : Device :=
  let f := t / 16
  match (d.frond f).reserved.find? (fun r => r.tile == t) with
  | some r =>
    match r.todo with
    | [] => d
    | (g, _) :: rest =>
      let r' := { r with todo := rest, done := r.done ++ [(g, entry)] }
      let d := d.modFrond f fun x => { x with reserved := x.reserved.map fun y => if y.tile = t then r' else y }
      match rest with
      | [] => d
      | (_, q) :: _ => d.submit f (r'.pop q)
  | none => d

/-- The requester of an operation gets its result; a remote one by HRESP from the frond that holds the queue (09 R234). -/
def Device.opResult (d : Device) (f : Nat) (r : HopReq) (result : Nat) (entry : Word) : Device :=
  match r.src with
  | .tile t => d.modTile t (fun x => x.opDone r entry)
  | .stream t => d.modTile t (fun x => { x with strm := x.strm.opDone r.op entry })
  | .dispatch t => d.dispatchDone t entry
  | .net hdr => d.send ⟨frondRouter f, 0⟩ (mkHresp hdr ⟨frondRouter f, 0⟩ 0 result entry)

/-- The first parked operation that can complete, with what it does and the operations left. -/
def HQueue.servable (q : HQueue) (disc : HopReq → Bool) : List HopReq → List HopReq → Option (HopReq × HQueue × Word × Nat × List HopReq)
  | _, [] => none
  | before, r :: rest =>
    match q.serve (disc r) r with
    | some (q', e, n) => some (r, q', e, n, before ++ rest)
    | none => HQueue.servable q disc (before ++ [r]) rest

/-- Parked operations are served in arrival order as their conditions are met; the fuel bounds their number. -/
def Device.servePark (qn : Nat) : Nat → Device → Device
  | 0, d => d
  | n + 1, d =>
    let q := d.hq qn
    match q.servable (d.pushDiscarded q) [] q.parked with
    | none => d
    | some (r, q', e, res, left) => Device.servePark qn n ((d.setHq qn { q' with parked := left }).opResult (qn / 64) r res e)

/-- A refused operation: it is retried after 64 cycles, and the refusal is counted (06 R154). -/
def Device.refuse (d : Device) (f : Nat) (r : HopReq) : Device :=
  let d := d.bump 0x24 f 1
  match r.src with
  | .net hdr => d.send ⟨frondRouter f, 0⟩ (mkHresp hdr ⟨frondRouter f, 0⟩ 0 2 0)
  | _ => d.modFrond f fun x => { x with retries := x.retries ++ [r] }

/-- Frond f takes one operation on one of its queues (06 R152-R154). -/
def Device.queueOp (d : Device) (f : Nat) (r : HopReq) : Device :=
  let q := d.hq r.queue
  match q.serve (d.pushDiscarded q r) r with
  | some (q', e, res) =>
    Device.servePark r.queue 33 ((d.setHq r.queue q').opResult f r res e)
  | none =>
    if q.parked.length < 32 then (d.setHq r.queue { q with parked := q.parked ++ [r] }).showWait r
    else (d.refuse f r).showWait r

/-- The slot a requester of the frond's own crossbar has; dispatch comes after the tiles (06 R153). -/
def OpSrc.rank : OpSrc → Nat
  | .tile t => t % 16
  | .stream t => t % 16
  | .dispatch _ => 16
  | .net _ => 17

/-- An operation in its place: after those of its rank that came before it, before those of a higher one (06 R153). -/
def insertOp (r : HopReq) : List HopReq → List HopReq
  | [] => [r]
  | q :: rest => if r.src.rank ≤ q.src.rank then r :: q :: rest else q :: insertOp r rest

/-- Operations in the order they are taken: tiles by ascending slot, then dispatch (06 R153). -/
def orderOps : List HopReq → List HopReq
  | [] => []
  | r :: rest => insertOp r (orderOps rest)

/-- The operation a HOP asks for; none where it carries a reserved operation or pushes an invalid entry (06 R150, 09 R234). -/
def Packet.goodHop (p : Packet) : Option HopReq :=
  match p.hop with
  | some r => if r.op = .push && !validEntry r.entry then none else some r
  | none => none

/-- The oldest HOP at the network port of frond f. -/
def Device.netHop (d : Device) (f : Nat) : Option (Packet × List Packet) :=
  takeFirst (fun p => p.type == tHOP) (d.inboxOf ⟨frondRouter f, 0⟩)

/-- A pop, blocking or not. -/
def HopReq.pops (r : HopReq) : Bool := r.op == .pop || r.op == .popNb

/-- Which of the operations that wait together is taken, r being first in order (06 R153): at an empty queue a push before the pop that meets it, at a full
one a pop before the push, and a peek before the pop beside it. -/
def Device.meeting (d : Device) (r : HopReq) (others : List HopReq) : HopReq :=
  let q := d.hq r.queue
  let same := others.filter fun o => o.queue == r.queue
  let first := if r.op = .push then (if 256 ≤ q.entries.length then same.find? HopReq.pops else none)
    else if r.pops then (if q.entries.isEmpty then same.find? fun o => o.op == .push else same.find? fun o => o.op == .peek)
    else none
  first.getD r

/-- Frond f takes operation r from where it waits. -/
def Device.takeOp (d : Device) (f : Nat) (r : HopReq) : Device :=
  match r.src with
  | .net _ =>
    (match d.netHop f with
     | some (_, rest) => (d.setInbox ⟨frondRouter f, 0⟩ rest).queueOp f r
     | none => d)
  | _ => (d.modFrond f fun x => { x with ops := x.ops.erase r }).queueOp f r

/-- QUEUE_OPERATION: frond f takes the next operation, of its own tiles, of its dispatch, or of the network port (06 R153).
A HOP with a reserved operation or an invalid entry is answered INVALID_PARAM (06 R150, 09 R234). -/
def queueOperation (f : Nat) (d : Device) : Device :=
  let net := d.netHop f
  match orderOps (d.frond f).ops ++ (net.bind fun p => p.1.goodHop).toList with
  | r :: others => d.takeOp f (d.meeting r others)
  | [] =>
    match net with
    | none => d
    | some (p, rest) =>
      let at_ : PortId := ⟨frondRouter f, 0⟩
      (d.setInbox at_ rest).send at_ (mkHresp p.hdr at_ Status.invalidParam.code 0 0)

def execQueueOperation (f : Nat) (s : State) : Host.Outcome State Fault Refusal := runUnit (decide (f < nFronds)) (queueOperation f) s

/-! ## The handle instructions (04 R100, R101) -/

/-- The speculation tag a tile's operations carry: that of its speculative-class item (07 R175). -/
def Tile.tagged (t : Tile) : Bool × BitVec 16 × BitVec 16 :=
  match t.running with
  | some r => if r.spec || r.verify then (true, r.seq, r.epoch) else (false, 0, 0)
  | none => (false, 0, 0)

/-- The queue an instruction names. -/
def Seq.queueOf (s : Seq) (w : Word) : Nat := if bitAt w 47 then fld w 0 14 else fld (s.getG (fld w 41 6)) 0 14

/-- Reserved fields of the shared layout. -/
def handleReserved (w : Word) : Bool :=
  psSat w || fld w 14 18 != 0 || (if bitAt w 47 then fld w 41 6 != 0 else fld w 0 14 != 0)

/-- A queue the program may not address: a fused-off frond's, or one its RUN does not own (06 R155). -/
def Device.queueDenied (d : Device) (t q : Nat) : Bool :=
  !d.frondOn (q / 64) ||
  (match (d.tile t).running with
   | none => true
   | some r => decide ((d.hq q).owner ≠ some (r.q, r.tag)))

/-- Which handle operations hold the sequencer until they are answered: a pop that may block and WAITH (04 R107). -/
def QOp.holds : QOp → Bool
  | .pop => true
  | .waith => true
  | _ => false

/-- Every request of the tile's block lists has been answered. -/
def Stream.landed (s : Stream) : Bool := s.blocks.all fun b => b.reads == 0 && b.writes == 0

/-- A block of the tile's lists has still to signal that queue (06 R137). -/
def Stream.signals (s : Stream) (q : Nat) : Bool :=
  s.blocks.any fun b => bitAt (b.words.getD 4 0) 59 && !b.sigDone && fld (b.words.getD 5 0) 16 14 == q

/-- A push waits at issue until every earlier write of the tile has landed (04 R101); an operation on a queue of another frond, until the tile's earlier
operation on that queue is answered, since the network keeps no order (09 R239; log entry 12). -/
def Tile.handleStall (t : Tile) (f : Nat) (r : HopReq) : Bool :=
  (r.op == .push && !(t.arr.blocks.isEmpty && t.strm.landed && !t.strm.signals r.queue)) || (r.queue / 64 != f && t.seq.ops.any fun o => o.queue == r.queue)

/-- A handle instruction with its operation r: its own checks, then the operation, which holds the sequencer, or goes on beside it (04 R101, R107). -/
def handleBody (d : Device) (reserved range : Word → Tile → Bool) (dest : Word → Option Nat) (mk : Word → Tile → HopReq) (c : Ctx) (w : Word) (t : Tile) : Issue :=
  let r := mk w t
  checked
    [(handleReserved w || reserved w t, .reservedField),
     (decide (12288 ≤ r.queue) || range w t, .operandRange),
     (d.queueDenied c.t r.queue, .address)] fun _ =>
    if t.handleStall (c.t / 16) r then .stall
    else if r.op.holds then .hold { t with seq := { t.seq with wait := some (.handle (dest w)) } }
    else
      let g := match dest w with
        | some 0 => none
        | some n => some (t.seq.gPhys n)
        | none => none
      .done { t with seq := { t.seq with ops := t.seq.ops ++ [⟨t.seq.pc, r.op, r.queue, g, false⟩] } }

/-- The operation an instruction stands for, with the tag of its tile's item, before its own fields are set (07 R175). -/
def baseReq (t : Nat) (w : Word) (x : Tile) : HopReq :=
  let g := x.tagged
  ⟨.pop, x.seq.queueOf w, 0, 0, g.2.1, g.2.2, g.1, .tile t⟩

/-- The router of frond f counts a request that the unmapped responder answers (01 R24, 09 R236, R249). -/
def Device.countUnmapped (d : Device) (f : Nat) : Device :=
  d.modRouter (frondRouter f) fun x => { x with unmappedCount := x.unmappedCount.incReg }

/-- The device when tile t issues a handle instruction: its operation leaves the frond where it has issued. A push finds a full queue at once; a queue of
a fused-off frond is the unmapped responder's to answer (04 R100). -/
def handleIssue (op : Nat) (reserved range : Word → Tile → Bool) (dest : Word → Option Nat) (own : Word → Tile → HopReq → HopReq)
    (t : Nat) (d : Device) : Device :=
  let x := d.tile t
  let mk := fun (w : Word) (y : Tile) => own w y (baseReq t w y)
  let d' := d.issue op (handleBody d reserved range dest mk) t
  let y := d'.tile t
  let r := mk x.fetch x
  if (x.seq.wait.isNone && y.seq.wait.isSome) || decide (x.seq.ops.length < y.seq.ops.length) then
    let d' := if 256 ≤ (d.hq r.queue).entries.length then d'.showWait r else d'
    d'.submit (t / 16) r
  else if x.canIssue && decide (y.seq.st = .faulted) && decide (y.seq.fault.cause = .address) && !d.frondOn (r.queue / 64) then d'.countUnmapped (t / 16)
  else d'

/-- PARAM is reserved. -/
def paramReserved (w : Word) (_ : Tile) : Bool := fld w 32 9 != 0

def hpush (t : Nat) (d : Device) : Device :=
  handleIssue 0x34 paramReserved (fun w x => !validHandle (x.seq.getG (fld w 48 6))) (fun _ => none)
    (fun w x r => { r with op := .push, entry := x.seq.getG (fld w 48 6) }) t d

/-- HPUSH (04 R101): appends the handle in GR. -/
def execHpush (t : Nat) (s : State) : Host.Outcome State Fault Refusal := runUnit (decide (t < nTiles)) (hpush t) s

def hpop (t : Nat) (d : Device) : Device :=
  handleIssue 0x35 (fun w _ => fld w 33 8 != 0) (fun _ _ => false) (fun w => some (fld w 48 6))
    (fun w _ r => { r with op := if bitAt w 32 then .popNb else .pop }) t d

/-- HPOP (04 R101): the head entry into GR; with NB = 1 it never blocks. -/
def execHpop (t : Nat) (s : State) : Host.Outcome State Fault Refusal := runUnit (decide (t < nTiles)) (hpop t) s

def hpeek (t : Nat) (d : Device) : Device :=
  handleIssue 0x36 paramReserved (fun _ _ => false) (fun w => some (fld w 48 6)) (fun _ _ r => { r with op := .peek }) t d

/-- HPEEK (04 R101): copies the head entry into GR. -/
def execHpeek (t : Nat) (s : State) : Host.Outcome State Fault Refusal := runUnit (decide (t < nTiles)) (hpeek t) s

def waith (t : Nat) (d : Device) : Device :=
  handleIssue 0x0E (fun w _ => fld w 48 6 != 0) (fun w _ => fld w 32 9 == 0 || decide (256 < fld w 32 9)) (fun _ => none)
    (fun w _ r => { r with op := .waith, count := fld w 32 9 }) t d

/-- WAITH (04 R101): waits until the queue holds COUNT entries. -/
def execWaith (t : Nat) (s : State) : Host.Outcome State Fault Refusal := runUnit (decide (t < nTiles)) (waith t) s

def signal (t : Nat) (d : Device) : Device :=
  handleIssue 0x0F paramReserved (fun _ _ => false) (fun _ => none)
    (fun w x r => { r with op := .push, entry := tokenOf (x.seq.getG (fld w 48 6)).toNat }) t d

/-- SIGNAL (04 R101): appends a token carrying bits [31:0] of GR. -/
def execSignal (t : Nat) (s : State) : Host.Outcome State Fault Refusal := runUnit (decide (t < nTiles)) (signal t) s

/-! ## Operations by firmware and link engines, as one act (log entry 18) -/

/-- An untagged entry pushed as one act; none where the queue is full. -/
def Device.pushNow (d : Device) (q : Nat) (e : Word) : Option Device :=
  let x := d.hq q
  if x.entries.length < 256 then some (Device.servePark q 33 (d.setHq q { x with entries := x.entries ++ [⟨e, none⟩] })) else none

/-- The head entry popped as one act by an agent that carries no tag; none where the queue is empty or its head is tagged. -/
def Device.popNow (d : Device) (q : Nat) : Option (Word × Device) :=
  let x := d.hq q
  match x.entries with
  | ⟨v, none⟩ :: rest => some (v, Device.servePark q 33 (d.setHq q { x with entries := rest }))
  | _ => none

/-- A queue emptied: entries discarded, parked operations cancelled (06 R155). -/
def Device.emptyQueue (d : Device) (q : Nat) (owner : Option (Nat × Nat)) : Device := d.setHq q ⟨[], [], owner⟩

end Sys2Proof.Machine
end

