-- ==== Sys2Proof/Machine/Stream.lean ====
section
/-! DEFINITION. The stream engine: STRM and STRMY (04 R102), block descriptors and their checks (06 R132-R134), element order and transforms
(06 R135, R136), running a list (06 R137-R140), and the weight cache (06 R143-R148). -/

namespace Sys2Proof.Machine

/-! ## STRM and STRMY -/

/-- STRM (04 R102): a GA outside the 44-bit addresses or not a multiple of 64 is OPERAND_RANGE (06 R134; log entry 26). While the list runs, and after it has
failed, STRM_STATE reads 0 (DESIGN CHOICE, log entry 107). A list that had yielded is abandoned; what it has in flight completes. -/
def strmBody (_ : Ctx) (w : Word) (t : Tile) : Issue :=
  let a := (t.seq.getG (wGd w)).toNat
  checked [(psSat w || fld w 0 48 != 0, .reservedField), (a % 64 != 0 || decide (2 ^ 44 ≤ a), .operandRange)] fun _ =>
    .hold { t with
      seq := { t.seq with wait := some .stream, strmState := 0 }
      strm := { t.strm with next := some (BitVec.ofNat 44 a), first := t.strm.count, waiting := none, popped := none, closed := false, at_ := t.seq.pc } }

def execStrm (t : Nat) (s : State) : Host.Outcome State Fault Refusal := runTile 0x38 strmBody t s

/-- STRMY (04 R102). STRM_STATE reads 0 from its issue (DESIGN CHOICE, log entry 107). -/
def strmyBody (_ : Ctx) (w : Word) (t : Tile) : Issue :=
  checked [(psSat w || fld w 0 54 != 0, .reservedField), (t.seq.strmState != 1, .streamState)] fun _ =>
    .hold { t with
      seq := { t.seq with wait := some .stream, strmState := 0 }
      strm := { t.strm with closed := false, at_ := t.seq.pc } }

def execStrmy (t : Nat) (s : State) : Host.Outcome State Fault Refusal := runTile 0x39 strmyBody t s

/-! ## Descriptors (06 R133) -/

/-- The fields of a descriptor. -/
structure Desc where
  slocal : Bool
  src : Nat
  dlocal : Bool
  dst : Nat
  ext0 : Nat
  ext1 : Nat
  ext2 : Nat
  stride0 : Int
  stride1 : Int
  stride2 : Int
  barrier : Bool
  wc : Bool
  sig : Bool
  wait : Bool
  yield : Bool
  last : Bool
  xparam : Nat
  xform : Nat
  sside : Bool
  esize : Nat
  sstr : Nat
  sdst : Nat
  sigQ : Nat
  waitUse : Nat
  waitQ : Nat
  hval : Word
  next : Nat
  deriving DecidableEq, Repr

/-- The little-endian words of a unit's bytes. -/
def wordsOf (l : List Byte) : List Word := (List.range (l.length / 8)).map fun i => BitVec.ofNat 64 (leNat ((l.drop (8 * i)).take 8))

/-- Word i of a descriptor. -/
def dWord (l : List Word) (i : Nat) : Word := l.getD i 0

/-- A descriptor read from its eight words. -/
def descOf (l : List Word) : Desc :=
  let w := dWord l
  { slocal := bitAt (w 0) 44, src := fld (w 0) 0 44, dlocal := bitAt (w 1) 44, dst := fld (w 1) 0 44
    ext0 := fld (w 2) 0 32, ext1 := fld (w 2) 32 16, ext2 := fld (w 2) 48 16
    stride0 := sext 32 (fld (w 3) 0 32), stride1 := sext 32 (fld (w 3) 32 32), stride2 := sext 32 (fld (w 4) 0 32)
    barrier := bitAt (w 4) 61, wc := bitAt (w 4) 60, sig := bitAt (w 4) 59, wait := bitAt (w 4) 58, yield := bitAt (w 4) 57
    last := bitAt (w 4) 56, xparam := fld (w 4) 40 16, xform := fld (w 4) 36 4, sside := bitAt (w 4) 35, esize := 2 ^ fld (w 4) 32 3
    sstr := fld (w 5) 52 12, sdst := fld (w 5) 32 20, sigQ := fld (w 5) 16 14, waitUse := fld (w 5) 14 2, waitQ := fld (w 5) 0 14
    hval := w 6, next := fld (w 7) 0 44 }

/-- A transform that splits MX records: element bytes per record (06 R136); 0 for the others. -/
def Desc.mx (x : Desc) : Nat := if x.xform = 4 then 32 else if x.xform = 5 then 16 else 0

/-- Reserved bits, reserved encodings, and fields that must be 0 when their feature is unused (06 R133, R134). -/
def descReserved (l : List Word) : Bool :=
  let x := descOf l
  fld (dWord l 0) 45 19 != 0 || fld (dWord l 1) 45 19 != 0 || fld (dWord l 4) 62 2 != 0 || fld (dWord l 5) 30 2 != 0 ||
  fld (dWord l 7) 44 20 != 0 || decide (5 < x.xform) || x.waitUse == 3 ||
  (!x.wait && (x.waitQ != 0 || x.waitUse != 0)) || (!x.sig && (x.sigQ != 0 || x.hval != 0)) ||
  (x.mx == 0 && (x.sdst != 0 || x.sstr != 0)) || (x.xform != 3 && x.xparam != 0)

/-- A local offset that lies in no memory, or in the accumulator with elements below 4 bytes (06 R134), whatever the extents. -/
def Desc.baseBad (x : Desc) (a : Nat) : Bool := decide (0x140000 ≤ a) || (decide (0x100000 ≤ a) && decide (x.esize < 4))

/-- Field values outside their ranges (06 R134, R136, R138). -/
def descRange (x : Desc) : Bool :=
  (x.slocal && x.baseBad x.src) || (x.dlocal && x.baseBad x.dst) ||
  (x.wait && decide (12288 ≤ x.waitQ)) || (x.sig && decide (12288 ≤ x.sigQ)) ||
  (x.wait && x.waitUse == 1 && (x.slocal || decide (2 ^ 21 ≤ x.src))) ||
  (x.wait && x.waitUse == 2 && (x.dlocal || decide (2 ^ 21 ≤ x.dst))) ||
  (x.xform == 1 && (x.ext0 % 4 != 0 || x.ext1 % 4 != 0 || decide (4 < x.esize))) ||
  (x.xform == 2 && (x.esize != 1 || x.sside)) ||
  (x.xform == 3 && (x.sside || decide (x.xparam < x.ext0))) ||
  (x.mx != 0 && (x.sside || x.esize != 1 || !x.dlocal || decide (x.sstr < x.ext1) || x.sstr == 0))

/-! ## Elements (06 R135, R136) -/

/-- One piece of an element: its source, its destination (scale bytes always local), its length, and INT4 widening. -/
structure Elem where
  src : Int
  dst : Int
  len : Nat
  unpack : Bool
  scale : Bool
  deriving DecidableEq, Repr

/-- The pieces of element (i2, i1, i0), number n, from the bases of the two sides. -/
def Desc.elem (x : Desc) (sb db : Int) (i2 i1 i0 : Nat) : List Elem :=
  let n : Nat := (i2 * x.ext1 + i1) * x.ext0 + i0
  let off : Int := (i0 : Int) * x.stride0 + (i1 : Int) * x.stride1 + (i2 : Int) * x.stride2
  if x.mx ≠ 0 then
    [⟨sb + off, ((x.sdst + (i2 * x.ext0 + i0) * x.sstr + i1 : Nat) : Int), 1, false, true⟩, ⟨sb + off + 1, db + (n * x.mx : Nat), x.mx, false, false⟩]
  else
    let pk : Nat :=
      if x.xform = 1 then ((i2 * x.ext1 + 4 * (i1 / 4) + i0 % 4) * x.ext0 + 4 * (i0 / 4) + i1 % 4) * x.esize
      else if x.xform = 2 then 2 * n
      else if x.xform = 3 then ((i2 * x.ext1 + i1) * x.xparam + i0) * x.esize
      else n * x.esize
    if x.sside then [⟨sb + (pk : Int), db + off, x.esize, false, false⟩] else [⟨sb + off, db + (pk : Int), x.esize, x.xform == 2, false⟩]

/-- Every piece of a block, in element order. -/
def Desc.elems (x : Desc) (sb db : Int) : List Elem :=
  (List.range x.ext2).flatMap fun i2 => (List.range x.ext1).flatMap fun i1 => (List.range x.ext0).flatMap fun i0 => x.elem sb db i2 i1 i0

/-- The elements that ZERO_PAD fills with zero bytes: their destinations and lengths, row by row (06 R136). A zero extent moves nothing (R135). -/
def Desc.pads (x : Desc) (db : Int) : List (Int × Nat) :=
  if x.xform = 3 && x.ext0 != 0 then
    (List.range (x.ext2 * x.ext1)).flatMap fun r =>
      (List.range (x.xparam - x.ext0)).map fun i => (db + ((r * x.xparam + x.ext0 + i) * x.esize : Nat), x.esize)
  else []

/-- Bytes a piece writes. -/
def Elem.dlen (e : Elem) : Nat := if e.unpack then 2 * e.len else e.len

/-- A range of a tile window that VLD, VST and local descriptors may use (06 R134). -/
def localOk (a : Int) (n : Nat) : Bool :=
  decide (0 ≤ a) && decide (a + n ≤ 0x140000) && (decide (a + n ≤ 0x100000) || decide (0x100000 ≤ a))

/-- An address range lies in an accumulator: of the tile itself, or of any tile's window. -/
def inAcc (isLocal : Bool) (a : Int) : Bool :=
  if isLocal then decide (0x100000 ≤ a)
  else
    match placeOf a.toNat with
    | .tile _ off => decide (0x100000 ≤ off) && decide (off < 0x140000)
    | _ => false

/-- One side of an element is well placed (06 R134): local range or 44-bit address, alignment, and no accumulator for small elements. -/
def sideOk (x : Desc) (isLocal aligned : Bool) (a : Int) (n : Nat) : Bool :=
  (if isLocal then localOk a n else decide (0 ≤ a) && decide (a + n ≤ (2 ^ 44 : Nat))) &&
  (!aligned || decide (a % (min x.esize 64 : Nat) = 0)) && (decide (4 ≤ x.esize) || !inAcc isLocal a)

/-- The source side of a piece. -/
def Elem.srcOk (x : Desc) (e : Elem) : Bool := sideOk x x.slocal (x.mx == 0) e.src e.len

/-- The destination side of a piece: packed MX elements lie at multiples of their size, scales in operand SRAM. -/
def Elem.dstOk (x : Desc) (e : Elem) : Bool :=
  if e.scale then decide (0 ≤ e.dst) && decide (e.dst < 0x100000)
  else sideOk x x.dlocal (x.mx == 0) e.dst e.dlen && (x.mx == 0 || decide (e.dst % (x.mx : Nat) = 0))

/-- A range lies in a handle's buffer (06 R138). -/
def inBuf (b : Nat × Nat) (a : Int) (n : Nat) : Bool := decide ((b.1 : Int) ≤ a) && decide (a + n ≤ ((b.1 + b.2 : Nat) : Int))

/-! ## Reads and moves -/

/-- A piece as a move between addresses. -/
def Elem.move (e : Elem) : Move := ⟨e.src.toNat, e.dst.toNat, e.len, e.unpack⟩

/-- A move cut at the 512-byte lines of its source; the fuel bounds the cuts. -/
def Move.cut : Nat → Move → List Move
  | 0, m => [m]
  | f + 1, m =>
    let k := 512 - m.src % 512
    if m.len ≤ k then [m]
    else { m with len := k } :: Move.cut f ⟨m.src + k, m.dst + (if m.unpack then 2 * k else k), m.len - k, m.unpack⟩

/-- Two moves in a row that are one. -/
def Move.joins (a b : Move) : Bool :=
  a.src + a.len == b.src && a.dst + (if a.unpack then 2 * a.len else a.len) == b.dst && a.unpack == b.unpack && a.src / 512 == b.src / 512

/-- Contiguous moves of one line merged. -/
def mergeMoves : List Move → List Move
  | [] => []
  | m :: r =>
    match mergeMoves r with
    | [] => [m]
    | n :: q => if m.joins n then ⟨m.src, m.dst, m.len + n.len, m.unpack⟩ :: q else m :: n :: q

/-- Consecutive moves grouped into requests: those of one 512-byte source line whose sources follow one another (06 R135). -/
def groupMoves : List Move → List (List Move)
  | [] => []
  | m :: r =>
    match groupMoves r with
    | [] => [[m]]
    | [] :: q => [m] :: q
    | (n :: g) :: q => if m.src + m.len = n.src ∧ m.src / 512 = n.src / 512 then (m :: n :: g) :: q else [m] :: (n :: g) :: q

/-- First byte and length of the 64-byte units a group of moves reads. -/
def groupSpan (g : List Move) : Nat × Nat :=
  let lo := (g.map (·.src)).foldl min (2 ^ 44)
  let hi := (g.map (fun m => m.src + m.len)).foldl max 0
  (lo / 64 * 64, (hi + 63) / 64 * 64 - lo / 64 * 64)

/-! ## Blocks under way -/

/-- Block number i of a tile's list, changed. -/
def Stream.modBlock (s : Stream) (i : Nat) (f : StrmBlock → StrmBlock) : Stream :=
  { s with blocks := s.blocks.map fun b => if b.idx = i then f b else b }

/-- A block of the list has failed: nothing further is issued for it, no later block starts, and the first answer to fail decides the fault (06 R140). -/
def Stream.fail (s : Stream) (i : Nat) (c : Cause) (st : Status) : Stream :=
  { s.modBlock i (fun b => { b with dead := true }) with
    closed := true
    failing := s.failing.or (some (c, st, ((s.blocks.find? fun b => b.idx == i).map (·.at_)).getD s.at_))
    cut := match s.cut with | some j => some (min i j) | none => some i }

/-- The block has failed. -/
def Stream.dead (s : Stream) (i : Nat) : Bool := s.blocks.any fun b => b.idx == i && b.dead

/-- The block comes before every one that has failed (06 R140). -/
def Stream.spared (s : Stream) (i : Nat) : Bool := match s.cut with | some j => decide (i < j) | none => true

/-- The fault of a failed list is taken once every request in flight has landed and no block before the failed ones is still to complete (06 R140). -/
def Tile.settleFail (t : Tile) : Tile :=
  match t.strm.failing with
  | some (c, st, pc) =>
    if t.strm.landed && !t.strm.blocks.any (fun b => t.strm.spared b.idx) then
      { t with strm := { t.strm with blocks := [], failing := none, cut := none, next := none, waiting := none, popped := none } }.faultAt pc c st 0
    else t
  | none => t

/-- A failing answer's fault cause and status (06 R140, 04 R108). -/
def answerFault (st : Nat) : Cause × Status :=
  if st = Status.invalidParam.code then (.address, .tileFault) else (.dataPoison, Status.ofCode st)

/-- A speculative-class item may not write there: a region that an active RUN declares committed, or the window of a patch that is not speculation-aware (07 R177). -/
def Device.writeDenied (d : Device) (t a n : Nat) : Bool :=
  match (d.tile t).running with
  | none => false
  | some r =>
    (r.spec || r.verify) &&
    (d.sched.runs.any (fun x => x.regions.any fun g => g.1 == 2 && decide (a < g.2.1 + g.2.2) && decide (g.2.1 < a + n)) ||
     (match placeOf a, d.sched.runs.find? (fun x => x.q == r.q && x.tag == r.tag) with
      | .patch p _, some x => !bitAt x.specAware p
      | _, _ => false))

/-- Write requests for bytes at an internal address: whole 128-byte units of a 512-byte block by WRITE, the rest by WRITEM (06 R135, 09 R234).
SUB carries the tile's slot and the block's number modulo 4 (log entry 25). -/
def Device.sendWrites (t blk : Nat) : Nat → Nat → List Byte → Device → Device
  | 0, _, _, d => d
  | f + 1, a, l, d =>
    if l.isEmpty then d
    else
      let src : PortId := ⟨frondRouter (t / 16), 0⟩
      let sub := t % 16 + 16 * (blk % 4)
      let whole := a % 128 == 0 && decide (128 ≤ l.length)
      let n := if whole then 128 * min (l.length / 128) ((512 - a % 512) / 128) else min l.length (128 - a % 128)
      let x := l.take n
      let d :=
        if (d.tile t).strm.dead blk then d
        else
          let d := d.modTile t fun y => { y with strm := y.strm.modBlock blk fun b => { b with writes := b.writes + 1 } }
          let k := if whole then mkWrite false src sub a x
            else mkWriteM false src sub (a / 128 * 128) (List.replicate (a % 128) 0 ++ x) (BitVec.ofNat 128 ((2 ^ n - 1) <<< (a % 128)))
          if d.writeDenied t a n then d.modRouter src.r fun y => { y with unmapped := y.unmapped ++ [k] } else d.sendTo src (some a) k
      Device.sendWrites t blk f (a + n) (l.drop n) d

/-- INT4 elements widened to INT8 (06 R136): the low nibble first. -/
def unpackInt4 (l : List Byte) : List Byte :=
  l.flatMap fun b => [BitVec.ofInt 8 (sext 4 (b.toNat % 16)), BitVec.ofInt 8 (sext 4 (b.toNat / 16))]

/-- Bytes reach their destination: the tile's own memory, or the network. -/
def Device.put (d : Device) (t blk : Nat) (loc : Bool) (a : Nat) (l : List Byte) : Device :=
  if loc then d.modTile t fun x => x.store a l
  else Device.sendWrites t blk (l.length + 1) a l d

/-- Pieces to be written, those whose destinations follow one another joined (06 R135). -/
def joinPuts : List (Nat × List Byte) → List (Nat × List Byte)
  | [] => []
  | x :: r =>
    match joinPuts r with
    | [] => [x]
    | y :: q => if x.1 + x.2.length = y.1 then (x.1, x.2 ++ y.2) :: q else x :: y :: q

/-- Pieces reach their destinations in order. -/
def Device.puts (d : Device) (t blk : Nat) (loc : Bool) (l : List (Nat × List Byte)) : Device :=
  (joinPuts l).foldl (fun d e => d.put t blk loc e.1 e.2) d

/-- What a move writes, from its source bytes. -/
def Move.put (m : Move) (x : List Byte) : Nat × List Byte := (m.dst, if m.unpack then unpackInt4 x else x)

/-- Bytes read at base are moved (06 R135); loc says whether the block's destination is local. A scale byte is always local, and its block is. -/
def Device.moves (d : Device) (t blk : Nat) (loc : Bool) (base : Nat) (data : List Byte) (l : List Move) : Device :=
  d.puts t blk loc (l.map fun m => m.put ((data.drop (m.src - base)).take m.len))

/-- The block's destination is local. -/
def Device.blkLocal (d : Device) (t blk : Nat) : Bool :=
  match (d.tile t).strm.blocks.find? (fun b => b.idx == blk) with
  | some b => (descOf b.words).dlocal
  | none => true

/-- Data of one read of a block arrives, from the network or the weight cache. -/
def Device.readDone (d : Device) (t blk base : Nat) (data : List Byte) (l : List Move) : Device :=
  if (d.tile t).strm.blocks.any (fun b => b.idx == blk) then
    let loc := d.blkLocal t blk
    let d := d.moves t blk loc base data l
    d.modTile t fun x => { x with strm := x.strm.modBlock blk fun b => { b with reads := b.reads - 1 } }.settleFail
  else d

/-- A read of a block failed: its bytes are not written (06 R140). -/
def Device.readFailed (d : Device) (t blk st : Nat) : Device :=
  let c := answerFault st
  d.modTile t fun x =>
    { x with strm := (x.strm.modBlock blk fun b => { b with reads := b.reads - 1 }).fail blk c.1 c.2 }.settleFail

/-! ## The weight cache -/

/-- A 512-byte line may be read through the cache for a frond: it lies in an immutable region of a RUN active there (06 R144). -/
def Device.wcEligible (d : Device) (f line : Nat) : Bool :=
  (match placeOf (512 * line) with | .dram _ _ => true | _ => false) &&
  (d.frond f).activeRuns.any fun a =>
    d.sched.runs.any fun r => r.q == a.1 && r.tag == a.2 &&
      r.regions.any fun g => g.1 == 1 && decide (g.2.1 ≤ 512 * line) && decide (512 * line + 512 ≤ g.2.1 + g.2.2)

/-- A line installed as the most recently used; the least recently used way beyond 16 of its set leaves (06 R143). -/
def wcInstall (l : List WcLine) (x : WcLine) : List WcLine :=
  let l' := x :: l.filter (fun y => y.line != x.line)
  let same := l'.filter (fun y => y.line % 1024 == x.line % 1024)
  match (if 16 < same.length then same.getLast? else none) with
  | some y => l'.filter (fun z => z.line != y.line)
  | none => l'

/-- A CACHE_INVALIDATE of the line is under way: a fill that begins meanwhile is not installed (06 R148). -/
def Frond.invalidating (x : Frond) (line : Nat) : Bool :=
  x.invalRanges.any fun e => e.2.2.2 == 0 || (decide (e.2.2.1 ≤ line) && decide (line < e.2.2.1 + e.2.2.2))

/-- A cached read looks its line up: a hit, a pending fill joined, a new fill, or a wait for a fill entry (06 R145). -/
def Device.wcRead (d : Device) (f line : Nat) (count : Bool) (w : Nat × Nat × Nat × Nat × List Move) : Device :=
  let x := d.frond f
  let bump := fun (d : Device) (i : Nat) => if count then d.bump i f 1 else d
  match x.wcLines.find? (fun y => y.line == line) with
  | some y =>
    let d := bump (d.setFrond f { x with wcLines := wcInstall x.wcLines y }) 0x20
    d.readDone w.1 w.2.1 (512 * line) y.data w.2.2.2.2
  | none =>
    if x.wcFills.any (fun y => y.line == line) then
      -- a further read of a tile shares its waiter (DESIGN CHOICE, log entry 114)
      bump (d.setFrond f { x with wcFills := x.wcFills.map fun y => if y.line = line then { y with waiters := y.waiters ++ [w] } else y }) 0x22
    else if x.wcFills.length < 64 then
      let d := bump (d.setFrond f { x with wcFills := x.wcFills ++ [⟨line, [w], !x.invalidating line⟩] }) 0x21
      let o := d.openTx f (.fill line)
      o.2.sendTo ⟨frondRouter f, 0⟩ (some (512 * line)) (mkRead false ⟨frondRouter f, 0⟩ o.1 (512 * line) 512)
    else
      -- counted as a miss when it starts to wait, and not again (DESIGN CHOICE, log entry 113)
      bump (d.setFrond f { x with wcWait := x.wcWait ++ [w] }) 0x21

/-- One read request of a block, through the cache where it may (06 R144). -/
def Device.blockRead (d : Device) (t blk : Nat) (wc : Bool) (g : List Move) : Device :=
  let f := t / 16
  let s := groupSpan g
  let d := d.modTile t fun x => { x with strm := x.strm.modBlock blk fun b => { b with reads := b.reads + 1 } }
  if wc && d.wcEligible f (s.1 / 512) then d.wcRead f (s.1 / 512) true (t, blk, s.1, s.2, g)
  else
    let o := (d.bump 0x23 f 1).openTx f (.streamRead t blk s.1 s.2 g)
    o.2.sendTo ⟨frondRouter f, 0⟩ (some s.1) (mkRead false ⟨frondRouter f, 0⟩ o.1 s.1 s.2)

/-- A block's source is read from the tile's own memory, in element order (06 R135): up to the first element with a double-bit error, which ends the block
(R140, 04 R108). -/
def Device.localMoves (d : Device) (t blk : Nat) (x : Desc) (ms : List Move) : Device :=
  let tile := d.tile t
  let ok := ms.takeWhile fun m => !tile.badRead m.src m.len
  let d := d.bump 0x23 (t / 16) (groupMoves (mergeMoves (ok.flatMap (Move.cut 8)))).length
  let d :=
    if x.dlocal then ok.foldl (fun d m => d.puts t blk true [m.put ((d.tile t).mem.read m.src m.len)]) d
    else d.puts t blk false (ok.map fun m => m.put (tile.mem.read m.src m.len))
  if ok.length < ms.length then d.modTile t fun y => { y with strm := y.strm.fail blk .sramUncorrectable .memoryUncorrectable } else d

/-- The transfer of a block (06 R137 step 3): all its requests are issued. -/
def Device.transfer (d : Device) (t blk : Nat) (x : Desc) (sb db : Int) : Device :=
  let ms := (x.elems sb db).map Elem.move
  let d := d.puts t blk x.dlocal ((x.pads db).map fun p => (p.1.toNat, List.replicate p.2 0))
  if x.slocal then d.localMoves t blk x ms
  else
    let cut := if x.mx = 0 then mergeMoves (ms.flatMap (Move.cut 8)) else ms.flatMap (Move.cut 8)
    (groupMoves cut).foldl (fun d g => d.blockRead t blk x.wc g) d

/-! ## Starting and completing a block -/

/-- A failure that a block's start finds: no block of its number moves any data (06 R134). -/
def Device.startFail (d : Device) (t : Nat) (c : Cause) (st : Status) : Device :=
  d.modTile t fun x => { x with strm := { x.strm.fail x.strm.count c st with waiting := none, popped := none } }.settleFail

/-- The descriptor at an internal address, read by an engine of frond f as one 64-byte unit (06 R132): its words, or the fault of reading it. The read is
made at the start of the descriptor's block, as one act that sends no packet (DESIGN CHOICE, log entry 112). It bypasses the weight cache (06 R144). -/
def Device.readDesc (d : Device) (f a : Nat) : ((Cause × Status) ⊕ List Word) × Device :=
  let d' := d.bump 0x23 f 1
  if d.unmapped false a then (.inl (.address, .tileFault), d'.countUnmapped f)
  else
    match placeOf a with
    | .dram _ _ =>
      (match d'.cwRead (a / 64) with
       | (.success, l, d'') => (.inr (wordsOf l), d'')
       | (st, _, d'') => (.inl (.dataPoison, st), d''))
    | .tile t off =>
      if off < 0x100000 then
        (if (d.tile t).badIn off 64 then .inl (.dataPoison, .memoryUncorrectable) else .inr (wordsOf ((d.tile t).mem.read off 64)), d')
      else (.inl (.operandRange, .tileFault), d)
    | _ => (.inl (.operandRange, .tileFault), d)

/-- The check of the element addresses of the sides named (06 R134). -/
def Desc.badElems (x : Desc) (sb db : Int) (src dst : Bool) : Bool :=
  let l := x.elems sb db
  (src && l.any fun e => !e.srcOk x) || (dst && (l.any (fun e => !e.dstOk x) ||
    (x.pads db).any fun p => !sideOk x x.dlocal true p.1 p.2))

/-- The block's transfer begins: bases settled by the popped entry, element addresses checked, requests issued (06 R137 steps 2 and 3). -/
def Device.beginBlock (d : Device) (t : Nat) (l : List Word) (entry : Word) : Device :=
  let x := descOf l
  let b := handleBuf entry
  let sub := if x.wait then x.waitUse else 0
  let sb : Int := (if sub = 1 then b.1 + x.src else x.src : Nat)
  let db : Int := (if sub = 2 then b.1 + x.dst else x.dst : Nat)
  let es := x.elems sb db
  let bad :=
    (sub != 0 && decide (entryKind entry < 2)) ||
    (sub == 1 && es.any fun e => !inBuf b e.src e.len) || (sub == 2 && es.any fun e => !e.scale && !inBuf b e.dst e.dlen) ||
    (sub == 2 && (x.pads db).any fun p => !inBuf b p.1 p.2) || x.badElems sb db true true
  if bad then d.startFail t .operandRange .tileFault
  else
    let i := (d.tile t).strm.count
    let d := d.modTile t fun y => { y with strm := { y.strm with
      blocks := y.strm.blocks ++ [⟨i, l, y.strm.at_, 0, 0, false, false, false⟩], count := i + 1, waiting := none, popped := none
      next := if x.last then none else some (BitVec.ofNat 44 x.next)
      closed := y.strm.closed || x.last || x.yield } }
    (d.transfer t i x sb db).modTile t Tile.settleFail

/-- The block before the next one has issued its last request (06 R139): reads wait for no fill entry, and a block that writes to the network has all its data. -/
def Device.lastIssued (d : Device) (t : Nat) : Bool :=
  let s := (d.tile t).strm
  match s.blocks.find? (fun b => b.idx + 1 == s.count && decide (s.first ≤ b.idx)) with
  | none => true
  | some b => if (descOf b.words).dlocal then !(d.frond (t / 16)).wcWait.any (fun w => w.1 == t && w.2.1 == b.idx) else b.reads == 0

/-- Blocks of the list still have writes to be acknowledged (06 R137 step 1). -/
def Stream.unacked (s : Stream) : Bool := s.blocks.any fun b => decide (s.first ≤ b.idx) && (b.reads != 0 || b.writes != 0)

/-- A block starts once its descriptor passes its checks (06 R134): steps 1 and 2, and where nothing has to be waited for step 3 (06 R137). -/
def Device.startDesc (d d' : Device) (t : Nat) (l : List Word) : Device :=
  let x := d.tile t
  let y := descOf l
  let sub := if y.wait then y.waitUse else 0
  if descReserved l then d'.startFail t .reservedField .tileFault
  else if descRange y || y.badElems y.src y.dst (sub != 1) (sub != 2) then d'.startFail t .operandRange .tileFault
  else if y.barrier && x.strm.unacked then d
  else if y.wait then
    if d.queueDenied t y.waitQ then (if d.frondOn (y.waitQ / 64) then d' else d'.countUnmapped (t / 16)).startFail t .address .tileFault
    else
      let g := x.tagged
      (d'.modTile t fun z => { z with strm := { z.strm with waiting := some l, popped := none } }).submit (t / 16)
        ⟨.pop, y.waitQ, 0, 0, g.2.1, g.2.2, g.1, .stream t⟩
  else d'.beginBlock t l 0

/-- STREAM_BLOCK_START: the engine of tile t starts its next block, or takes a step towards it (06 R137). The writes of at most four blocks in a row
are to be acknowledged at once (log entry 25). -/
def streamBlockStart (t : Nat) (d : Device) : Device :=
  let x := d.tile t
  let s := x.strm
  if x.seq.wait ≠ some .stream || s.closed || s.failing.isSome || s.blocks.any (fun b => decide (b.idx + 4 ≤ s.count)) || !d.lastIssued t then d
  else
    match s.waiting, s.popped, s.next with
    | some l, some e, _ => d.beginBlock t l e
    | some _, none, _ => d
    | none, _, none => d
    | none, _, some a =>
      if a.toNat % 64 ≠ 0 then (if s.blocks.any (fun b => b.idx + 1 == s.count) then d else d.startFail t .operandRange .tileFault)
      else
        match d.readDesc (t / 16) a.toNat with
        | (.inl (c, st), d') => d'.startFail t c st
        | (.inr l, d') => d.startDesc d' t l

def execStreamBlockStart (t : Nat) (s : State) : Host.Outcome State Fault Refusal := runUnit (decide (t < nTiles)) (streamBlockStart t) s

/-- The list returns to the sequencer: after LAST STRM_STATE is 2, after YIELD 1 (06 R137 step 6). -/
def Tile.listReturns (t : Tile) (st : BitVec 2) : Tile :=
  { t with seq := { t.seq with strmState := st, wait := none } }.fallThrough

/-- The blocks of b's own list that come before it. -/
def Stream.before (s : Stream) (b : StrmBlock) : List StrmBlock :=
  s.blocks.filter fun c => decide (c.idx < b.idx) && (decide (s.first ≤ c.idx) || decide (b.idx < s.first))

/-- The block may signal: every write of every earlier block has been acknowledged, and earlier blocks have signalled, since pushes of one list take place in
list order (06 R137 step 5, R139). -/
def Stream.maySignal (s : Stream) (b : StrmBlock) : Bool :=
  !b.sigSent && (s.before b).all fun c => c.reads == 0 && c.writes == 0 && (!(descOf c.words).sig || c.sigDone)

/-- The block can take its next completion step: its writes are acknowledged, no earlier block has failed, and it may signal, or has done so, or needs not. -/
def Stream.completes (s : Stream) (b : StrmBlock) : Bool :=
  b.reads == 0 && b.writes == 0 && !b.dead && s.spared b.idx && (!(descOf b.words).sig || b.sigDone || s.maySignal b)

/-- STREAM_BLOCK_COMPLETE: the first block that can takes its next completion step: it signals, or it is complete and LAST or YIELD returns
(06 R137 steps 4 to 6). -/
def streamBlockComplete (t : Nat) (d : Device) : Device :=
  let x := d.tile t
  match x.strm.blocks.find? x.strm.completes with
  | none => d.modTile t Tile.settleFail
  | some b =>
    let y := descOf b.words
    if y.sig && !b.sigDone then
      if !validEntry y.hval then d.modTile t fun z => { z with strm := z.strm.fail b.idx .operandRange .tileFault }.settleFail
      else if d.queueDenied t y.sigQ then
        (if d.frondOn (y.sigQ / 64) then d else d.countUnmapped (t / 16)).modTile t fun z => { z with strm := z.strm.fail b.idx .address .tileFault }.settleFail
      else
        let g := x.tagged
        (d.modTile t fun z => { z with strm := z.strm.modBlock b.idx fun c => { c with sigSent := true } }).submit (t / 16)
          ⟨.push, y.sigQ, 0, y.hval, g.2.1, g.2.2, g.1, .stream t⟩
    else
      d.modTile t fun z =>
        let now := decide (z.strm.first ≤ b.idx) && decide (z.seq.wait = some .stream)
        let z := { z with strm := { z.strm with blocks := z.strm.blocks.filter fun c => c.idx != b.idx } }
        (if now && y.last then z.listReturns 2 else if now && y.yield then z.listReturns 1 else z).settleFail

def execStreamBlockComplete (t : Nat) (s : State) : Host.Outcome State Fault Refusal :=
  runUnit (decide (t < nTiles)) (streamBlockComplete t) s

/-! ## Answers to a frond attachment -/

/-- A read answer of a block, with its TXID's use. -/
def Device.frondRead (d : Device) (f : Nat) (p : Packet) : Device :=
  match Sparse.find (d.frond f).outst p.txid.toNat with
  | some (.streamRead t blk base len l) =>
    let d := d.modFrond f fun x => { x with outst := Sparse.del x.outst p.txid.toNat }
    if p.status = 0 then d.readDone t blk base (p.bytes.take len) l else d.readFailed t blk p.status
  | _ => d

/-- A write acknowledgement: SUB names the tile's slot and its block (log entry 25). -/
def Device.frondAck (d : Device) (f : Nat) (p : Packet) : Device :=
  let t := 16 * f + p.sub % 16
  match (d.tile t).strm.blocks.find? (fun b => b.idx % 4 == p.sub / 16) with
  | none => d
  | some b =>
    d.modTile t fun x =>
      let s := x.strm.modBlock b.idx fun c => { c with writes := c.writes - 1 }
      let s := if p.status = 0 then s else s.fail b.idx (answerFault p.status).1 (answerFault p.status).2
      { x with strm := s }.settleFail

/-- A read that waited for a fill entry looks its line up again; that of a block which has failed meanwhile is not made (06 R140). -/
def Device.wcAgain (f : Nat) (d : Device) (w : Nat × Nat × Nat × Nat × List Move) : Device :=
  if (d.tile w.1).strm.dead w.2.1 then
    d.modTile w.1 fun x => { x with strm := x.strm.modBlock w.2.1 fun b => { b with reads := b.reads - 1 } }.settleFail
  else d.wcRead f (w.2.2.1 / 512) false w

/-- A fill returns (06 R145, R148): its waiters get their data, and the line is installed unless it was invalidated meanwhile or the answer failed.
Every read that waited for a fill entry then looks its line up again, in order. -/
def Device.fillReturn (d : Device) (f : Nat) (p : Packet) : Device :=
  match Sparse.find (d.frond f).outst p.txid.toNat with
  | some (.fill line) =>
    let x := d.frond f
    let ws := ((x.wcFills.find? (fun y => y.line == line)).map (·.waiters)).getD []
    let keep := ((x.wcFills.find? (fun y => y.line == line)).map (·.install)).getD false
    let data := p.bytes.take 512
    let x := { x with
      outst := Sparse.del x.outst p.txid.toNat
      wcFills := x.wcFills.filter (fun y => y.line != line)
      wcLines := if keep && p.status == 0 then wcInstall x.wcLines ⟨line, data⟩ else x.wcLines }
    let d := d.setFrond f x
    let d := ws.foldl (fun d w => if p.status = 0 then d.readDone w.1 w.2.1 (512 * line) data w.2.2.2.2 else d.readFailed w.1 w.2.1 p.status) d
    (d.frond f).wcWait.foldl (Device.wcAgain f) (d.modFrond f fun y => { y with wcWait := [] })
  | _ => d

/-- An HRESP for a queue operation of the frond (09 R234): done, empty, or refused and to be retried; any other status is ADDRESS for a tile (06 R155). -/
def Device.frondHresp (d : Device) (f : Nat) (p : Packet) : Device :=
  match Sparse.find (d.frond f).outst p.txid.toNat with
  | some (.hop r) =>
    let d := d.modFrond f fun x => { x with outst := Sparse.del x.outst p.txid.toNat }
    if p.status ≠ 0 then
      match r.src with
      | .tile t => d.modTile t fun x => x.opFailed r
      | .stream t => d.modTile t fun x =>
          let i := if r.op = QOp.push then ((x.strm.blocks.find? fun b => b.sigSent && !b.sigDone).map StrmBlock.idx).getD 0 else x.strm.count
          { x with strm := { x.strm.fail i .address .tileFault with waiting := none } }.settleFail
      | _ => d
    else if p.result = 2 then d.modFrond f fun x => { x with retries := x.retries ++ [r] }
    else d.opResult f r p.result p.word0
  | _ => d

/-- The frond's oldest refused operation is sent again (06 R154). -/
def Device.frondRetry (d : Device) (f : Nat) : Device :=
  match (d.frond f).retries with
  | [] => d
  | r :: rest => (d.modFrond f fun x => { x with retries := rest }).submit f r

/-! ## Ramp lead (03 R72) -/

/-- Bytes that a block moves. -/
def Desc.bytes (x : Desc) : Nat := x.ext0 * x.ext1 * x.ext2 * (if x.mx ≠ 0 then x.mx + 1 else x.esize)

/-- The words of a descriptor that lies in DRAM or in an operand SRAM, seen without reading it. -/
def Device.seeDesc (d : Device) (a : Nat) : Option (List Word) :=
  match d.readDesc 0 a with
  | (.inr l, _) => some l
  | (.inl _, _) => none

/-- Bytes of the blocks from the descriptor at a on, to the YIELD or LAST that returns, up to more than lim; the fuel bounds the blocks. -/
def Device.bytesFrom (d : Device) (lim : Nat) : Nat → Nat → Option Nat
  | 0, _ => none
  | n + 1, a =>
    match d.seeDesc a with
    | none => none
    | some l =>
      let x := descOf l
      if x.last || x.yield then some x.bytes
      else if lim < x.bytes then some x.bytes
      else (d.bytesFrom (lim - x.bytes) n x.next).map (x.bytes + ·)

/-- Bytes that reads of a tile's block list have still to bring. -/
def Device.bytesDue (d : Device) (t : Nat) : Nat :=
  let f := d.frond (t / 16)
  let of := fun (l : List Move) => (l.map (·.len)).sum
  (f.outst.map fun e => match e.2 with | .streamRead u _ _ _ l => if u = t then of l else 0 | _ => 0).sum +
  ((f.wcFills.flatMap (·.waiters) ++ f.wcWait).map fun w => if w.1 = t then of w.2.2.2.2 else 0).sum

/-- A block list that holds the tile has 32 KiB or less left to transfer (03 R72). -/
def Device.nearEnd (d : Device) (t : Nat) : Bool :=
  let s := (d.tile t).strm
  let due := d.bytesDue t
  match s.waiting, s.next with
  | some l, _ => (match (if (descOf l).last || (descOf l).yield then some 0 else d.bytesFrom 32768 4096 (descOf l).next) with
    | some n => decide (due + (descOf l).bytes + n ≤ 32768)
    | none => false)
  | none, some a => if s.closed then decide (due ≤ 32768) else (match d.bytesFrom 32768 4096 a.toNat with
    | some n => decide (due + n ≤ 32768)
    | none => false)
  | none, none => decide (due ≤ 32768)

/-- Ramp lead (03 R72): with it enabled, a STRM or STRMY that blocks the tile and has 32 KiB or less left to transfer triggers the ramp-up. -/
def rampLead (t : Nat) (d : Device) : Device :=
  if d.pwr.lead && decide ((d.tile t).seq.wait = some .stream) && d.nearEnd t then d.modTile t fun x => { x with arr := x.arr.trigger } else d

def execRampLead (t : Nat) (s : State) : Host.Outcome State Fault Refusal := runUnit (decide (t < nTiles)) (rampLead t) s

end Sys2Proof.Machine
end

