-- ==== Sys2Proof/Machine/HostQ.lean ====
section
/-! DEFINITION. The host side of the command processor: addresses and host memory (08 R192, 15 R387, R395), MSI-X (08 R225), completions and
event records (08 R195-R201, R224), queues, doorbells and registers (08 R189-R194), fetching and arbitration (08 R197-R203), and what every
command's check shares (08 R200, R204). -/

namespace Sys2Proof.Machine

/-! ## Addresses in the form of R192 -/

def isHost (a : Word) : Bool := bitAt a 63
def hostAddr (a : Word) : Nat := fld a 0 63
def intAddr (a : Word) : Nat := fld a 0 44

/-- Reserved bits of an address with HOST = 0 (08 R192). -/
def addrBad (a : Word) : Bool := !isHost a && fld a 44 19 != 0

/-- Writes to host memory may be sent now (15 R384, R385). -/
def Device.hostUp (d : Device) : Bool := d.cxl.up && d.cxl.bme && !d.cxl.d3

/-- A line installed in the device coherency cache, most recently used first; at most 16 of its set (15 R387). -/
def dccInstall (l : List (Nat × List Byte)) (line : Nat) (data : List Byte) : List (Nat × List Byte) :=
  let l' := (line, data) :: l.filter (fun e => e.1 != line)
  let same := l'.filter (fun e => e.1 % 4096 == line % 4096)
  match (if 16 < same.length then same.getLast? else none) with
  | some y => l'.filter (fun e => e.1 != y.1)
  | none => l'

/-- One line of host memory: RdShared goes through the coherency cache in CXL mode, RdCurr installs nothing (15 R387). -/
def Device.hostLine (d : Device) (shared : Bool) (line : Nat) : List Byte × Device :=
  if shared && d.cxl.cxlMode then
    match d.cxl.dcc.find? (fun e => e.1 == line) with
    | some e => (e.2, { d with cxl := { d.cxl with dcc := dccInstall d.cxl.dcc line e.2 } })
    | none =>
      let l := d.hostMem.read (64 * line) 64
      (l, { d with cxl := { d.cxl with dcc := dccInstall d.cxl.dcc line l } })
  else (d.hostMem.read (64 * line) 64, d)

/-- Lines of host memory in a row. -/
def Device.hostLines (d : Device) (shared : Bool) (line : Nat) : Nat → List Byte × Device
  | 0 => ([], d)
  | n + 1 =>
    let r := d.hostLine shared line
    let q := Device.hostLines r.2 shared (line + 1) n
    (r.1 ++ q.1, q.2)

/-- Host memory may be read: over CXL.cache in CXL mode, by PCIe memory reads otherwise, which need bus-master enable and D0 (15 R382, R384). -/
def Device.hostReadable (d : Device) : Bool := d.cxl.up && (d.cxl.cxlMode || (d.cxl.bme && !d.cxl.d3))

/-- n bytes of host memory. Where it cannot be read the read fails with POISON (log entry 27). -/
def Device.hostRead (d : Device) (shared : Bool) (a n : Nat) : Status × List Byte × Device :=
  if n = 0 then (.success, [], d)
  else if d.hostReadable then
    let r := d.hostLines shared (a / 64) ((a + n - 1) / 64 + 1 - a / 64)
    (.success, (r.1.drop (a % 64)).take n, r.2)
  else (.poison, [], d)

/-! ## The hold area (15 R395) -/

/-- First byte of the hold area: an HDM offset of die 0, and so an internal address. -/
def Device.holdBase (d : Device) : Nat := d.variant.dram - 0x4000000

/-- A field of the area's header, as its controller serves it: writes accepted and still buffered count (10 R258). -/
def Device.holdField (d : Device) (off n : Nat) : Nat :=
  match d.dramRead (d.holdBase + off) n with
  | (.success, l, _) => leAt l 0 n
  | _ => 0

/-- The area is in use: its MAGIC stands. -/
def Device.holdLive (d : Device) : Bool := d.holdField 0 4 == 0x484F4C44

/-- Bytes of records in the area. -/
def Device.holdUsed (d : Device) : Nat := if d.holdLive then d.holdField 16 8 else 0

/-- Bytes a record takes. -/
def holdSize (n : Nat) : Nat := 16 + (n + 15) / 16 * 16

/-- Room for a record of n data bytes. -/
def Device.holdRoom (d : Device) (n : Nat) : Bool := decide (64 + d.holdUsed + holdSize n ≤ 0x4000000)

/-- A host-bound write appended to the hold area: KIND 0 token ring, 1 PROD, 2 command output. Without room, command output is counted in LOST. -/
def Device.hold (d : Device) (kind a : Nat) (l : List Byte) : Device :=
  let b := d.holdBase
  let count := if d.holdLive then d.holdField 8 8 else 0
  let used := d.holdUsed
  let lost := if d.holdLive then d.holdField 24 8 else 0
  let hdr := fun (d : Device) (c u x : Nat) =>
    (d.dramWrite b (leBytes 8 0x484F4C44 ++ leBytes 8 c ++ leBytes 8 u ++ leBytes 8 x)).2
  if d.holdRoom l.length then
    let pad := List.replicate (holdSize l.length - 16 - l.length) (0 : Byte)
    let d := (d.dramWrite (b + 64 + used) (leBytes 8 a ++ leBytes 4 l.length ++ leBytes 4 kind ++ l ++ pad)).2
    let d := hdr d (count + 1) (used + holdSize l.length) lost
    if kind = 0 ∧ !d.cxl.up then { d with cxl := { d.cxl with heldTokens := d.cxl.heldTokens + l.length / 8 } } else d
  else if kind = 2 then hdr d count used (lost + l.length)
  else d

/-- A host-bound write other than a completion or event record: sent, or held (15 R395). -/
def Device.hostWrite (d : Device) (kind a : Nat) (l : List Byte) : Device :=
  if d.hostUp then { d with hostMem := d.hostMem.write a l } else d.hold kind a l

/-- Bytes read at an address in the form of R192 for a command. -/
def Device.addrRead (d : Device) (shared : Bool) (a : Word) (n : Nat) : Status × List Byte × Device :=
  if isHost a then d.hostRead shared (hostAddr a) n else d.agentRead (intAddr a) n

/-- Bytes written at an address in the form of R192 for a command or a RUN. -/
def Device.addrWrite (d : Device) (kind : Nat) (a : Word) (l : List Byte) : Status × Device :=
  if isHost a then (.success, d.hostWrite kind (hostAddr a) l) else d.agentWrite (intAddr a) l

/-- A ring's bytes read by the command processor, which R389 does not name among the agents that wait for host-bias lines (log entry 30). -/
def Device.ringRead (d : Device) (a : Word) (n : Nat) : Status × List Byte × Device :=
  if isHost a then d.hostRead false (hostAddr a) n else d.dramRead (intAddr a) n

/-! ## MSI-X (08 R225) -/

/-- The message of vector v may be sent: MSI-X is enabled and the function not masked, and the vector is unmasked (08 R225, 15 R384). -/
def Device.msiOpen (d : Device) (v : Nat) : Bool := bitAt d.host.msix.unmasked v && d.hostUp && d.cxl.msixEn && !d.cxl.msixMask

/-- The message of vector v: sent, or pending while it may not be sent. -/
def Device.msi (d : Device) (v : Nat) : Device :=
  let m := d.host.msix
  if d.msiOpen v then
    let a := pack [((Sparse.get 0 m.table (4 * v)).toNat, 0), ((Sparse.get 0 m.table (4 * v + 1)).toNat, 32)]
    { d with host := { d.host with msix := { m with sent := (v, a, Sparse.get 0 m.table (4 * v + 2)) :: m.sent, pba := setFld m.pba v 1 0 } } }
  else { d with host := { d.host with msix := { m with pba := setFld m.pba v 1 1 } } }

/-- Queue q's completion ring signals its vector, if it may. -/
def Device.signal (d : Device) (q : Nat) : Device :=
  let x := d.queue q
  let d := d.setQueue q { x with coalPosted := 0 }
  if x.ien then d.msi x.vector.toNat else d

/-- The host writes a vector's mask; unmasking a pending vector sends its message. -/
def msixMaskWrite (v : Nat) (mask : Bool) (d : Device) : Device :=
  let m := d.host.msix
  let d := { d with host := { d.host with msix := { m with unmasked := setFld m.unmasked v 1 (b2n (!mask)) } } }
  if !mask && bitAt m.pba v then d.msi v else d

def execMsixMaskWrite (v : Nat) (mask : Bool) (s : State) : Host.Outcome State Fault Refusal :=
  runUnit (decide (v < 64)) (msixMaskWrite v mask) s

/-! ## Completions -/

/-- Slots of queue q's completion ring the device may write (08 R195). -/
def HostQueue.free (x : HostQueue) : Nat :=
  let n := x.cqSize.toNat + 1
  (x.cqHead.toNat + n - x.cqTail.toNat - 1) % n

/-- Commands of queue q in flight. -/
def Device.inFlight (d : Device) (q : Nat) : Nat := (d.host.inflight.filter (fun c => c.q == q)).length

/-- A completion entry written at CQ_TAIL (08 R195, R198). -/
def Device.writeEntry (d : Device) (q tag : Nat) (st : Nat) (evt : Bool) (detail : Nat) (r0 r1 r2 : Word) : Device :=
  let x := d.queue q
  let l := leBytes 2 tag ++ leBytes 1 st ++ leBytes 1 (b2n x.cqPhase + 2 * b2n evt) ++ leBytes 2 x.sqHead.toNat ++ leBytes 2 detail ++
    leBytes 8 r0.toNat ++ leBytes 8 r1.toNat ++ leBytes 8 r2.toNat
  let off := 32 * x.cqTail.toNat
  let wrap := decide (x.cqTail = x.cqSize)
  let d := d.setQueue q { x with cqTail := if wrap then 0 else x.cqTail + 1, cqPhase := if wrap then !x.cqPhase else x.cqPhase }
  if isHost x.cqBase then { d with hostMem := d.hostMem.write (hostAddr x.cqBase + off) l } else (d.dramWrite (intAddr x.cqBase + off) l).2

/-- The command leaves the in-flight table: it is DONE (07 R186). -/
def Device.leave (d : Device) (q tag : Nat) : Device :=
  { d with host := { d.host with
      inflight := d.host.inflight.filter (fun c => !(c.q == q && c.tag.toNat == tag))
      heldOrder := d.host.heldOrder.filter (fun e => e != some (q, tag)) } }

/-- A command's completion is posted, held, or discarded (08 R193, R228, 15 R384, R385). -/
def Device.postCpl (d : Device) (c : Cmd) (p : Cpl) : Device :=
  let tag := c.tag.toNat
  let x := d.queue c.q
  let hold := { d with host := { d.host with
      inflight := d.host.inflight.map (fun e => if e.q == c.q && e.tag == c.tag then { e with st := .completing, held := some p } else e)
      heldOrder := if d.host.heldOrder.elem (some (c.q, tag)) then d.host.heldOrder else d.host.heldOrder ++ [some (c.q, tag)] } }
  if c.discard then d.leave c.q tag
  else if isHost x.cqBase && !d.cxl.up then
    let d := (d.leave c.q tag).bump 4 0 1
    { d with cxl := { d.cxl with discarded := d.cxl.discarded + 1 } }
  else if isHost x.cqBase && !d.hostUp then hold
  else
    let d := (d.leave c.q tag).writeEntry c.q tag p.status.code false p.detail.toNat p.r0 p.r1 p.r2
    let d := d.bump 0 c.q 1
    let d := if 3 ≤ p.status.code then d.bump 1 c.q 1 else d
    if c.noint then d
    else
      let y := d.queue c.q
      let n := y.coalPosted + 1
      if max 1 y.coalCount.toNat ≤ n then d.signal c.q else d.setQueue c.q { y with coalPosted := n }

/-- The command of queue q with tag g. -/
def Device.cmdOf (d : Device) (q g : Nat) : Option Cmd := d.host.inflight.find? (fun c => c.q == q && c.tag.toNat == g)

/-- A command completes (07 R186). -/
def Device.complete (d : Device) (q g : Nat) (p : Cpl) : Device :=
  match d.cmdOf q g with
  | some c => d.postCpl c p
  | none => d

/-- A completion with a status and results. -/
def cpl (st : Status) (r0 r1 r2 : Word) : Cpl := ⟨st, 0, r0, r1, r2⟩

/-- A completion with a status alone. -/
def cplOf (st : Status) : Cpl := ⟨st, 0, 0, 0, 0⟩

/-- INVALID_PARAM with the byte offset of the offending field (08 R200). -/
def cplBad (off : Nat) : Cpl := ⟨.invalidParam, BitVec.ofNat 16 off, 0, 0, 0⟩

/-- INVALID_PARAM for a structure in memory: its number and the entry's index (08 R200). -/
def cplStruct (n i : Nat) : Cpl := ⟨.invalidParam, BitVec.ofNat 16 (0x8000 + n), 0, 0, BitVec.ofNat 64 i⟩

/-- A held completion is posted. -/
def Device.postHeld (d : Device) (q g : Nat) : Device :=
  match d.cmdOf q g with
  | some c => (match c.held with | some p => d.postCpl c p | none => d)
  | none => d

/-! ## Events -/

/-- EVENT_POST: the oldest event record enters queue 0's ring when a held-back slot is free (08 R224). In D3hot records wait in the buffer (15 R385). While
the host link is lost, a record bound for host memory is discarded and counted (08 R228). -/
def eventPost (d : Device) : Device :=
  match d.host.events with
  | [] => d
  | e :: rest =>
    let x := d.queue 0
    let ok := !d.cxl.d3 && decide (x.st = .active) && decide (d.host.evSlots.length < 16) && decide (d.inFlight 0 < x.free) &&
      (!isHost x.cqBase || d.hostUp)
    if isHost x.cqBase && d.cxl.lost && !d.cxl.up then
      let d := ({ d with host := { d.host with events := rest } }).bump 4 0 1
      { d with cxl := { d.cxl with discarded := d.cxl.discarded + 1 } }
    else if ok then
      let slot := x.cqTail.toNat
      let lost := d.host.lost
      let d := { d with host := { d.host with events := rest, lost := 0, evSlots := d.host.evSlots ++ [slot] } }
      (d.writeEntry 0 0 0 true e.code e.r0 e.r1 (BitVec.ofNat 64 lost.toNat)).signal 0
    else d

def execEventPost (s : State) : Host.Outcome State Fault Refusal := run eventPost s

/-- Held completions, and the event records of the buffer, are posted in the order in which they arose (15 R385): first the records older than the first
held completion. -/
def Device.releaseHeldCpls (d : Device) : Device :=
  let l := d.host.heldOrder
  let older := d.host.events.length - (l.filter (·.isNone)).length
  let d := if l.isEmpty then d else (List.range older).foldl (fun d _ => eventPost d) d
  let d := l.foldl (fun d e => match e with | some e => d.postHeld e.1 e.2 | none => eventPost d) d
  { d with host := { d.host with heldOrder := d.host.heldOrder.filter (·.isSome) } }

/-- COAL_TIMER: the coalescing time of queue q has passed since its first unsignalled completion (08 R225). -/
def coalTimer (q : Nat) (d : Device) : Device :=
  let x := d.queue q
  if x.coalTime = 0 ∨ x.coalPosted = 0 then d else d.signal q

def execCoalTimer (q : Nat) (s : State) : Host.Outcome State Fault Refusal := runUnit (decide (q < nQueues)) (coalTimer q) s

/-! ## Registers (08 R189-R193) -/

/-- BAR0 is served: the link is up, memory space enabled, the function in D0, and the die managers run (15 R384, R385, R393). -/
def Device.barServed (d : Device) : Bool := d.cxl.up && d.cxl.mse && !d.cxl.d3 && decide (d.rst.st ≠ .reset)

/-- A base that the checks of R193 refuse. -/
def Device.baseBad (d : Device) (a : Word) : Bool :=
  fld a 0 12 != 0 || addrBad a || (!isHost a && !d.dramRange (intAddr a) 1)

/-- Fields of a Q_CFG image (08 R192). -/
def cfgVector (w : Word) : BitVec 6 := BitVec.ofNat 6 (fld w 50 6)
def cfgIen (w : Word) : Bool := bitAt w 49
def cfgCount (w : Word) : BitVec 8 := BitVec.ofNat 8 (fld w 40 8)
def cfgTime (w : Word) : BitVec 12 := BitVec.ofNat 12 (fld w 28 12)
def cfgCq (w : Word) : BitVec 12 := BitVec.ofNat 12 (fld w 16 12)
def cfgSq (w : Word) : BitVec 12 := BitVec.ofNat 12 (fld w 0 12)

/-- A Q_CFG image that the checks of R193 refuse. -/
def cfgBad (w : Word) : Bool := cfgCq w == 0 || cfgSq w == 0 || (decide (1 < (cfgCount w).toNat) && cfgTime w == 0)

/-- A queue with the fields of a Q_CFG image. -/
def HostQueue.config (x : HostQueue) (w : Word) : HostQueue :=
  { x with vector := cfgVector w, ien := cfgIen w, coalCount := cfgCount w, coalTime := cfgTime w, cqSize := cfgCq w, sqSize := cfgSq w }

/-- A queue becomes ACTIVE (08 R193). -/
def HostQueue.activate (x : HostQueue) (time : Word) : HostQueue :=
  { x with enable := true, st := .active, error := 0, sqHead := 0, cqTail := 0, cqPhase := true, sqTail := 0, cqHead := 0, coalPosted := 0,
           tf := time, hint := 0 }

/-- Q_CFG of a queue (08 R192). -/
def HostQueue.cfgWord (x : HostQueue) : Word :=
  pack [(b2n x.enable, 63), (x.cls.toNat, 56), (x.vector.toNat, 50), (b2n x.ien, 49), (x.coalCount.toNat, 40), (x.coalTime.toNat, 28),
        (x.cqSize.toNat, 16), (x.sqSize.toNat, 0)]

def QState.code : QState → Nat
  | .disabled => 0 | .active => 1 | .stopped => 2

/-- Q_STATE of a queue (08 R192). -/
def HostQueue.stateWord (x : HostQueue) : Word :=
  pack [(x.st.code, 56), (x.error.toNat, 48), (b2n x.cqPhase, 28), (x.cqTail.toNat, 16), (x.sqHead.toNat, 0)]

/-- Q_ENABLE: a write of Q_CFG that sets ENABLE of queue 0 (08 R193). After a loss of the host link, fetching resumes with it (15 R394). -/
def qEnable (cfg : Word) (d : Device) : Device :=
  let x := d.queue 0
  if !d.barServed || x.enable || !bitAt cfg 63 then d
  else
    let y := x.config cfg
    if cfgBad cfg || d.baseBad x.sqBase || d.baseBad x.cqBase then
      d.setQueue 0 { y with enable := true, st := .disabled, error := BitVec.ofNat 8 Status.invalidParam.code }
    else
      let d := d.setQueue 0 (y.activate (d.time 0))
      { d with host := { d.host with evSlots := [], fetchStopped := false } }

def execQEnable (cfg : Word) (s : State) : Host.Outcome State Fault Refusal := run (qEnable cfg) s

/-- Q_DISABLE: a write of Q_CFG that clears ENABLE of queue 0 (08 R193). -/
def qDisable (cfg : Word) (d : Device) : Device :=
  let x := d.queue 0
  if !d.barServed || !x.enable || bitAt cfg 63 then d
  else
    let d := d.setQueue 0 { x with enable := false, st := .disabled }
    { d with host := { d.host with inflight := d.host.inflight.map fun c => if c.q = 0 then { c with discard := true } else c } }

def execQDisable (cfg : Word) (s : State) : Host.Outcome State Fault Refusal := run (qDisable cfg) s

/-- A doorbell write that is ignored: counted, and reported (08 R194, R222). -/
def Device.badDoorbell (d : Device) (q : Nat) (cq : Bool) (v : BitVec 32) : Device :=
  (d.bump 2 q 1).raise 3 (pack [(q, 0), (b2n cq, 6), (fld v 0 12, 16)]) 0

/-- SQ_TAIL of queue q (08 R194). -/
def sqTailDoorbell (q : Nat) (v : BitVec 32) (d : Device) : Device :=
  let x := d.queue q
  if !d.barServed then d
  else if x.st ≠ .active ∨ x.sqSize.toNat < fld v 0 12 then d.badDoorbell q false v
  else d.setQueue q { x with sqTail := BitVec.ofNat 12 (fld v 0 12) }

def execSqTailDoorbell (q : Nat) (v : BitVec 32) (s : State) : Host.Outcome State Fault Refusal :=
  runUnit (decide (q < nQueues)) (sqTailDoorbell q v) s

/-- Slot s of a ring of n lies in [head, tail). -/
def inRing (n head tail s : Nat) : Bool := decide ((s + n - head) % n < (tail + n - head) % n)

/-- CQ_HEAD of queue q (08 R194): slots consumed are free, those of event records too. -/
def cqHeadDoorbell (q : Nat) (v : BitVec 32) (d : Device) : Device :=
  let x := d.queue q
  if !d.barServed then d
  else if x.st ≠ .active ∨ x.cqSize.toNat < fld v 0 12 then d.badDoorbell q true v
  else
    let h := fld v 0 12
    let d := d.setQueue q { x with cqHead := BitVec.ofNat 12 h }
    if q = 0 then
      { d with host := { d.host with evSlots := d.host.evSlots.filter (inRing (x.cqSize.toNat + 1) h x.cqTail.toNat) } }
    else d

def execCqHeadDoorbell (q : Nat) (v : BitVec 32) (s : State) : Host.Outcome State Fault Refusal :=
  runUnit (decide (q < nQueues)) (cqHeadDoorbell q v) s

/-- The tiles DEV_STATUS reports (08 R190, 14 R373). -/
def Device.tilesInService (d : Device) : Nat :=
  match d.rst.st with
  | .reset => 0
  | .early => 0
  | .fiddlehead => (((d.frondsOf 0).filter (fun f => !(d.frond f).withheld)).map (fun f => (d.tilesOf f).length)).sum
  | .ready => d.tilesAvail
  | .diagHold => d.rst.holdTiles

/-- DEV_STATUS (08 R190). -/
def Device.devStatus (d : Device) : Word :=
  pack [(d.tilesInService, 16), (b2n d.rst.fatal, 8), (b2n (decide (d.rst.st = .ready) && decide (d.tilesInService < d.variant.tiles)), 7),
        (d.rst.st.code, 0)]

def ResetClass.code : ResetClass → Nat
  | .cold => 0 | .warm => 1 | .function => 2

def ResetCause.code : ResetCause → Nat
  | .powerOn => 1 | .brownout => 2 | .modulePin => 3 | .cxlPerst => 4 | .cxlHotReset => 5 | .cxlReset => 6 | .flr => 7 | .swWarm => 8
  | .watchdog => 9 | .thermalTrip => 10 | .security => 11

/-- RST_CAUSE (08 R190). -/
def Device.rstCause (d : Device) : Word := pack [(d.rst.cls.code, 8), (d.rst.cause.code, 0)]

/-- ID_DEVICE (08 R190). -/
def Device.idDevice (d : Device) : Word := pack [(1, 40), (0x0E17, 16), (d.fuses.variant.toNat, 0)]

/-- ID_REV (08 R190). -/
def Device.idRev (d : Device) : Word := pack [(d.sec.fwVersion.toNat, 32), (d.fuses.stepping.toNat, 0)]

/-- The 64-bit register at a multiple of 8 of BAR0 (08 R189, R192). -/
def Device.barWord (d : Device) (off : Nat) : Word :=
  if off = 0 then d.idDevice
  else if off = 8 then d.fuses.serial
  else if off = 0x10 then d.idRev
  else if off = 0x1000 then d.devStatus
  else if off = 0x1008 then d.rstCause
  else if 0x10000 ≤ off ∧ off < 0x11000 then
    let x := d.queue ((off - 0x10000) / 64)
    match off % 64 with
    | 0 => x.sqBase
    | 8 => x.cqBase
    | 0x10 => x.cfgWord
    | 0x18 => x.stateWord
    | _ => 0
  else if 0x200000 ≤ off ∧ off < 0x200400 then
    let v := (off - 0x200000) / 16
    let m := d.host.msix
    if off % 16 = 0 then pack [((Sparse.get 0 m.table (4 * v)).toNat, 0), ((Sparse.get 0 m.table (4 * v + 1)).toNat, 32)]
    else pack [((Sparse.get 0 m.table (4 * v + 2)).toNat, 0), ((Sparse.get 0 m.table (4 * v + 3)).toNat / 2 * 2 + b2n (!bitAt m.unmasked v), 32)]
  else if off = 0x201000 then d.host.msix.pba
  else 0

/-- A read of BAR0 (08 R190): naturally aligned, of 4 or 8 bytes; anything else reads 0. No read has a side effect. -/
def Device.barRead (d : Device) (off size : Nat) : Word :=
  if size = 8 ∧ off % 8 = 0 ∧ off < 0x1000000 then d.barWord off
  else if size = 4 ∧ off % 4 = 0 ∧ off < 0x1000000 then BitVec.ofNat 64 (fld (d.barWord (off / 8 * 8)) (8 * (off % 8)) 32)
  else 0

/-- A 32-bit word of the MSI-X table written; word 3 is the vector's control, whose bit 0 is its mask (08 R189). -/
def Device.msixWrite (d : Device) (off : Nat) (v : BitVec 32) : Device :=
  let n := (off - 0x200000) / 4
  if n % 4 = 3 then msixMaskWrite (n / 4) (bitAt v 0) d
  else { d with host := { d.host with msix := { d.host.msix with table := Sparse.put 0 d.host.msix.table n v } } }

/-- A 64-bit write of a register of BAR0: those of queue 0, as R193 says. -/
def Device.barWrite8 (d : Device) (off : Nat) (v : Word) : Device :=
  let x := d.queue 0
  if off = 0x10000 then (if x.enable then d else d.setQueue 0 { x with sqBase := v })
  else if off = 0x10008 then (if x.enable then d else d.setQueue 0 { x with cqBase := v })
  else if off = 0x10010 then
    (if x.enable then (if bitAt v 63 then d else qDisable v d)
     else if bitAt v 63 then qEnable v d else d.setQueue 0 (x.config v))
  else d

/-- A doorbell register at a multiple of 4 (08 R194). -/
def Device.doorbell (d : Device) (off : Nat) (v : BitVec 32) : Device :=
  let q := (off - 0x100000) / 0x1000
  match off % 0x1000 with
  | 0 => sqTailDoorbell q v d
  | 4 => cqHeadDoorbell q v d
  | _ => d

/-- A 32-bit write, at a multiple of 4. -/
def Device.barWrite4 (d : Device) (off : Nat) (v : BitVec 32) : Device :=
  if 0x100000 ≤ off ∧ off < 0x140000 then d.doorbell off v
  else if 0x200000 ≤ off ∧ off < 0x200400 then d.msixWrite off v
  else
    let o := off / 8 * 8
    d.barWrite8 o (setFld (d.barWord o) (8 * (off % 8)) 32 v.toNat)

/-- REGISTER_WRITE: a write of BAR0 (08 R190): naturally aligned, of 4 or 8 bytes; anything else is ignored. -/
def registerWrite (off size : Nat) (v : Word) (d : Device) : Device :=
  if !d.barServed || decide (0x1000000 ≤ off) then d
  else if size = 4 ∧ off % 4 = 0 then d.barWrite4 off (BitVec.ofNat 32 (fld v 0 32))
  else if size = 8 ∧ off % 8 = 0 then
    (if (0x100000 ≤ off ∧ off < 0x140000) ∨ (0x200000 ≤ off ∧ off < 0x200400) then
       (d.barWrite4 off (BitVec.ofNat 32 (fld v 0 32))).barWrite4 (off + 4) (BitVec.ofNat 32 (fld v 32 32))
     else d.barWrite8 off v)
  else d

def execRegisterWrite (off size : Nat) (v : Word) (s : State) : Host.Outcome State Fault Refusal := run (registerWrite off size v) s

/-! ## Fetching (08 R201-R203) -/

/-- Whether queue q may be granted a fetch, and holds an entry. -/
def Device.mayFetch (d : Device) (q : Nat) : Bool :=
  let x := d.queue q
  let n := d.inFlight q
  let total := d.host.inflight.length
  decide (x.st = .active) && decide (x.sqHead ≠ x.sqTail) &&
  (if q = 0 then decide (n + (16 - d.host.evSlots.length) < x.free) && decide (total < 2048)
   else decide (n < x.free) && decide (total < 2048) && decide (total - d.inFlight 0 < 2016))

/-- The queue of a class granted next: round-robin after the one served last (08 R202). -/
def Device.classQueue (d : Device) (cls last : Nat) : Option Nat :=
  ((List.range 64).map (fun i => (last + 1 + i) % 64)).find? (fun q => (d.queue q).cls.toNat == cls && d.mayFetch q)

/-- The queue served last in a class, and the weight of a class. -/
def Arbiter.lastOf (a : Arbiter) (c : Nat) : Nat := if c = 0 then a.last0 else if c = 1 then a.last1 else a.last2
def HostIf.weight (h : HostIf) (c : Nat) : Nat := if c = 0 then h.wh.toNat else if c = 1 then h.wm.toNat else h.wl.toNat

/-- One grant of the arbiter: the class in turn while it has grants left and an eligible queue, otherwise the next class (08 R202). -/
def Device.arbitrate (d : Device) (a : Arbiter) : Nat → Option (Nat × Arbiter)
  | 0 => none
  | n + 1 =>
    match (if a.left = 0 then none else d.classQueue a.cls (a.lastOf a.cls)) with
    | some q =>
      some (q, { a with
        left := a.left - 1
        last0 := if a.cls = 0 then q else a.last0
        last1 := if a.cls = 1 then q else a.last1
        last2 := if a.cls = 2 then q else a.last2 })
    | none =>
      let c := (a.cls + 1) % 3
      Device.arbitrate d { a with cls := c, left := d.host.weight c } n

/-- An opcode that is allocated and permitted on queue q (08 R204). -/
def opPermitted (op q : Nat) : Bool :=
  let any := decide (op ≤ 2) || (decide (0x10 ≤ op) && decide (op ≤ 0x13)) || (decide (0x20 ≤ op) && decide (op ≤ 0x24)) ||
    (decide (0x30 ≤ op) && decide (op ≤ 0x36)) || (decide (0x40 ≤ op) && decide (op ≤ 0x43)) ||
    (decide (0x50 ≤ op) && decide (op ≤ 0x52)) || op == 0x60
  let admin := (decide (3 ≤ op) && decide (op ≤ 9)) || (decide (0x53 ≤ op) && decide (op ≤ 0x55)) ||
    (decide (0x61 ≤ op) && decide (op ≤ 0x63))
  any || (admin && q == 0)

/-- An opcode served in a state (08 R204). -/
def opServed (st : DevState) (op : Nat) : Bool :=
  if op ≤ 2 ∨ (0x50 ≤ op ∧ op ≤ 0x52) ∨ 0x60 ≤ op then true
  else if op ≤ 9 then decide (st = .fiddlehead) || decide (st = .ready) || op == 5 || op == 6 || op == 8 || op == 9
  else if op ≤ 0x24 then decide (st = .fiddlehead) || decide (st = .ready)
  else if op ≤ 0x43 then decide (st = .ready)
  else decide (st = .ready) || decide (st = .diagHold)

/-- Reserved encodings of an opcode's own OP field, which no row of the table carries out: the byte that names them (08 R205, R214, R215, R217). -/
def opReserved (op : Nat) (p : List Word) : Option Nat :=
  let w := fun (i : Nat) => p.getD i 0
  match op with
  | 0x05 => if fld (w 0) 0 2 = 3 then some 8 else none
  | 0x40 => if 4 < fld (w 1) 0 3 then some 16 else none
  | 0x63 => if fld (w 0) 0 2 = 3 then some 8 else none
  | _ => none

/-- The entry fetched, as a command (08 R197). -/
def parseCmd (q : Nat) (l : List Byte) : Cmd :=
  { q := q, tag := BitVec.ofNat 16 (leAt l 2 2), op := l.getD 0 0, order := bitAt (l.getD 1 0) 0, noint := bitAt (l.getD 1 0) 1
    p := (List.range 7).map fun i => BitVec.ofNat 64 (leAt l (8 + 8 * i) 8), st := .queued, discard := false, held := none, counts := (0, 0) }

/-- The horizon of an ACTIVE queue, in 10 ns ticks of die 0's time counter. -/
def Device.queueHorizon (d : Device) (q : Nat) : Nat :=
  let x := d.queue q
  let t := (d.time 0).toNat
  let due := x.tf.toNat + 100 * x.hint.toNat
  if x.sqHead ≠ x.sqTail then 0
  else if x.hint ≠ 0 ∧ t < due then due - t
  else t - x.tf.toNat

/-- The smaller of two horizons; none is unbounded. -/
def minHorizon (a : Option Nat) (n : Nat) : Option Nat := some (match a with | some m => min m n | none => n)

/-- The device horizon H; with no queue ACTIVE it is unbounded. -/
def Device.newHorizon (d : Device) : Option Nat :=
  ((List.range nQueues).filter fun q => decide ((d.queue q).st = .active)).foldl (fun a q => minHorizon a (d.queueHorizon q)) none

/-- H is sent to every die manager, which counts it down. -/
def Device.sendHorizon (d : Device) : Device := { d with host := { d.host with horizon := d.newHorizon } }

/-- A RUN that completes without dispatching an item names no item (08 R212). -/
def noItem (p : Cpl) : Cpl := { p with r0 := pack [(0xFFFFFFFF, 32)] }

/-- The completion of a command refused before its body runs. -/
def refusal (op : Nat) (p : Cpl) : Cpl := if op = 0x21 then noItem p else p

/-- COMMAND_FETCH: one grant, and the entry at SQ_HEAD is fetched (08 R202, R203). What no later step of the command would serve, an opcode that
is not permitted, a tag still in use, a reserved flag, completes at once. -/
def commandFetch (d : Device) : Device :=
  if d.host.fetchStopped || !d.cxl.up || !d.cxl.bme || d.cxl.d3 || decide (d.rst.st = .reset) then d
  else
    match d.arbitrate d.host.arb 4 with
    | none => d
    | some (q, a) =>
      let x := d.queue q
      let d := { d with host := { d.host with arb := a } }
      match d.ringRead (x.sqBase + BitVec.ofNat 64 (64 * x.sqHead.toNat)) 64 with
      | (.success, l, d) =>
        let x := d.queue q
        let d := d.setQueue q { x with
          sqHead := if x.sqHead = x.sqSize then 0 else x.sqHead + 1, tf := d.time 0, hint := BitVec.ofNat 32 (leAt l 4 4) }
        let d := d.sendHorizon
        let c := parseCmd q l
        let dup := (d.cmdOf q c.tag.toNat).isSome
        let bad : Option Cpl :=
          if !opPermitted c.op.toNat q then some (cplOf .invalidOpcode)
          else if fld (l.getD 1 0) 2 6 ≠ 0 then some (cplBad 1)
          else if dup then some (cplBad 2)
          else (opReserved c.op.toNat c.p).map cplBad
        match bad.map (refusal c.op.toNat) with
        | none => { d with host := { d.host with inflight := d.host.inflight ++ [c] } }
        | some p =>
          if dup then
            -- the earlier command keeps its place; the refused one is completed beside it
            let others := d.host.inflight
            let d := { d with host := { d.host with inflight := [c] } }
            let d := d.postCpl c p
            { d with host := { d.host with inflight := others } }
          else ({ d with host := { d.host with inflight := d.host.inflight ++ [c] } }).postCpl c p
      | (st, _, d) =>
        let x := d.queue q
        (d.setQueue q { x with st := .stopped, error := BitVec.ofNat 8 st.code }).raise 2 (pack [(q, 0), (st.code, 8)]) 0

def execCommandFetch (s : State) : Host.Outcome State Fault Refusal := run commandFetch s

/-! ## Running a command -/

/-- Parameter word n, 1 to 7. -/
def Cmd.pw (c : Cmd) (n : Nat) : Word := c.p.getD (n - 1) 0

/-- A mask of the bits of the fields given as (lowest bit, width). -/
def bits (l : List (Nat × Nat)) : Word := BitVec.ofNat 64 (l.foldl (fun a e => a ||| ((2 ^ e.2 - 1) <<< e.1)) 0)

/-- Every bit of a word. -/
def allBits : Word := BitVec.allOnes 64

/-- The bits of an address in the form of R192: with HOST = 0, [62:44] are reserved. -/
def addrBits (a : Word) : Word := if isHost a then allBits else bits [(0, 44)]

/-- The lowest bit of the reserved field in which bit b of a word lies: the reserved bits next to it, down to the first bit of a field (08 R197, R200). -/
def fieldLow (mask : Word) : Nat → Nat
  | 0 => 0
  | b + 1 => if bitAt mask b then b + 1 else fieldLow mask b

/-- Byte offset in the entry of the first reserved field of which a bit is set, over the masks of P1, P2, … (08 R197, R200; R12). -/
def reservedAt (c : Cmd) (masks : List Word) : Option Nat :=
  (List.range 7).findSome? fun i =>
    let m := masks.getD i 0
    let bad := c.pw (i + 1) &&& ~~~m
    ((List.range 64).find? (bitAt bad)).map fun b => 8 + 8 * i + fieldLow m b / 8

/-- The first of a command's fields whose value breaks a rule: conditions in the order of the fields, with the byte offset of each. -/
def firstBad (l : List (Bool × Nat)) : Option Nat := (l.find? (·.1)).map (·.2)

/-- No check beyond the reserved fields. -/
def noBad (_ : Cmd) (_ : Device) : Option Nat := none

/-- The smaller of two offsets. -/
def minOff : Option Nat → Option Nat → Option Nat
  | some a, some b => some (min a b)
  | some a, none => some a
  | none, b => b

/-- Every command fetched earlier from the same queue is DONE (08 R197 ORDER). -/
def Device.earlierDone (d : Device) (c : Cmd) : Bool :=
  (d.host.inflight.takeWhile (fun e => !(e.q == c.q && e.tag == c.tag))).all (fun e => e.q != c.q)

/-- The command of queue q with tag g is carried out, if it is fetched, of this opcode and kind, not started, and in order. Its state, its reserved
fields and the fields' values are checked first; DETAIL names the first offending field (08 R200, R204). -/
def cmdRun (op : Nat) (kind : Cmd → Bool) (masks : Cmd → List Word) (bad : Cmd → Device → Option Nat) (body : Cmd → Device → Device) (q g : Nat)
    (d : Device) : Device :=
  match d.cmdOf q g with
  | none => d
  | some c =>
    if c.op.toNat ≠ op ∨ c.st ≠ .queued ∨ !kind c ∨ (c.order ∧ !d.earlierDone c) then d
    else if !opServed d.rst.st op then d.complete q g (refusal op (cplOf .notReady))
    else
      match minOff (reservedAt c (masks c)) (bad c d) with
      | some off => d.complete q g (refusal op (cplBad off))
      | none => body c d

/-- A command of any kind of its opcode. -/
def anyKind (_ : Cmd) : Bool := true

/-- A command as a step: the queue number must be one the part has. What it reads and writes in host-bias pages waits for the host's copies (15 R389). -/
def runCmd (op : Nat) (kind : Cmd → Bool) (masks : Cmd → List Word) (bad : Cmd → Device → Option Nat) (body : Cmd → Device → Device) (q g : Nat)
    (s : State) : Host.Outcome State Fault Refusal :=
  runUnitC (decide (q < nQueues)) (cmdRun op kind masks bad body q g) s

/-- The command is under way. -/
def Device.running (d : Device) (c : Cmd) : Device :=
  { d with host := { d.host with inflight := d.host.inflight.map fun e => if e.q == c.q && e.tag == c.tag then { e with st := .running } else e } }

/-- The command completes. -/
def Device.finish (d : Device) (c : Cmd) (p : Cpl) : Device := d.complete c.q c.tag.toNat p

end Sys2Proof.Machine
end

