-- ==== Sys2Proof/Machine/Cmd.lean ====
section
/-! DEFINITION. The administrative commands (08 R205-R208), counters (08 R219-R221) and the memory commands COPY, FILL, BIAS_SET and
CACHE_INVALIDATE (08 R209, 15 R390, 06 R148). -/

namespace Sys2Proof.Machine

/-! ## Shared -/

/-- In fiddlehead service, the range names a die other than LD0 (08 R204, 14 R373). -/
def Device.farRange (d : Device) (a : Word) (n : Nat) : Bool :=
  decide (d.rst.st = .fiddlehead) && !isHost a && decide (0x1000000000 ≤ intAddr a + (n - 1))

/-- A status that a command's own data answer gave; an answer of R24 names the parameter at byte off (08 R200). -/
def cplAns (st : Status) (off : Nat) : Cpl := if st = .invalidParam then cplBad off else cplOf st

/-- Output of a command written at the address in the parameter at byte off, and its completion (08 R192). -/
def Device.output (d : Device) (c : Cmd) (off : Nat) (a : Word) (l : List Byte) (ok : Cpl) : Device :=
  if d.farRange a l.length then d.finish c (cplOf .notReady)
  else
    match d.addrWrite 2 a l with
    | (.success, d') => d'.finish c ok
    | (st, d') => d'.finish c (cplAns st off)

/-- Fewer tiles than the variant's: SUCCESS_DERATED (00 R9, 08 R218). -/
def Device.derated (d : Device) : Status := if d.tilesAvail < d.variant.tiles then .successDerated else .success

/-- Units not fused off (08 R207, R208). -/
def Device.frondCount (d : Device) : Nat := ((List.range nFronds).filter d.frondOn).length
def Device.mcCount (d : Device) : Nat := ((List.range nMcs).filter d.mcOn).length
def Device.patchCount (d : Device) : Nat := ((List.range 64).filter d.patchOn).length

/-! ## NOP, IDENTIFY, GET_STATUS -/

def nopBody (c : Cmd) (d : Device) : Device := d.finish c (cplOf .success)

/-- NOP (08 R205). -/
def execNop (q g : Nat) (s : State) : Host.Outcome State Fault Refusal := runCmd 0x00 anyKind (fun _ => []) noBad nopBody q g s

/-- The word at 0x018 of the identify structure (08 R207). -/
def Device.identifyWord (d : Device) : Word :=
  pack [(d.tilesAvail, 0), (d.variant.tiles, 12), (d.frondCount, 24), (d.mcCount, 32), (d.patchCount, 40), (d.fuses.linkEn.toNat, 48)]

/-- The identify structure (08 R207); in PCIe mode there is no HDM range (15 R382). -/
def Device.identify (d : Device) : List Byte :=
  let w : List Word := [d.idDevice, d.fuses.serial, d.idRev, d.identifyWord, BitVec.ofNat 64 d.variant.dram, BitVec.ofNat 64 (if d.cxl.cxlMode then 8 * d.variant.dram else 0),
    pack [(64, 0), (4096, 16), (2048, 32), (64, 48)], BitVec.ofNat 64 d.svc]
  w.flatMap (fun x => leBytes 8 x.toNat) ++ List.replicate 4032 0

def identifyBody (c : Cmd) (d : Device) : Device := d.output c 8 (c.pw 1) d.identify ⟨d.derated, 0, d.identifyWord, 0, 0⟩

/-- IDENTIFY (08 R207). -/
def execIdentify (q g : Nat) (s : State) : Host.Outcome State Fault Refusal := 
  runCmd 0x01 anyKind (fun c => [addrBits (c.pw 1)]) noBad identifyBody q g s

/-- RUNs RUNNING or COMPLETING (08 R201). -/
def Device.activeRunCount (d : Device) : Nat :=
  d.sched.runs.length + (d.host.inflight.filter (fun c => c.op == 0x21 && decide (c.st = .completing))).length

/-- RESULT1 of GET_STATUS (08 R206). -/
def Device.statusWord (d : Device) : Word :=
  let div := (List.range nDies).foldl (fun a k => max a (d.tileDivWord k)) 2
  let tj := (List.range nDies).foldl (fun a k => max a (Sparse.get 0 d.pwr.tj k)) 0
  pack [(d.activeRunCount, 48), (d.host.inflight.length, 32), (div, 24), (tj % 256, 16), (d.pwr.watts % 65536, 0)]

def getStatusBody (c : Cmd) (d : Device) : Device := d.finish c (cpl .success d.devStatus d.statusWord (BitVec.ofNat 64 (fld d.rstCause 0 16)))

/-- GET_STATUS (08 R206). -/
def execGetStatus (q g : Nat) (s : State) : Host.Outcome State Fault Refusal := runCmd 0x02 anyKind (fun _ => []) noBad getStatusBody q g s

/-! ## SET_POWER_POLICY -/

/-- The values that SET_POWER_POLICY refuses. -/
def setPowerPolicyBad (c : Cmd) (d : Device) : Option Nat :=
  let cap := fld (c.pw 3) 0 16
  firstBad [(bitAt (c.pw 1) 63 && decide (fld (c.pw 1) 32 24 < fld (c.pw 1) 0 24), 8), (bitAt (c.pw 2) 63 && decide (1024 < fld (c.pw 2) 0 11), 16),
    (bitAt (c.pw 3) 63 && cap != 0 && (decide (cap < 400) || decide (d.variant.power < cap)), 24)]

def setPowerPolicyBody (c : Cmd) (d : Device) : Device :=
  let p := d.pwr
  let vt := bitAt (c.pw 1) 63
  let vb := bitAt (c.pw 2) 63
  let vc := bitAt (c.pw 3) 63
  let damp := fld (c.pw 1) 0 24
  let dry := fld (c.pw 1) 32 24
  let w := fld (c.pw 2) 0 11
  let cap := fld (c.pw 3) 0 16
  let p := if vt then { p with tDamp := BitVec.ofNat 24 damp, tDry := BitVec.ofNat 24 dry } else p
  let p := if vb then { p with window := BitVec.ofNat 11 w, lead := bitAt (c.pw 2) 11 } else p
  let p := if vc then { p with cap := BitVec.ofNat 16 cap } else p
  ({ d with pwr := p }).finish c (cpl .success (pack [(1, 63), (p.tDry.toNat, 32), (p.tDamp.toNat, 0)])
    (pack [(1, 63), (b2n p.lead, 11), (p.window.toNat, 0)]) (pack [(1, 63), (p.cap.toNat, 0)]))

/-- SET_POWER_POLICY (08 R205): a word whose V bit is 0 leaves its settings unchanged. -/
def execSetPowerPolicy (q g : Nat) (s : State) : Host.Outcome State Fault Refusal :=
  runCmd 0x03 anyKind (fun _ => [bits [(63, 1), (32, 24), (0, 24)], bits [(63, 1), (0, 12)], bits [(63, 1), (0, 16)]]) setPowerPolicyBad
    setPowerPolicyBody q g s

/-! ## SET_QUEUE -/

def sqMask : Word := bits [(0, 2), (8, 6)]
def sqOp (c : Cmd) : Nat := fld (c.pw 1) 0 2
def sqQid (c : Cmd) : Nat := fld (c.pw 1) 8 6

/-- The fields of Q_CFG. -/
def cfgBits : Word := bits [(63, 1), (56, 2), (50, 6), (49, 1), (40, 8), (28, 12), (16, 12), (0, 12)]

/-- What a create refuses: of a DISABLED queue, the checks of R193, and CLASS 3. -/
def setQueueCreateBad (c : Cmd) (d : Device) : Option Nat :=
  let x := decide ((d.queue (sqQid c)).st = .disabled)
  firstBad [(sqQid c == 0, 9), (x && d.baseBad (c.pw 2), 16), (x && d.baseBad (c.pw 3), 24),
    (x && (c.pw 4 &&& ~~~cfgBits != 0 || cfgBad (c.pw 4) || fld (c.pw 4) 56 2 == 3), 32)]

def setQueueCreateBody (c : Cmd) (d : Device) : Device :=
  let n := sqQid c
  let x := d.queue n
  if x.st ≠ .disabled then d.finish c (cpl .busy x.stateWord 0 0)
  else
    let y := { (x.config (c.pw 4)).activate (d.time 0) with
      sqBase := c.pw 2, cqBase := c.pw 3, cls := BitVec.ofNat 2 (fld (c.pw 4) 56 2) }
    (d.setQueue n y).finish c (cpl .success y.stateWord 0 0)

/-- SET_QUEUE, OP 0 (08 R205): creates queue pair QID. -/
def execSetQueueCreate (q g : Nat) (s : State) : Host.Outcome State Fault Refusal :=
  runCmd 0x05 (fun c => sqOp c == 0) (fun _ => [sqMask, allBits, allBits, allBits]) setQueueCreateBad setQueueCreateBody q g s

def setQueueDeleteBad (c : Cmd) (_ : Device) : Option Nat := firstBad [(sqQid c == 0, 9)]

def setQueueDeleteBody (c : Cmd) (d : Device) : Device :=
  let n := sqQid c
  match d.host.inflight.find? (fun e => e.q == n) with
  | some e => d.finish c { cpl .busy (d.queue n).stateWord 0 0 with detail := e.tag }
  | none => (d.setQueue n HostQueue.reset).finish c (cpl .success HostQueue.reset.stateWord 0 0)

/-- SET_QUEUE, OP 1 (08 R205): deletes queue pair QID when none of its commands is outstanding. -/
def execSetQueueDelete (q g : Nat) (s : State) : Host.Outcome State Fault Refusal :=
  runCmd 0x05 (fun c => sqOp c == 1) (fun _ => [sqMask]) setQueueDeleteBad setQueueDeleteBody q g s

/-- The weight of class i that the command gives. -/
def sqWeight (c : Cmd) (i : Nat) : Nat := fld (c.pw 2) (8 * i) 8

def setQueueWeightsBad (c : Cmd) (_ : Device) : Option Nat :=
  firstBad [(sqQid c != 0, 9), (sqWeight c 0 == 0, 16), (sqWeight c 1 == 0, 17), (sqWeight c 2 == 0, 18)]

def setQueueWeightsBody (c : Cmd) (d : Device) : Device :=
  ({ d with host := { d.host with
      wh := BitVec.ofNat 8 (sqWeight c 0), wm := BitVec.ofNat 8 (sqWeight c 1), wl := BitVec.ofNat 8 (sqWeight c 2) } }).finish c
    (cpl .success (BitVec.ofNat 64 (fld (c.pw 2) 0 24)) 0 0)

/-- SET_QUEUE, OP 2 (08 R202, R205): the arbitration weights, 1 to 255 each. -/
def execSetQueueWeights (q g : Nat) (s : State) : Host.Outcome State Fault Refusal :=
  runCmd 0x05 (fun c => sqOp c == 2) (fun _ => [sqMask, bits [(0, 24)]]) setQueueWeightsBad setQueueWeightsBody q g s

/-! ## Counters -/

/-- How many units a kind has (08 R221). -/
def CtrKind.units : CtrKind → Nat
  | .device => 1 | .queue => 64 | .frond => 192 | .die => 8 | .mc => 192 | .region => 72 | .link => 16

/-- The die of a unit; queues count as units of LD0 (08 R220). -/
def CtrKind.dieOf : CtrKind → Nat → Nat
  | .device, _ => 0
  | .queue, _ => 0
  | .frond, u => u / 24
  | .die, u => u
  | .mc, u => u / 24
  | .region, u => if u < 64 then u / 8 else u - 64
  | .link, u => u / 2

/-- The units a scope covers for a counter of a kind (08 R220). -/
def scopeUnits (k : CtrKind) (scope unit : Nat) : List Nat :=
  if scope = 0 then List.range k.units
  else if scope = 1 then (List.range k.units).filter (fun u => k.dieOf u == unit)
  else [unit]

/-- The offset of the field that makes the selection of a command invalid (08 R220). -/
def ctrBad (first count scope unit : Nat) : Option Nat :=
  if count = 0 ∨ 512 < count ∨ 4096 < first + count then some 18
  else if scope = 3 then some 24
  else
    let ks := (upFrom first count).filterMap ctrKind
    if scope ≠ 0 ∧ ks.elem .device then some 24
    else if scope = 1 ∧ 8 ≤ unit then some 26
    else if scope = 2 ∧ ks.any (fun k => decide (k.units ≤ unit)) then some 26
    else none

/-- A sum of counters (08 R220): it saturates at all ones, and OVF is set where a part's is or the sum saturates. -/
def ctrSum (l : List Counter) : Counter :=
  let n := (l.map (fun c => c.value.toNat)).sum
  if l.any (·.ovf) || decide (2 ^ 48 ≤ n) then ⟨BitVec.allOnes 48, true⟩ else ⟨BitVec.ofNat 48 n, false⟩

/-- The word reported for counter index i (08 R219, R220); a reserved index reads 0. -/
def Device.ctrWord (d : Device) (i scope unit : Nat) : Word :=
  match ctrKind i with
  | none => 0
  | some k => (ctrSum ((scopeUnits k scope unit).map (d.counter i))).word

/-- Counter index i cleared in the units of a scope (08 R219). -/
def Device.ctrClear (scope unit : Nat) (d : Device) (i : Nat) : Device :=
  match ctrKind i with
  | none => d
  | some k => (scopeUnits k scope unit).foldl (fun d u => d.setCounter i u Counter.zero) d

def ctrFirst (c : Cmd) : Nat := fld (c.pw 2) 0 12
def ctrCount (c : Cmd) : Nat := fld (c.pw 2) 16 12
def ctrScope (c : Cmd) : Nat := fld (c.pw 3) 0 2
def ctrUnit (c : Cmd) : Nat := fld (c.pw 3) 16 16

/-- In fiddlehead service, SCOPE 1 names a die other than LD0 (08 R204). -/
def Device.ctrFar (d : Device) (c : Cmd) : Bool := decide (d.rst.st = .fiddlehead) && ctrScope c == 1 && ctrUnit c != 0

def countersBad (c : Cmd) (_ : Device) : Option Nat := ctrBad (ctrFirst c) (ctrCount c) (ctrScope c) (ctrUnit c)

def getCountersBody (c : Cmd) (d : Device) : Device :=
  if d.ctrFar c then d.finish c (cplOf .notReady)
  else
    d.output c 8 (c.pw 1) ((upFrom (ctrFirst c) (ctrCount c)).flatMap fun i => leBytes 8 (d.ctrWord i (ctrScope c) (ctrUnit c)).toNat)
      (cpl .success (BitVec.ofNat 64 (ctrCount c)) 0 0)

def ctrMasks : List Word := [bits [(0, 12), (16, 12)], bits [(0, 2), (16, 16)]]

/-- GET_COUNTERS (08 R219-R221). -/
def execGetCounters (q g : Nat) (s : State) : Host.Outcome State Fault Refusal :=
  runCmd 0x06 anyKind (fun c => addrBits (c.pw 1) :: ctrMasks) countersBad getCountersBody q g s

def clearCountersBody (c : Cmd) (d : Device) : Device :=
  if d.ctrFar c then d.finish c (cplOf .notReady)
  else ((upFrom (ctrFirst c) (ctrCount c)).foldl (Device.ctrClear (ctrScope c) (ctrUnit c)) d).finish c (cplOf .success)

/-- CLEAR_COUNTERS (08 R219, R220). -/
def execClearCounters (q g : Nat) (s : State) : Host.Outcome State Fault Refusal :=
  runCmd 0x07 anyKind (fun _ => 0 :: ctrMasks) countersBad clearCountersBody q g s

/-! ## GET_AVAILABILITY, SET_EVENT_MASK -/

/-- The availability code of a tile (08 R208). -/
def Device.availCode (d : Device) (t : Nat) : Nat :=
  if !d.frondOn (t / 16) then 1
  else match (d.tile t).avail with
    | .available => 0
    | .fusedOff => 1
    | .selftest => 2
    | .spore => 3

/-- The availability map (08 R208). -/
def Device.availMap (d : Device) : List Byte :=
  let tiles := (List.range 96).map fun w => (upFrom (32 * w) 32).foldl (fun a t => a + d.availCode t * 4 ^ (t % 32)) 0
  let mask := fun (f : Nat → Bool) (w : Nat) => (upFrom (64 * w) 64).foldl (fun a i => a + b2n (f i) * 2 ^ (i % 64)) 0
  let disc := (List.range nDies).foldl (fun a k => a + (d.buDie k).discrep.toNat) 0
  let w := tiles ++ (List.range 3).map (mask d.frondOn) ++ (List.range 3).map (mask d.mcOn) ++
    [mask d.patchOn 0, d.fuses.linkEn.toNat, disc % 65536]
  w.flatMap (leBytes 8) ++ List.replicate 3256 0

def getAvailabilityBody (c : Cmd) (d : Device) : Device :=
  d.output c 8 (c.pw 1) d.availMap
    ⟨d.derated, 0, pack [(d.tilesAvail % 4096, 0), (d.mcCount, 16), (d.patchCount, 24), (d.fuses.linkEn.toNat, 32)], 0, 0⟩

/-- GET_AVAILABILITY (08 R208). -/
def execGetAvailability (q g : Nat) (s : State) : Host.Outcome State Fault Refusal :=
  runCmd 0x08 anyKind (fun c => [addrBits (c.pw 1)]) noBad getAvailabilityBody q g s

def setEventMaskBody (c : Cmd) (d : Device) : Device :=
  let old := d.host.mask ||| alwaysOn
  ({ d with host := { d.host with mask := c.pw 1 ||| alwaysOn } }).finish c (cpl .success old 0 0)

/-- SET_EVENT_MASK (08 R222, R223). -/
def execSetEventMask (q g : Nat) (s : State) : Host.Outcome State Fault Refusal :=
  runCmd 0x09 anyKind (fun _ => [allBits]) noBad setEventMaskBody q g s

/-! ## COPY and FILL -/

/-- The 64-byte lines of a source, each with its status (08 R209, 15 R387): read one by one, as RdCurr from host memory. -/
def Device.copyLines (a : Word) : Nat → Device → List (Status × List Byte) × Device
  | 0, d => ([], d)
  | n + 1, d =>
    let r := d.addrRead false a 64
    let q := Device.copyLines (a + 64) n r.2.2
    ((r.1, r.2.1) :: q.1, q.2)

/-- How many times the byte at x of an overlapping destination may have been copied before its source was read: the chain x, x - δ, … stays in
the destination (08 R209). -/
def overlapHops (dst n : Nat) (δ : Int) : Nat → Int → Nat
  | 0, _ => 0
  | f + 1, x => if (dst : Int) ≤ x ∧ x < dst + n then 1 + overlapHops dst n δ f (x - δ) else 0

/-- The bytes of an overlapping copy: each its old value or a copied one, by a free value (08 R209; log entry 28). -/
def Device.overlapBytes (src dst n : Nat) : List Nat → Device → List Byte × Device
  | [], d => ([], d)
  | x :: r, d =>
    let δ : Int := (dst : Int) - src
    let h := overlapHops dst n δ (n + 1) x
    let f := d.fresh 64
    let j := f.1.toNat % (h + 1)
    let q := Device.overlapBytes src dst n r f.2
    (d.dram.byte ((x : Int) - j * δ).toNat :: q.1, q.2)

/-- Lines written one after another from address a: up to the first that fails every line is written; of the later ones a free value says
which (08 R209; log entry 28). A line without data failed at its source. The answer is the first failure, with its line number. -/
def Device.writeLines (a : Word) : Nat → List (Status × List Byte) → Option (Status × Nat) → Device → Option (Status × Nat) × Device
  | _, [], fail, d => (fail, d)
  | i, (st, l) :: r, fail, d =>
    let put := fun (d : Device) (fail : Option (Status × Nat)) =>
      if st = .success then
        match d.addrWrite 2 (a + BitVec.ofNat 64 (64 * i)) l with
        | (.success, d') => (fail, d')
        | (w, d') => (some (fail.getD (w, i)), d')
      else (some (fail.getD (st, i)), d)
    match fail with
    | none =>
      let x := put d none
      Device.writeLines a (i + 1) r x.1 x.2
    | some f =>
      let o := d.fresh 1
      let x := if o.1 = 1 then put o.2 (some f) else (some f, o.2)
      Device.writeLines a (i + 1) r x.1 x.2

/-- The completion of COPY or FILL: bytes moved before the failure, and the first failing address (08 R209). -/
def moveCpl (n : Nat) (a : Word) (off : Nat) : Option (Status × Nat) → Cpl
  | none => cpl .success (BitVec.ofNat 64 n) 0 0
  | some (st, i) => { cplAns st off with r0 := BitVec.ofNat 64 (64 * i), r1 := a + BitVec.ofNat 64 (64 * i) }

/-- A LENGTH that is no multiple of 64, or 0. -/
def lineLenBad (w : Word) : Bool := fld w 0 40 % 64 != 0 || fld w 0 40 == 0

def copyBad (c : Cmd) (_ : Device) : Option Nat :=
  firstBad [(fld (c.pw 1) 0 6 != 0, 8), (fld (c.pw 2) 0 6 != 0 || (isHost (c.pw 1) && isHost (c.pw 2)), 16), (lineLenBad (c.pw 3), 24)]

def copyBody (c : Cmd) (d : Device) : Device :=
  let src := c.pw 1
  let dst := c.pw 2
  let n := fld (c.pw 3) 0 40
  if d.farRange src n || d.farRange dst n then d.finish c (cplOf .notReady)
  else
    let r := Device.copyLines src (n / 64) d
    let lap := !isHost src && !isHost dst && decide (intAddr src < intAddr dst + n) && decide (intAddr dst < intAddr src + n)
    let x := if lap then
        let o := Device.overlapBytes (intAddr src) (intAddr dst) n (upFrom (intAddr dst) n) r.2
        ((r.1.zip (chunksOf 64 (n / 64 + 1) o.1)).map (fun (e : (Status × List Byte) × List Byte) => (e.1.1, e.2)), o.2)
      else r
    let w := Device.writeLines dst 0 x.1 none x.2
    let srcFailed : Bool := match w.1 with | some e => decide ((x.1.getD e.2 (.success, [])).1 ≠ .success) | none => false
    w.2.finish c (moveCpl n src (if srcFailed then 8 else 16) w.1)

/-- COPY (08 R209). -/
def execCopy (q g : Nat) (s : State) : Host.Outcome State Fault Refusal :=
  runCmd 0x10 anyKind (fun c => [addrBits (c.pw 1), addrBits (c.pw 2), bits [(0, 40)]]) copyBad copyBody q g s

def fillBad (c : Cmd) (_ : Device) : Option Nat := firstBad [(fld (c.pw 1) 0 6 != 0, 8), (lineLenBad (c.pw 2), 16)]

def fillBody (c : Cmd) (d : Device) : Device :=
  let dst := c.pw 1
  let n := fld (c.pw 2) 0 40
  if d.farRange dst n then d.finish c (cplOf .notReady)
  else
    let line := (List.replicate 8 (leBytes 8 (c.pw 3).toNat)).flatten
    let w := Device.writeLines dst 0 (List.replicate (n / 64) (.success, line)) none d
    -- FILL has no source, whose failing address RESULT1 would name: 0 (08 R198, R209; log entry 29)
    w.2.finish c { moveCpl n dst 8 w.1 with r1 := 0 }

/-- FILL (08 R209). -/
def execFill (q g : Nat) (s : State) : Host.Outcome State Fault Refusal :=
  runCmd 0x11 anyKind (fun _ => [bits [(0, 44)], bits [(0, 40)], allBits]) fillBad fillBody q g s

/-! ## BIAS_SET and CACHE_INVALIDATE -/

/-- The pages of a range change bias. -/
def Device.setBias (d : Device) (dev : Bool) (lo n : Nat) : Device :=
  { d with cxl := { d.cxl with
      devBias := if dev then (upFrom lo n).foldl (fun l p => insNat p l) d.cxl.devBias
        else d.cxl.devBias.filter (fun p => decide (p < lo) || decide (lo + n ≤ p)) } }

def biasSetBad (c : Cmd) (d : Device) : Option Nat :=
  let a := intAddr (c.pw 1)
  let n := fld (c.pw 2) 0 40
  firstBad [(a % 4096 != 0 || !d.dramRange a 4096, 8), (n % 4096 != 0 || n == 0 || !d.dramRange a n, 16)]

/-- To host bias every page changes at once. To device bias the port requests ownership of the range line by line; where the host can hold no copy there is
nothing to request (log entry 30). -/
def biasSetBody (c : Cmd) (d : Device) : Device :=
  let a := intAddr (c.pw 1)
  let n := fld (c.pw 2) 0 40
  let dev := bitAt (c.pw 3) 0
  if d.farRange (c.pw 1) n then d.finish c (cplOf .notReady)
  else if dev && d.hostCaches then
    ({ d with cxl := { d.cxl with biasJobs := d.cxl.biasJobs ++ [(⟨c.q, c.tag.toNat, a / 64, (a + n) / 64⟩ : BiasJob)] } }).running c
  else (d.setBias dev (a / 4096) (n / 4096)).finish c (cplOf .success)

/-- BIAS_SET (08 R209, 15 R390). -/
def execBiasSet (q g : Nat) (s : State) : Host.Outcome State Fault Refusal :=
  runCmd 0x12 anyKind (fun _ => [bits [(0, 44)], bits [(0, 40)], bits [(0, 1)]]) biasSetBad biasSetBody q g s

/-- The host has given up its copies of a line (15 R390): each BIAS_SET that asked for it goes on to its next one; a page whose lines are all done changes
bias, and the command completes with the last page. -/
def Device.biasStep (d : Device) (line : Nat) : Device :=
  let hit := d.cxl.biasJobs.filter (fun j => j.line == line)
  let d := { d with cxl := { d.cxl with
    biasJobs := (d.cxl.biasJobs.map (fun j => if j.line = line then { j with line := line + 1 } else j)).filter (fun j => decide (j.line < j.stop)) } }
  let d := if !hit.isEmpty && (line + 1) % 64 == 0 then d.setBias true (line / 64) 1 else d
  (hit.filter (fun j => decide (j.stop ≤ line + 1))).foldl (fun d j => d.complete j.q j.tag (cplOf .success)) d

/-- No host is left to ask: every page of the BIAS_SETs under way changes bias, and they complete. -/
def Device.biasAll (d : Device) : Device :=
  let js := d.cxl.biasJobs
  let d := { d with cxl := { d.cxl with biasJobs := [] } }
  js.foldl (fun d j => (d.setBias true (j.line / 64) (j.stop / 64 - j.line / 64)).complete j.q j.tag (cplOf .success)) d

/-- Lines of a weight cache invalidated; fills pending for the range will not be installed, and the command waits for them (06 R148). -/
def Frond.invalidate (x : Frond) (q tag lo n : Nat) : Frond :=
  let inR := fun (line : Nat) => n == 0 || (decide (lo ≤ line) && decide (line < lo + n))
  { x with
    wcLines := x.wcLines.filter (fun y => !inR y.line)
    wcFills := x.wcFills.map (fun y => if inR y.line then { y with install := false } else y)
    invals := x.invals ++ (x.wcFills.filter (fun y => inR y.line)).map (fun y => (q, tag, y.line))
    invalRanges := x.invalRanges ++ [(q, tag, lo, n)] }

/-- The command no longer keeps lines of its range out of the weight caches. -/
def Device.invalEnd (d : Device) (q tag : Nat) : Device :=
  (d.fronds.map (·.1)).foldl (fun d f => d.modFrond f fun x => { x with invalRanges := x.invalRanges.filter fun i => !(i.1 == q && i.2.1 == tag) }) d

/-- A fill of the command is still pending. -/
def Device.invalPending (d : Device) (q tag : Nat) : Bool := d.fronds.any (fun e => e.2.invals.any (fun i => i.1 == q && i.2.1 == tag))

def cacheInvalidateBad (c : Cmd) (_ : Device) : Option Nat :=
  firstBad [(intAddr (c.pw 1) % 512 != 0, 8), (fld (c.pw 2) 0 40 % 512 != 0, 16), (fld (c.pw 3) 0 8 == 0, 24)]

def cacheInvalidateBody (c : Cmd) (d : Device) : Device :=
  let a := intAddr (c.pw 1)
  let n := fld (c.pw 2) 0 40
  let dies := fld (c.pw 3) 0 8
  if d.rst.st = .fiddlehead ∧ 1 < dies then d.finish c (cplOf .notReady)
  else
    let fs := ((List.range nDies).filter (fun k => dies.testBit k)).flatMap d.frondsOf
    let d := fs.foldl (fun d f => d.modFrond f (fun x => x.invalidate c.q c.tag.toNat (a / 512) (n / 512))) d
    if d.invalPending c.q c.tag.toNat then d.running c else (d.invalEnd c.q c.tag.toNat).finish c (cplOf .success)

/-- CACHE_INVALIDATE (08 R209, 06 R148). -/
def execCacheInvalidate (q g : Nat) (s : State) : Host.Outcome State Fault Refusal :=
  runCmd 0x13 anyKind (fun _ => [bits [(0, 44)], bits [(0, 40)], bits [(0, 8)]]) cacheInvalidateBad cacheInvalidateBody q g s

end Sys2Proof.Machine
end

