-- ==== Sys2Proof/Machine/Sched.lean ====
section
/-! DEFINITION. Work items and RUNs: work lists and their checks (07 R158-R164, 08 R212), placement and dispatch (07 R165-R168, R184), item ends,
stops and completion (07 R169-R170, R182, R186-R188), stealing (07 R171-R173), speculation and commits (07 R174-R182). -/

namespace Sys2Proof.Machine

/-! ## Items (07 R162) -/

def itW (w : List Word) (i : Nat) : Word := w.getD i 0
def itProgram (w : List Word) : Nat := fld (itW w 0) 48 16
def itAffinity (w : List Word) : Nat := fld (itW w 0) 40 8
def itHomev (w : List Word) : Bool := bitAt (itW w 0) 39
def itHdie (w : List Word) : Nat := fld (itW w 0) 36 3
def itHfrond (w : List Word) : Nat := fld (itW w 0) 31 5
def itHslot (w : List Word) : Nat := fld (itW w 0) 27 4
def itSteal (w : List Word) : Bool := bitAt (itW w 0) 26
def itPqmask (w : List Word) (i : Nat) : Bool := bitAt (itW w 0) (16 + i)
def itEntry (w : List Word) : Nat := fld (itW w 0) 0 14
def itSeq (w : List Word) : BitVec 16 := BitVec.ofNat 16 (fld (itW w 1) 48 16)
def itEpoch (w : List Word) : BitVec 16 := BitVec.ofNat 16 (fld (itW w 1) 32 16)
def itLayer (w : List Word) : Nat := fld (itW w 1) 16 16
def itSpec (w : List Word) : Bool := bitAt (itW w 1) 15
def itVerify (w : List Word) : Bool := bitAt (itW w 1) 14
def itKind (w : List Word) (i : Nat) : Nat := fld (itW w 1) (2 * i) 2
def itParam (w : List Word) (i : Nat) : Word := itW w (2 + i)
def itSource (w : List Word) (i : Nat) : Word := itW w (10 + i)

/-- Speculative-class: SPEC or VERIFY set (07 R175). -/
def itSpecc (w : List Word) : Bool := itSpec w || itVerify w

/-- Dies an item may run on (07 R455). -/
def itDies (w : List Word) : List Nat := if itHomev w then [itHdie w] else (List.range nDies).filter (fun k => (itAffinity w).testBit k)

/-! ## Logical numbers (07 R161) -/

/-- The physical frond of logical frond l of die k. -/
def Device.physFrond (d : Device) (k l : Nat) : Option Nat := (d.frondsOf k)[l]?

/-- The physical queue of a logical queue number. -/
def Device.physQueue (d : Device) (v : Nat) : Option Nat := (d.physFrond (v / 2048 % 8) (v / 64 % 32)).map (fun f => 64 * f + v % 64)

/-- Queue source i of an item, as a physical queue. -/
def Device.srcQueue (d : Device) (w : List Word) (i : Nat) : Option Nat :=
  if itKind w i = 2 then d.physQueue (fld (itSource w i) 0 14) else none

/-! ## RUNs -/

/-- The tag by which DETAIL names the command that holds something; a command killed by a FUNCTION reset has none (log entry 117). -/
def holderTag (q g : Nat) : BitVec 16 := if q < nQueues then BitVec.ofNat 16 g else 0

def Device.runOf (d : Device) (q g : Nat) : Option Run := d.sched.runs.find? (fun r => r.q == q && r.tag == g)

def Device.modRun (d : Device) (q g : Nat) (f : Run → Run) : Device :=
  { d with sched := { d.sched with runs := d.sched.runs.map fun r => if r.q = q ∧ r.tag = g then f r else r } }

/-- Stealing is on for the RUN: deterministic mode turns it off (07 R171, R184). -/
def Run.steals (r : Run) : Bool := bitAt r.policy 0 && !r.det

/-- Speculation is on for a policy (07 R171). -/
def speculates (policy : BitVec 2) : Bool := bitAt policy 1

/-- EPOCH_C of a sequence of the RUN. -/
def Run.epochC (r : Run) (s : BitVec 16) : BitVec 16 := ((r.seqs[s.toNat]?).map (·.epochC)).getD 0

/-- How far an epoch lies behind EPOCH_C (07 R178). -/
def Run.ahead (r : Run) (s e : BitVec 16) : Nat := (e - r.epochC s).toNat

def Run.modSeq (r : Run) (s : BitVec 16) (f : RunSeq → RunSeq) : Run :=
  { r with seqs := r.seqs.zipIdx.map fun (e : RunSeq × Nat) => if e.2 = s.toNat then f e.1 else e.1 }

/-- A hard fence before this layer is still closed: an item of a layer below it has not ended (06 R157, 07 R160). -/
def Run.fenced (r : Run) (layer : Nat) : Bool :=
  r.fences.any fun l => decide (l ≤ layer) &&
    r.items.zipIdx.any fun (e : List Word × Nat) => decide (itLayer e.1 < l) && !has r.doneItems e.2

/-- An item has ended. -/
def Run.itemDone (r : Run) (i : Nat) : Run := { r with ended := r.ended + 1, doneItems := insNat i r.doneItems }

/-! ## Stopping operations and items (07 R170) -/

/-- The HOP with this TXID is parked at its queue. -/
def Device.parkedRemote (d : Device) (f tx : Nat) (r : HopReq) : Bool :=
  (d.hq r.queue).parked.any fun x =>
    match x.src with
    | .net h => srcPort h == ⟨frondRouter f, 0⟩ && fld h 19 16 == tx
    | _ => false

/-- Frond f has such a HOP outstanding. -/
def Frond.hopOut (x : Frond) (p : HopReq → Bool) : Bool :=
  x.outst.any fun (e : Nat × TxUse) => match e.2 with
    | .hop r => p r
    | _ => false

/-- Such operations of frond f are cancelled: those not taken yet, those to be retried, and those parked at its queues or at other fronds. -/
def Device.cancelOps (d : Device) (f : Nat) (p : HopReq → Bool) : Device :=
  let d := d.modFrond f fun x => { x with ops := x.ops.filter (fun r => !p r), retries := x.retries.filter (fun r => !p r) }
  let d := (upFrom (64 * f) 64).foldl (fun d k =>
    let q := d.hq k
    if q.parked.any p then d.setHq k { q with parked := q.parked.filter (fun r => !p r) } else d) d
  (d.frond f).outst.foldl (fun d (e : Nat × TxUse) =>
    match e.2 with
    | .hop r =>
      if p r && d.parkedRemote f e.1 r then
        let q := d.hq r.queue
        let d := d.setHq r.queue { q with parked := q.parked.filter (fun x => match x.src with
          | .net h => !(srcPort h == ⟨frondRouter f, 0⟩ && fld h 19 16 == e.1)
          | _ => true) }
        d.modFrond f fun x => { x with outst := Sparse.del x.outst e.1 }
      else d
    | _ => d) d

/-- An operation of tile t's sequencer or stream engine; the pop a WAIT_HANDLE block waits for; a pop for the item tile t is reserved for. -/
def ofTile (t : Nat) (r : HopReq) : Bool := r.src == .tile t || r.src == .stream t
def waitPop (t : Nat) (r : HopReq) : Bool := r.src == .stream t && r.op != .push
def ofDispatch (t : Nat) (r : HopReq) : Bool := r.src == .dispatch t

/-- A running item is stopped (07 R170): nothing further issues, waits are left, no later block of its list starts, its operations are cancelled. -/
def Device.stopItem (d : Device) (t : Nat) (st : Status) : Device :=
  (d.modTile t fun x => { x with
    seq := { x.seq with wait := none, ops := [] }
    strm := { x.strm with closed := true, next := none, waiting := none, popped := none, failing := none }
    ended := some ⟨st, 0, false⟩ }).cancelOps (t / 16) (ofTile t)

/-- Nothing the item began is still in flight: its end can be reported and the tile returns to IDLE. -/
def Device.quiet (d : Device) (t : Nat) : Bool :=
  let x := d.tile t
  x.arr.blocks.isEmpty && x.arr.loading.isNone && x.arr.ballast == 0 && x.seq.ops.isEmpty && x.strm.landed && !(d.frond (t / 16)).hopOut (ofTile t)

/-- The tile returns to IDLE. -/
def Device.freeTile (d : Device) (t : Nat) : Device :=
  d.modTile t fun x => { x with
    seq := { x.seq with st := .idle, wait := none, ops := [] }, strm := { x.strm with blocks := [], failing := none, waiting := none, popped := none, next := none }
    running := none, ended := none }

/-! ## Commits and rejections (07 R179-R182) -/

/-- The state word of a sequence (07 R174). -/
def stateWordOf (len : BitVec 32) (epoch : BitVec 16) : List Byte := leBytes 4 len.toNat ++ leBytes 2 epoch.toNat ++ [0, 0]

/-- Epoch x lies later than e (07 R176). -/
def laterEpoch (e x : BitVec 16) : Bool := let n := (x - e).toNat; decide (1 ≤ n) && decide (n ≤ 32767)

/-- The entries of the RUN's queues changed, and what waits there served. Commits and rejections reach only the queues the RUN owns, whoever pushed there,
a fabric port with SPECV too (DESIGN CHOICE, log entry 115: R175 names no pusher but an item, and no queues). -/
def Device.sweepQueues (d : Device) (r : Run) (f : List QEntry → List QEntry) : Device :=
  r.queues.foldl (fun d k =>
    let q := d.hq k
    let l := f q.entries
    if l = q.entries then d else Device.servePark k 33 (d.setHq k { q with entries := l })) d

/-- EPOCH_C of a sequence moves on, and its state word is written. -/
def Device.setSeq (d : Device) (r : Run) (s : BitVec 16) (len : BitVec 32) (e : BitVec 16) : Device :=
  match r.seqs[s.toNat]? with
  | none => d
  | some x =>
    let d := (d.dramWrite x.addr (stateWordOf len e)).2
    d.modRun r.q r.tag fun y => y.modSeq s fun z => { z with len := len, epochC := e }

/-- A rejection of epoch e of sequence s (07 R181). -/
def Device.rejectEpoch (d : Device) (q g : Nat) (s e : BitVec 16) : Device :=
  match d.runOf q g with
  | none => d
  | some r =>
    let len := ((r.seqs[s.toNat]?).map (·.len)).getD 0
    let d := d.setSeq r s len (e + 8)
    let d := d.sweepQueues r fun l => l.filter fun x => match x.tag with
      | some t => !(t.1 == s && (t.2 == e || laterEpoch e t.2))
      | none => true
    (d.bump 0x14 0 1).modRun q g fun y => { y with specEnds := y.specEnds.filter fun x => !(x.1 == s && y.consumed x.1 x.2.1) }

/-- A commit of epoch e of sequence s with its tokens (07 R180, steps 1 to 5); its ring has room. -/
def Device.commitEpoch (d : Device) (q g : Nat) (c : Commit) : Device :=
  match d.runOf q g with
  | none => d
  | some r =>
    match r.seqs[c.seq.toNat]? with
    | none => d
    | some x =>
      let a := c.accept
      let n := r.ringEntries
      let entry := fun (i : Nat) => leBytes 4 (c.tokens.getD i 0).toNat ++ leBytes 2 c.seq.toNat ++ leBytes 2 (x.len.toNat + i)
      let slot := r.prod % n
      let k := min a (n - slot)
      let put := fun (d : Device) (first slot m : Nat) =>
        if m = 0 then d
        else (d.addrWrite 0 (r.ringAddr + BitVec.ofNat 64 (8 * slot)) ((upFrom first m).flatMap entry)).2
      let d := put (put d 0 slot k) k 0 (a - k)
      let e' := if c.keep then c.epoch else c.epoch + 8
      let d := d.setSeq r c.seq (x.len + BitVec.ofNat 32 a) e'
      let d := d.sweepQueues r fun l => (l.map fun (y : QEntry) => if y.tag = some (c.seq, c.epoch) then { y with tag := none } else y).filter fun y =>
        match y.tag with
        | some t => !(!c.keep && t.1 == c.seq && laterEpoch c.epoch t.2)
        | none => true
      let prod := (r.prod + a) % (2 * n)
      let d := (d.addrWrite 1 r.prodAddr (leBytes 4 prod)).2
      let d := (d.bump 0x13 0 1).bump 0x15 0 a
      let d := (r.specEnds.filter fun y => y.1 == c.seq && y.2.1 == c.epoch).foldl (fun d y => d.bump 0x11 y.2.2 1) d
      d.modRun q g fun y => { y with prod := prod, specEnds := y.specEnds.filter fun z => !(z.1 == c.seq && y.consumed z.1 z.2.1) }

/-- Bytes of the hold area that a commit of so many tokens takes: its ring entries are written in one piece, or in two where the ring wraps, then PROD. -/
def Run.holdNeed (r : Run) (a : Nat) : Nat :=
  let k := min a (r.ringEntries - r.prod % r.ringEntries)
  let piece := fun (m : Nat) => if m = 0 then 0 else holdSize (8 * m)
  (if isHost r.ringAddr then piece k + piece (a - k) else 0) + (if isHost r.prodAddr then holdSize 4 else 0)

/-- The ring has room for the tokens, and the hold area for what must be held (07 R180, 15 R395). -/
def Device.commitRoom (d : Device) (r : Run) (c : Commit) : Bool :=
  let used := (r.prod + 2 * r.ringEntries - r.cons) % (2 * r.ringEntries)
  let need := r.holdNeed c.accept
  decide (used + c.accept ≤ r.ringEntries) && (d.hostUp || need == 0 || decide (64 + d.holdUsed + need ≤ 0x4000000))

/-! ## Discards and completion -/

/-- An item whose epoch its sequence has consumed (07 R178). -/
def Device.overtaken (d : Device) (x : Waiting) : Bool :=
  itSpecc x.words && ((d.runOf x.q x.tag).map (fun r => r.consumed (itSeq x.words) (itEpoch x.words))).getD false

/-- Items of consumed epochs are discarded without running (07 R178): those that wait, and those whose sources are still being popped, whose tiles are given
up. -/
def Device.discardAt (d : Device) (f : Nat) : Device :=
  let gone := (d.frond f).items.filter d.overtaken
  let held := (d.frond f).reserved.filter fun r => d.overtaken r.item
  if gone.isEmpty && held.isEmpty then d
  else
    let d := held.foldl (fun d r => d.cancelOps f (ofDispatch r.tile)) d
    let d := d.modFrond f fun y => { y with items := y.items.filter (fun x => !gone.elem x), reserved := y.reserved.filter (fun r => !held.elem r) }
    (gone ++ held.map (·.item)).foldl (fun d x => (d.bump 0x12 f 1).modRun x.q x.tag fun r => r.itemDone x.index) d

/-- A RUN's items waiting at fronds are dropped, and reservations for them are given up (07 R188). -/
def Device.dropItems (d : Device) (q g : Nat) : Device :=
  (d.fronds.map (·.1)).foldl (fun d f =>
    let gone := (d.frond f).reserved.filter fun r => r.item.q == q && r.item.tag == g
    let d := gone.foldl (fun d r => d.cancelOps f (ofDispatch r.tile)) d
    d.modFrond f fun x => { x with
      items := x.items.filter (fun i => !(i.q == q && i.tag == g))
      reserved := x.reserved.filter (fun r => !(r.item.q == q && r.item.tag == g)) }) d

/-- The tiles that run an item of the RUN. -/
def Device.runTiles (d : Device) (q g : Nat) : List Nat :=
  (d.tiles.filter fun (e : Nat × Tile) => match e.2.running with
    | some r => r.q == q && r.tag == g
    | none => false).map (·.1)

/-- The completion of a RUN (08 R212): the failure of lowest index, or ABORTED, or SUCCESS. -/
def Run.cpl (r : Run) : Cpl :=
  let r1 := pack [(r.nancount.toNat, 16), (b2n r.flags.nanSeen, 1), (b2n r.flags.saturated, 0)]
  let none' := fun (st : Status) => (⟨st, 0, pack [(0xFFFFFFFF, 32), (r.itemsOk % 2 ^ 32, 0)], r1, 0⟩ : Cpl)
  if r.aborted then none' .aborted
  else
    match r.fails with
    | [] => none' .success
    | x :: l =>
      let f := l.foldl (fun a y => if y.1 < a.1 then y else a) x
      ⟨f.2.1, 0, pack [(f.1, 32), (r.itemsOk % 2 ^ 32, 0)], r1, f.2.2⟩

/-- A HOP on one of the RUN's queues is on its way. -/
def Device.hopsPending (d : Device) (r : Run) : Bool :=
  d.fronds.any fun (e : Nat × Frond) => e.2.outst.any fun (o : Nat × TxUse) => match o.2 with
    | .hop h => has r.queues h.queue && !d.parkedRemote e.1 o.1 h
    | _ => false

/-- A sequence with an unconsumed epoch in which an item was dispatched is rejected at its first unconsumed epoch (07 R182). -/
def Device.rejectOpen (q g : Nat) : Nat → Device → Device
  | 0, d => d
  | n + 1, d =>
    let d := Device.rejectOpen q g n d
    match d.runOf q g with
    | none => d
    | some r =>
      let s := BitVec.ofNat 16 n
      match (r.seqs[n]?).bind (·.top) with
      | none => d
      | some e => if r.consumed s e then d else d.rejectEpoch q g s (r.epochC s + 1)

/-- A RUN completes (07 R182, R186-R188, 06 R155): its sequences settled, its queues emptied, its completion posted. -/
def Device.completeRun (d : Device) (q g : Nat) : Device :=
  match d.runOf q g with
  | none => d
  | some r =>
    let d := Device.rejectOpen q g r.seqs.length d
    match d.runOf q g with
    | none => d
    | some r =>
      let d := r.queues.foldl (fun d k => d.emptyQueue k none) d
      let d := (d.fronds.map (·.1)).foldl (fun d f => d.modFrond f fun x => { x with
        activeRuns := x.activeRuns.filter (fun a => a != (q, g))
        outst := x.outst.filter fun (o : Nat × TxUse) => match o.2 with
          | .hop h => !has r.queues h.queue
          | _ => true }) d
      let d := { d with
        sched := { d.sched with runs := d.sched.runs.filter (fun x => !(x.q == q && x.tag == g)) }
        host := { d.host with inflight := d.host.inflight.map fun (c : Cmd) => if c.q = q ∧ c.tag.toNat = g then { c with counts := (r.dispatched, r.ended) } else c } }
      d.complete q g r.cpl

/-- A RUN whose last item has ended and whose commits are applied, or whose stop is done, completes (07 R186). -/
def Device.checkRun (d : Device) (q g : Nat) : Device :=
  match d.runOf q g with
  | none => d
  | some r =>
    let final := r.stopped || (decide (r.ended = r.items.length) && r.commits.isEmpty)
    if final && (d.runTiles q g).isEmpty && !d.fronds.any (fun e => e.2.reserved.any (fun x => x.item.q == q && x.item.tag == g)) &&
        !d.hopsPending r then d.completeRun q g
    else d

/-- Every RUN that can complete does. -/
def Device.checkRuns (d : Device) : Device := d.sched.runs.foldl (fun d r => d.checkRun r.q r.tag) d

/-! ## Item ends -/

/-- The records a VERIFY item names (07 R179): read whole before any is applied; a record's bytes. -/
def commitOf (l : List Byte) : Commit :=
  let a := leAt l 4 1
  { seq := BitVec.ofNat 16 (leAt l 0 2), epoch := BitVec.ofNat 16 (leAt l 2 2), accept := a, keep := leAt l 5 1 % 2 = 1
    bad := decide (2 ≤ leAt l 5 1) || leAt l 6 2 != 0 || leAt l 44 4 != 0 || decide (9 < a)
    tokens := (List.range 9).map fun i => BitVec.ofNat 32 (leAt l (8 + 4 * i) 4) }

/-- Bytes at an internal address of DRAM or a tile window, read by the command processor (07 R454). -/
def Device.cpRead (d : Device) (a n : Nat) : Status × List Byte × Device :=
  if n = 0 then (.success, [], d)
  else
    match placeOf a with
    | .tile t off =>
      if d.unmapped true a || d.unmapped true (a + n - 1) then (.invalidParam, [], d)
      else if (d.tile t).badIn off n then (.memoryUncorrectable, [], d)
      else (.success, (d.tile t).mem.read off n, d)
    | _ => d.dramRead a n

/-- The records of a VERIFY item that ended by HALT with this code, or the status it fails with. -/
def Device.verifyRead (d : Device) (r : Running) (n : Nat) : (Status ⊕ List Commit) × Device :=
  let out := r.outs.getD 0 0
  if 256 < n ∨ (n ≠ 0 ∧ (entryKind out < 2 ∨ (handleBuf out).2 < 48 * n)) then (.inl .invalidParam, d)
  else
    match d.cpRead (handleBuf out).1 (48 * n) with
    | (.success, l, d') => (.inr ((chunksOf 48 (n + 1) l).map commitOf), d')
    | (st, _, d') => (.inl st, d')

/-- An item's part of its RUN's results at its end, however it ends: the flags, the NaN count (02 R45, 08 R212); and whether it was overtaken (07 R178,
R183). -/
def Device.tally (d : Device) (t : Nat) (r : Running) : Device :=
  let x := d.tile t
  let gone := (r.spec || r.verify) && ((d.runOf r.q r.tag).map (fun y => y.consumed r.seq r.epoch)).getD false
  let d := if gone then d.bump 0x12 (t / 16) 1 else d
  d.modRun r.q r.tag fun y => { y with
    flags := y.flags.or x.seq.flags, nancount := BitVec.ofNat 48 (min (2 ^ 48 - 1) (y.nancount.toNat + x.sel.nanCount.value.toNat)) }

/-- A stopped item leaves its tile: it counts in its RUN's results unless its end was reported before. -/
def Device.retire (d : Device) (t : Nat) : Device :=
  match (d.tile t).running, (d.tile t).ended with
  | some r, some e => (if e.code = 0 then d.tally t r else d).freeTile t
  | _, _ => d

/-- The mark of a tile whose item's end has been reported and whose tile is not yet quiet. -/
def endReported : EndReport := ⟨.aborted, 1, false⟩

/-- What a tile's ended item reports to its RUN (07 R169, R183): counts, flags, its failure or its commits. -/
def Device.reportEnd (d : Device) (t : Nat) (r : Running) (e : EndReport) : Device :=
  let f := t / 16
  let d := (d.tally t r).modRun r.q r.tag fun y => y.itemDone r.index
  let failed := fun (d : Device) (st : Status) (w : Word) => d.modRun r.q r.tag fun y => { y with fails := y.fails ++ [(r.index, st, w)] }
  if e.status ≠ .success then
    failed (if e.byFault then d.bump 0x1A f 1 else d) e.status (if e.byFault then e.code else 0)
  else
    let specc := r.spec || r.verify
    let gone := specc && ((d.runOf r.q r.tag).map (fun y => y.consumed r.seq r.epoch)).getD false
    let d := if specc then d else d.bump 0x10 f 1
    let done := fun (d : Device) (l : List Commit) => d.modRun r.q r.tag fun y => { y with
      itemsOk := y.itemsOk + 1, commits := y.commits ++ l
      specEnds := if specc && !gone then y.specEnds ++ [(r.seq, r.epoch, f)] else y.specEnds }
    if r.verify then
      match d.verifyRead r e.code.toNat with
      | (.inl st, d') => failed d' st 0
      | (.inr l, d') => done d' l
    else done d []

/-- A RUN is stopped (07 R169, R188): ends already reached count, the rest of its items are dropped or stopped. -/
def Device.stopRun (d : Device) (q g : Nat) (abort : Bool) : Device :=
  let d := d.modRun q g fun r => { r with stopped := true, aborted := r.aborted || abort }
  let d := (d.runTiles q g).foldl (fun d t =>
    let x := d.tile t
    match x.running, x.ended with
    | some r, some e =>
      if e.status = .aborted then d
      else (d.reportEnd t r e).modTile t fun y => { y with ended := some endReported }
    | _, _ => d.stopItem t .aborted) d
  let d := (d.runTiles q g).foldl (fun d t => if d.quiet t then d.retire t else d) (d.dropItems q g)
  (d.modRun q g fun r => { r with commits := [], waitRoom := false }).checkRun q g

/-- ITEM_END: the ended item of tile t is reported, and its tile returns to IDLE (04 R109, 07 R169). Every earlier instruction of a faulted item completes; a
block of its list that has not begun does not start (R109). The first failure stops the RUN. -/
def itemEnd (t : Nat) (d : Device) : Device :=
  let x := d.tile t
  match x.running, x.ended with
  | some r, some e =>
    let d' := d.cancelOps (t / 16) (if e.status = .aborted ∨ e.status = .timeout then ofTile t else waitPop t)
    if !d'.quiet t then d
    else if e.status = .aborted then (d'.retire t).checkRun r.q r.tag
    else
      let d := (d'.reportEnd t r e).freeTile t
      match d.runOf r.q r.tag with
      | none => d
      | some y => if y.fails.isEmpty then d.checkRun r.q r.tag else d.stopRun r.q r.tag false
  | _, _ => d

def execItemEnd (t : Nat) (s : State) : Host.Outcome State Fault Refusal := runUnit (decide (t < nTiles)) (itemEnd t) s

/-- ITEM_TIMEOUT: the item of tile t has run for longer than ITEM_TIMEOUT (07 R170): it is stopped, and its end is TIMEOUT. -/
def itemTimeout (t : Nat) (d : Device) : Device :=
  match (d.tile t).running, (d.tile t).ended with
  | some r, none =>
    match d.runOf r.q r.tag with
    | some y => if y.itemTimeout = 0 then d else d.stopItem t .timeout
    | none => d
  | _, _ => d

def execItemTimeout (t : Nat) (s : State) : Host.Outcome State Fault Refusal := runUnit (decide (t < nTiles)) (itemTimeout t) s

/-- An item fails without running (07 R455): the RUN stops. -/
def Device.failItem (d : Device) (q g i : Nat) (st : Status) : Device :=
  (d.modRun q g fun r => { r.itemDone i with fails := r.fails ++ [(i, st, 0)] }).stopRun q g false

/-! ## Placement (07 R165, R455) -/

/-- A frond takes part in placement: it has an available tile and is not withheld (14 R374). -/
def Device.serves (d : Device) (f : Nat) : Bool := !(d.frond f).withheld && !(d.tilesOf f).isEmpty

/-- The frond an item goes to: its home or the next logical frond that serves; otherwise the next one in turn of the dies it names (log entry 31). -/
def Device.placeItem (d : Device) (r : Run) (w : List Word) : Option Nat :=
  if itHomev w then
    let l := d.frondsOf (itHdie w)
    (l.drop (itHfrond w) ++ l.take (itHfrond w)).find? d.serves
  else
    let l := ((itDies w).flatMap d.frondsOf).filter d.serves
    match l.find? (fun f => decide (r.rr ≤ f)) with
    | some f => some f
    | none => l.head?

/-- ITEM_SEND: the next item of a RUN goes to its frond (07 R165, R455). -/
def itemSend (q g : Nat) (d : Device) : Device :=
  match d.runOf q g with
  | none => d
  | some r =>
    match r.items[r.nextSend]? with
    | none => d
    | some w =>
      if r.stopped then d
      else
        match d.placeItem r w with
        | none =>
          if ((itDies w).flatMap d.frondsOf).any (fun f => (d.frond f).withheld) then d
          else (d.modRun q g fun y => { y with nextSend := y.nextSend + 1 }).failItem q g r.nextSend .noResource
        | some f =>
          if 1024 ≤ (d.frond f).items.length then d
          else
            let n := Sparse.get 0 r.slots f
            let slot := if itHomev w then itHslot w else n % 16
            let d := d.modRun q g fun y =>
              if itHomev w then { y with nextSend := y.nextSend + 1 }
              else { y with nextSend := y.nextSend + 1, rr := f + 1, slots := Sparse.put 0 y.slots f (n + 1) }
            (d.modFrond f fun x => { x with items := x.items ++ [⟨q, g, r.nextSend, w, slot, false⟩] }).wakeDom (domFrond f)

def execItemSend (q g : Nat) (s : State) : Host.Outcome State Fault Refusal := runUnit (decide (q < nQueues)) (itemSend q g) s

/-! ## Dispatch (07 R166-R168, R184, 04 R84) -/

/-- The tile slot s of frond f maps to (07 R167). -/
def Device.slotTile (d : Device) (f s : Nat) : Option Nat :=
  let l := d.tilesOf f
  l[s % l.length]?

/-- Tile t can take an item: it is available, idle with nothing in flight, and no program is being written to it (14 R368). -/
def Device.tileFree (d : Device) (t : Nat) : Bool :=
  let x := d.tile t
  let f := d.frond (t / 16)
  d.tileOn t && x.running.isNone && x.ended.isNone && x.seq.st != .loading && d.quiet t && !f.hopOut (ofDispatch t) &&
  !f.reserved.any (fun r => r.tile == t) && !(match f.spore with | some j => has j.tiles t | none => false)

/-- The free tiles of a frond. -/
def Device.freeTiles (d : Device) (f : Nat) : List Nat := (d.tilesOf f).filter d.tileFree

/-- Every source queue of an item holds an entry it may pop (07 R166, R176). -/
def Device.sourcesReady (d : Device) (w : List Word) : Bool :=
  let asker : HopReq := ⟨.pop, 0, 0, 0, itSeq w, itEpoch w, itSpecc w, .dispatch 0⟩
  (List.range 6).all fun i =>
    match d.srcQueue w i with
    | some q => !((d.hq q).visible asker).isEmpty
    | none => true

/-- An item is ready but for a free tile (07 R166, R178). -/
def Device.itemReady (d : Device) (x : Waiting) : Bool :=
  match d.runOf x.q x.tag with
  | none => false
  | some r =>
    let a := r.ahead (itSeq x.words) (itEpoch x.words)
    !r.stopped && !r.fenced (itLayer x.words) && (!itSpecc x.words || (decide (1 ≤ a) && decide (a ≤ 8))) && d.sourcesReady x.words

/-- The item is of a deterministic RUN. -/
def Device.itemDet (d : Device) (x : Waiting) : Bool := ((d.runOf x.q x.tag).map (·.det)).getD false

/-- The choice of a frond: the oldest ready item that has a tile, and that tile (07 R166). In deterministic mode only its slot's tile, and no item
overtakes an earlier one of the same tile (07 R184). Among other free tiles than the slot's, a free value chooses (log entry 32). -/
def Device.chooseItem (f : Nat) : List Waiting → List Waiting → Device → Option (Waiting × Nat × Device)
  | _, [], _ => none
  | before, x :: rest, d =>
    let free := d.freeTiles f
    let want := d.slotTile f x.slot
    let mine := want.bind fun t => if has free t then some t else none
    let next := Device.chooseItem f (before ++ [x]) rest d
    if !d.itemReady x then next
    else if d.itemDet x then
      match mine with
      | some t =>
        if before.any (fun y => y.q == x.q && y.tag == x.tag && d.slotTile f y.slot == some t) then next else some (x, t, d)
      | none => next
    else
      match mine, free with
      | some t, _ => some (x, t, d)
      | none, [] => next
      | none, t :: _ =>
        let o := d.fresh 16
        some (x, free.getD (o.1.toNat % free.length) t, o.2)

/-- A literal entry: a tile handle with TILE = 0xFFF names the tile that runs the item (07 R163). -/
def literalEntry (e : Word) (t : Nat) : Word := if entryKind e = 2 ∧ fld e 50 12 = 0xFFF then setFld e 50 12 t else e

/-- PARAM i as delivered: a logical queue number becomes the physical one (07 R162). -/
def Device.deliverParam (d : Device) (w : List Word) (i : Nat) : Word :=
  if itPqmask w i then setFld (itParam w i) 0 14 ((d.physQueue (fld (itParam w i) 0 14)).getD 0) else itParam w i

/-- Dispatch sets the tile and starts it (04 R84, R85, 05 R130). -/
def Tile.dispatch (t : Tile) (g : List (Nat × Word)) (pc : Nat) (slot : Nat) (seed : Word) (r : Running) : Tile :=
  { t with
    seq := { t.seq with
      st := .run, pc := BitVec.ofNat 14 pc, slot := BitVec.ofNat 4 slot, g := g.foldl (fun m e => Sparse.put 0 m e.1 e.2) [], v := [], p := [], lc := [],
      loops := [], rrbG := 0, rrbV := 0, strmState := 0, flags := Flags.clear, item := BitVec.ofNat 32 r.index, seed := seed, cycle := 0, wait := none, ops := [] }
    arr := { t.arr with active := none, shadow := none, loading := none }
    sel := { t.sel with valid := false, nanCount := Counter.zero }
    strm := Stream.reset
    running := some r
    ended := none }

/-- A RUN's first item on a frond makes it active there, and the weight cache drops every line outside the immutable regions of the RUNs now
active on the frond (06 R144, R146). -/
def Device.activate (d : Device) (f q g : Nat) : Device :=
  if (d.frond f).activeRuns.elem (q, g) then d
  else
    let d := d.modFrond f fun x => { x with activeRuns := x.activeRuns ++ [(q, g)] }
    let keep := (d.frond f).wcLines.filter fun l => d.wcEligible f l.line
    d.modFrond f fun x => { x with wcLines := keep }

/-- The item of a reservation whose sources are popped starts on its tile. -/
def Device.startItem (d : Device) (f : Nat) (x : Reservation) : Device :=
  let d := d.modFrond f fun y => { y with reserved := y.reserved.filter (fun z => z.tile != x.tile) }
  let i := x.item
  let w := i.words
  match d.runOf i.q i.tag, d.sched.programs.find? (fun p => p.num.toNat == itProgram w) with
  | some r, some p =>
    let run : Running := ⟨i.q, i.tag, i.index, itSeq w, itEpoch w, BitVec.ofNat 16 (itLayer w), itSpec w, itVerify w,
      [((x.done.find? (fun e => e.1 == 13)).map (·.2)).getD 0, ((x.done.find? (fun e => e.1 == 14)).map (·.2)).getD 0]⟩
    let g := (List.range 8).map (fun j => (j + 1, d.deliverParam w j)) ++ x.done
    let d := d.modTile x.tile fun t => t.dispatch g (p.base + itEntry w) i.slot r.seed run
    let d := d.activate f i.q i.tag
    d.modRun i.q i.tag fun y =>
      let y := { y with dispatched := y.dispatched + 1 }
      -- the latest unconsumed epoch of the sequence in which an item was dispatched (R182)
      if itSeq w = 0xFFFF ∨ y.consumed (itSeq w) (itEpoch w) then y
      else
        y.modSeq (itSeq w) fun z => { z with top := match z.top with
          | some e => if y.consumed (itSeq w) e || laterEpoch e (itEpoch w) then some (itEpoch w) else some e
          | none => some (itEpoch w) }
  | _, _ => d

/-- The items of a frond that has lost its last available tile fail (07 R455). -/
def Device.loseItems (f : Nat) : Nat → Device → Device
  | 0, d => d
  | n + 1, d =>
    match (d.frond f).items with
    | [] => d
    | x :: rest =>
      Device.loseItems f n ((d.modFrond f fun y => { y with items := rest }).failItem x.q x.tag x.index .noResource)

/-- ITEM_DISPATCH: frond f starts the item whose sources have all been popped, or chooses a ready item and reserves its tile (07 R166-R168). A frond that
is withheld chooses none (14 R374). -/
def itemDispatch (f : Nat) (d : Device) : Device :=
  let d := d.discardAt f
  if !d.awake (.frond f) then d
  else
    match (d.frond f).reserved.find? (fun r => r.todo.isEmpty) with
    | some r => d.startItem f r
    | none =>
      if (d.frond f).withheld then d
      else if (d.tilesOf f).isEmpty then Device.loseItems f (d.frond f).items.length d
      else
      match Device.chooseItem f [] (d.frond f).items d with
      | none => d
      | some (x, t, d) =>
        let w := x.words
        let lit := ((List.range 6).filter fun i => itKind w i == 1).map fun i => (9 + i, literalEntry (itSource w i) t)
        let pops := (List.range 6).filterMap fun i => (d.srcQueue w i).map fun q => (9 + i, q)
        let r : Reservation := ⟨x, t, pops, lit⟩
        let d := d.modFrond f fun y => { y with items := y.items.erase x, reserved := y.reserved ++ [r] }
        match pops with
        | [] => d.startItem f r
        | (_, q) :: _ => d.submit f (r.pop q)

def execItemDispatch (f : Nat) (s : State) : Host.Outcome State Fault Refusal := runUnit (decide (f < nFronds)) (itemDispatch f) s

/-! ## Stealing (07 R171-R173) -/

/-- The waiting items of frond f that may be stolen. -/
def Device.stealable (d : Device) (f : Nat) : List Waiting :=
  (d.frond f).items.filter fun x => itSteal x.words && !x.stolen && ((d.runOf x.q x.tag).map Run.steals).getD false

/-- LOAD_REPORT: frond f's count reaches the other fronds of its die; its own copy stands for what its die reports (07 R172; log entry 33). -/
def loadReport (f : Nat) (d : Device) : Device :=
  let n := (d.stealable f).length
  if d.frondOn f then
    (d.frondsOf (f / 24)).foldl (fun d v => d.modFrond v fun x => { x with reports := Sparse.put 0 x.reports f n }) d
  else d

def execLoadReport (f : Nat) (s : State) : Host.Outcome State Fault Refusal := runUnit (decide (f < nFronds)) (loadReport f) s

/-- The count frond f reported last. -/
def Device.reported (d : Device) (f : Nat) : Nat := Sparse.get 0 (d.frond f).reports f

/-- DIE_TOTAL_REPORT: die k's total reaches the other seven (07 R172). -/
def dieTotalReport (k : Nat) (d : Device) : Device :=
  let n := ((d.frondsOf k).map d.reported).sum
  { d with sched := { d.sched with totals :=
      ((List.range nDies).filter (fun j => j != k)).foldl (fun m j => Sparse.put 0 m (8 * j + k) n) d.sched.totals } }

def execDieTotalReport (k : Nat) (s : State) : Host.Outcome State Fault Refusal := runUnit (decide (k < nDies)) (dieTotalReport k) s

/-- The first of the largest values. -/
def argmax (v : Nat → Nat) : List Nat → Option Nat
  | [] => none
  | x :: r =>
    match argmax v r with
    | none => some x
    | some y => if v x < v y then some y else some x

/-- The victim a thief asks (07 R172 step 2). Before READY only LD0's fronds are in service (14 R373). -/
def Device.victim (d : Device) (f : Nat) : Option Nat :=
  let k := f / 24
  let ok := fun (v : Nat) => v != f && !(d.frond v).withheld
  let seen := fun (v : Nat) => Sparse.get 0 (d.frond f).reports v
  match argmax seen ((d.frondsOf k).filter fun v => ok v && decide (2 ≤ seen v)) with
  | some v => some v
  | none =>
    if d.rst.st ≠ .ready then none
    else
      match argmax (fun j => Sparse.get 0 d.sched.totals (8 * k + j)) ((List.range nDies).filter (fun j => j != k)) with
      | none => none
      | some j => argmax d.reported ((d.frondsOf j).filter ok)

/-- STEAL_REQUEST: frond f, with a free tile and no ready item, becomes a thief and asks a victim (07 R172). -/
def stealRequest (f : Nat) (d : Device) : Device :=
  let x := d.frond f
  let idle := d.frondOn f && !x.withheld && d.awake (.frond f) && !(d.freeTiles f).isEmpty && !x.items.any d.itemReady
  let asking := match x.thief with
    | .asked _ => true
    | _ => false
  if idle && !asking && d.sched.runs.any Run.steals then
    match d.victim f with
    | some v => (d.bump 0x17 f 1).modFrond f fun y => { y with thief := .asked v }
    | none => d.modFrond f fun y => { y with thief := .backoff }
  else d

def execStealRequest (f : Nat) (s : State) : Host.Outcome State Fault Refusal := runUnit (decide (f < nFronds)) (stealRequest f) s

/-- STEAL_ANSWER: the victim asked by frond f hands over the newest half of its eligible items, at most 8 (07 R172 step 3, R173). A frond that has been
withheld since is neither thief nor victim (14 R374). -/
def stealAnswer (f : Nat) (d : Device) : Device :=
  match (d.frond f).thief with
  | .asked v =>
    let l := (d.stealable v).filter fun x => (itAffinity x.words).testBit (f / 24)
    let n := if (d.frond v).withheld || (d.frond f).withheld then 0 else min (min 8 (l.length / 2)) (1024 - (d.frond f).items.length)
    let got := l.drop (l.length - n)
    if n = 0 then d.modFrond f fun y => { y with thief := .backoff }
    else
      let d := d.modFrond v fun y => { y with items := y.items.filter (fun x => !got.elem x) }
      let d := d.modFrond f fun y => { y with items := y.items ++ got.map (fun x => { x with stolen := true }), thief := .none }
      let d := d.bump 0x18 f n
      if v / 24 = f / 24 then d else d.bump 0x19 f n
  | _ => d

def execStealAnswer (f : Nat) (s : State) : Host.Outcome State Fault Refusal := runUnit (decide (f < nFronds)) (stealAnswer f) s

/-! ## Commits -/

/-- The commit at the head of a RUN is applied: stale, rejected, or committed when there is room (07 R179-R181). -/
def Device.applyCommit (d : Device) (r : Run) (c : Commit) : Device :=
  let pop := fun (d : Device) => (d.modRun r.q r.tag fun y => { y with commits := y.commits.drop 1, waitRoom := false })
  let settle := fun (d : Device) => ((d.fronds.map (·.1)).foldl Device.discardAt d).checkRun r.q r.tag
  if decide (r.seqs.length ≤ c.seq.toNat) || c.epoch != r.epochC c.seq + 1 then settle ((pop d).bump 0x16 0 1)
  else if c.bad || c.accept == 0 then settle ((pop d).rejectEpoch r.q r.tag c.seq c.epoch)
  else if d.commitRoom r c then settle ((pop d).commitEpoch r.q r.tag c)
  else d.modRun r.q r.tag fun y => { y with waitRoom := true }

/-- COMMIT_APPLY (07 R180). -/
def commitApply (q g : Nat) (d : Device) : Device :=
  match d.runOf q g with
  | none => d
  | some r =>
    match r.commits with
    | [] => d
    | c :: _ => if r.waitRoom || r.stopped then d else d.applyCommit r c

def execCommitApply (q g : Nat) (s : State) : Host.Outcome State Fault Refusal := runUnitC (decide (q < nQueues)) (commitApply q g) s

/-- CONS as read: a failing read, or a value that is no index of the ring, counts as no room (07 R454; log entry 34). -/
def Device.readCons (d : Device) (r : Run) : Option Nat × Device :=
  match d.addrRead true r.consAddr 4 with
  | (.success, l, d') =>
    let v := leNat l
    (if v < 2 * r.ringEntries ∧ (r.prod + 2 * r.ringEntries - v) % (2 * r.ringEntries) ≤ r.ringEntries then some v else none, d')
  | (_, _, d') => (none, d')

/-- CONS_RECHECK: a waiting commit reads CONS again, and is applied if there is room now (08 R212, 07 R454). -/
def consRecheck (q g : Nat) (d : Device) : Device :=
  match d.runOf q g with
  | none => d
  | some r =>
    match r.commits with
    | [] => d
    | c :: _ =>
      if !r.waitRoom || r.stopped then d
      else
        match d.readCons r with
        | (none, d') => d'
        | (some v, d') => (d'.modRun q g fun y => { y with cons := v }).applyCommit { r with cons := v } c

def execConsRecheck (q g : Nat) (s : State) : Host.Outcome State Fault Refusal := runUnitC (decide (q < nQueues)) (consRecheck q g) s

/-! ## RUN (08 R212, 07 R158-R164) -/

/-- What a check of a RUN gives: a value, or the completion that refuses the RUN; the device goes on from what the check has read. -/
abbrev RunRes (α : Type) := ExceptT Cpl (StateM Device) α

/-- The RUN is refused. -/
def refuseRun {α : Type} (p : Cpl) : RunRes α := throw (noItem p)

/-- A read of the command processor as part of a check; a failing one refuses the RUN with its status, DETAIL 0 (07 R454). -/
def runRead (f : Device → Status × List Byte × Device) : RunRes (List Byte) := do
  let r := f (← getThe Device)
  set r.2.2
  if r.1 = .success then pure r.2.1 else refuseRun (cplOf r.1)

/-- n entries of size z at an internal address. -/
def readArray (a z n : Nat) : RunRes (List (List Byte)) := do
  pure (chunksOf z (n + 1) (← runRead fun d => d.agentRead a (z * n)))

/-- The first index of a list whose entry is bad. -/
def firstBadIdx {α : Type} (f : α → Bool) (l : List α) : Option Nat := (l.zipIdx.find? (fun e => f e.1)).map (·.2)

/-- A structure's entries, refused at the first bad one (08 R200). -/
def checkAll {α : Type} (k : Nat) (bad : α → Bool) (l : List α) : RunRes Unit :=
  match firstBadIdx bad l with
  | some i => refuseRun (cplStruct k i)
  | none => pure ()

/-- A RUN is refused where a condition holds. -/
def refuseIf (b : Bool) (p : Cpl) : RunRes Unit := if b then refuseRun p else pure ()

/-- The n words of an entry. -/
def wordsN (n : Nat) (l : List Byte) : List Word := (List.range n).map fun i => BitVec.ofNat 64 (leAt l (8 * i) 8)

/-- A header's array: a multiple of 64 in a DRAM window, or 0 with a count of 0; and a count within its limit (07 R158). -/
def arrayBad (a n lim : Nat) : Bool :=
  decide (lim < n) || a % 64 != 0 || (n == 0 && a != 0) || (n != 0 && !(match placeOf a with | .dram _ _ => true | _ => false))

/-- Reserved fields of the header, and counts and addresses outside their ranges (07 R158). -/
def headerBad (h : List Word) : Bool :=
  let w := itW h
  fld (w 0) 49 15 != 0 || fld (w 1) 44 20 != 0 || fld (w 2) 60 4 != 0 || fld (w 3) 58 6 != 0 || fld (w 4) 60 4 != 0 || fld (w 5) 44 20 != 0 ||
  fld (w 7) 32 32 != 0 || fld (w 0) 0 32 == 0 ||
  arrayBad (fld (w 1) 0 44) (fld (w 0) 0 32) (2 ^ 32 - 1) || arrayBad (fld (w 2) 0 44) (fld (w 2) 44 16) 4096 ||
  arrayBad (fld (w 3) 0 44) (fld (w 3) 44 14) 12288 || arrayBad (fld (w 4) 0 44) (fld (w 4) 44 16) 4096 ||
  arrayBad (fld (w 5) 0 44) (fld (w 0) 32 16) 4096

/-- A region entry that breaks R159. -/
def Device.regionBad (d : Device) (e : List Word) : Bool :=
  let b := fld (itW e 0) 0 44
  let n := fld (itW e 1) 0 44
  let k := fld (itW e 1) 62 2
  fld (itW e 0) 44 20 != 0 || fld (itW e 1) 44 18 != 0 || k == 0 || k == 3 || b % 512 != 0 || n % 512 != 0 || n == 0 || !d.dramRange b n

/-- A handle source that breaks R163. -/
def Device.sourceBad (d : Device) (w : List Word) (i : Nat) : Bool :=
  let s := itSource w i
  match itKind w i with
  | 0 => s != 0
  | 1 => !validEntry (literalEntry s 0)
  | 2 => fld s 14 50 != 0 || (d.physQueue (fld s 0 14)).isNone
  | _ => true

/-- An item that breaks R162 to R164, or names a program that is not resident or an entry beyond it (08 R211; log entry 35). -/
def Device.itemBad (d : Device) (policy : BitVec 2) (det : Bool) (seqCount : Nat) (w : List Word) : Bool :=
  let noSeq := itSeq w == 0xFFFF
  fld (itW w 0) 24 2 != 0 || fld (itW w 0) 14 2 != 0 || fld (itW w 1) 12 2 != 0 || itAffinity w == 0 ||
  (itHomev w && (!(itAffinity w).testBit (itHdie w) || (d.physFrond (itHdie w) (itHfrond w)).isNone)) ||
  (!noSeq && decide (seqCount ≤ (itSeq w).toNat)) || (noSeq && itSpecc w) || (itSpec w && itVerify w) ||
  (itSpec w && !speculates policy) || (det && !itHomev w) ||
  (List.range 8).any (fun i => itPqmask w i && (d.physQueue (fld (itParam w i) 0 14)).isNone) ||
  (List.range 6).any (d.sourceBad w) ||
  (match d.sched.programs.find? (fun p => p.num.toNat == itProgram w) with
   | some p => decide (p.n ≤ itEntry w)
   | none => true)

/-- The parameters of RUN that are refused (08 R212). -/
def runParams (c : Cmd) (_ : Device) : Option Nat :=
  let n := fld (c.pw 5) 0 25
  let none' := n == 0
  firstBad [(fld (c.pw 1) 0 6 != 0, 8), (!bitAt (c.pw 2) 2 && fld (c.pw 2) 0 2 != 0, 16), (none' && c.pw 4 != 0, 32),
    (!none' && (decide (n < 256) || 2 ^ Nat.log2 n != n), 40), ((none' && c.pw 6 != 0) || fld (c.pw 6) 0 3 != 0, 48),
    ((none' && c.pw 7 != 0) || fld (c.pw 7) 0 3 != 0, 56)]

/-- The start of a RUN in fiddlehead service names only what LD0 has (08 R204, 14 R373). -/
def Device.runFar (d : Device) (c : Cmd) (addrs : List Nat) : Bool :=
  decide (d.rst.st = .fiddlehead) &&
  (bitAt (c.pw 2) 3 || d.farRange (c.pw 1) 64 || d.farRange (c.pw 4) (8 * fld (c.pw 5) 0 25) || d.farRange (c.pw 6) 4 || d.farRange (c.pw 7) 4 ||
   addrs.any (fun a => decide (0x1000000000 ≤ a)))

/-- PROD or CONS, read at the start of a RUN. -/
def readIndex (a : Word) : RunRes Nat := do pure (leNat (← runRead fun d => d.addrRead true a 4))

/-- Validation of a RUN and its start reads (07 R158-R164, R174, R454, 08 R212). The checks are made of the device as it stood when the RUN started. -/
def validate (d : Device) (c : Cmd) : RunRes Run := do
  let policy := if bitAt (c.pw 2) 2 then BitVec.ofNat 2 (fld (c.pw 2) 0 2) else d.sched.policy
  let det := bitAt (c.pw 2) 3
  let n := fld (c.pw 5) 0 25
  refuseIf (d.runFar c []) (cplOf .notReady)
  let hb ← readArray (intAddr (c.pw 1)) 64 1
  let h := wordsN 8 (hb.headD [])
  refuseIf (headerBad h || (det && !bitAt (itW h 0) 48)) (cplStruct 1 0)
  let itemN := fld (itW h 0) 0 32
  let seqN := fld (itW h 0) 32 16
  refuseIf (seqN != 0 && n == 0) (cplBad 40)
  let adr := fun i => fld (itW h i) 0 44
  refuseIf (d.runFar c [adr 1, adr 2, adr 3, adr 4, adr 5]) (cplOf .notReady)
  let regions := (← readArray (adr 2) 16 (fld (itW h 2) 44 16)).map (wordsN 2)
  checkAll 3 d.regionBad regions
  let queues := (← readArray (adr 3) 2 (fld (itW h 3) 44 14)).map leNat
  checkAll 4 (fun v => decide (2 ^ 14 ≤ v) || (d.physQueue v).isNone) queues
  let fences := (← readArray (adr 4) 2 (fld (itW h 4) 44 16)).map leNat
  checkAll 5 (fun v => v == 0) fences
  let seqs := (← readArray (adr 5) 8 seqN).map (fun l => BitVec.ofNat 64 (leNat l))
  checkAll 6 (fun (w : Word) => fld w 44 20 != 0 || fld w 0 3 != 0 || !(match placeOf (fld w 0 44) with | .dram _ _ => true | _ => false)) seqs
  let items := (← readArray (adr 1) 128 itemN).map (wordsN 16)
  checkAll 2 (d.itemBad policy det seqN) items
  let phys := (queues.filterMap d.physQueue).foldl (fun l q => insNat q l) []
  let sa := seqs.map (fun w => fld w 0 44)
  refuseIf (d.runFar c sa || (decide (d.rst.st = .fiddlehead) &&
    (phys.any (fun q => decide (24 * 64 ≤ q)) || items.any (fun w => decide (1 < itAffinity w))))) (cplOf .notReady)
  match phys.findSome? (fun q => (d.hq q).owner) with
  | some o => refuseRun { cplOf .busy with detail := holderTag o.1 o.2 }
  | none => pure ()
  match d.sched.runs.find? (fun r => r.seqs.any (fun s => sa.elem s.addr)) with
  | some r => refuseRun { cplOf .busy with detail := holderTag r.q r.tag }
  | none => pure ()
  let words ← sa.mapM fun a => do
    let l ← readArray a 8 1
    pure (BitVec.ofNat 64 (leNat (l.headD [])) : Word)
  let prod ← if n = 0 then pure 0 else readIndex (c.pw 6)
  let cons ← if n = 0 then pure 0 else readIndex (c.pw 7)
  refuseIf (n != 0 && (decide (2 * n ≤ prod) || decide (2 * n ≤ cons) || decide (n < (prod + 2 * n - cons) % (2 * n)))) (cplBad 48)
  pure {
    q := c.q, tag := c.tag.toNat, policy := policy, det := det, seed := c.pw 3, items := items
    itemTimeout := BitVec.ofNat 32 (fld (itW h 7) 0 32)
    regions := regions.map fun e => (fld (itW e 1) 62 2, fld (itW e 0) 0 44, fld (itW e 1) 0 44)
    queues := phys, fences := fences, specAware := itW h 6
    seqs := (sa.zip words).map fun e => ⟨e.1, BitVec.ofNat 32 (fld e.2 0 32), BitVec.ofNat 16 (fld e.2 32 16), none⟩
    nextSend := 0, dispatched := 0, ended := 0, itemsOk := 0, doneItems := [], fails := [], stopped := false, aborted := false
    nancount := 0, flags := Flags.clear, ringAddr := c.pw 4, ringEntries := n, prodAddr := c.pw 6, consAddr := c.pw 7, prod := prod, cons := cons
    commits := [], waitRoom := false, specEnds := [], rr := 0, slots := [] }

/-- A RUN's validation, from a device. -/
def Device.validate (d : Device) (c : Cmd) : Except Cpl Run × Device := (Sys2Proof.Machine.validate d c).run.run d

def runBody (c : Cmd) (d : Device) : Device :=
  match d.validate c with
  | (.error p, d) => d.finish c p
  | (.ok r, d) =>
    let d := r.queues.foldl (fun d k => d.emptyQueue k (some (c.q, c.tag.toNat))) (d.running c)
    { d with sched := { d.sched with runs := d.sched.runs ++ [r] } }

/-- RUN (08 R212, 07 R158-R164). A RUN beyond the limit stays QUEUED (08 R201). -/
def execRun (q g : Nat) (s : State) : Host.Outcome State Fault Refusal :=
  runUnitC (decide (q < nQueues)) (fun d => if 64 ≤ d.activeRunCount then d else
    cmdRun 0x21 anyKind (fun c => [bits [(0, 44)], bits [(0, 4)], allBits, addrBits (c.pw 4), bits [(0, 25)], addrBits (c.pw 6), addrBits (c.pw 7)])
      runParams runBody q g d) s

/-! ## ABORT, QUERY_RUN, SET_SCHED_POLICY -/

/-- A RUN that has not started completes ABORTED (07 R186, 08 R212). -/
def Device.abortRun (d : Device) (c : Cmd) : Device :=
  match c.st with
  | .queued => d.finish c (noItem (cplOf .aborted))
  | .running => d.stopRun c.q c.tag.toNat true
  | .completing => d

/-- Every RUN that is not DONE is settled as if an ABORT had arrived (08 R205, 14 R375). -/
def Device.abortAll (d : Device) : Device := (d.host.inflight.filter (fun c => c.op == 0x21)).foldl (fun d c => d.abortRun c) d

/-- ABORT acts only on RUNs (08 R213). -/
def abortBad (c : Cmd) (d : Device) : Option Nat :=
  match d.cmdOf (fld (c.pw 1) 0 6) (fld (c.pw 1) 16 16) with
  | some x => firstBad [(x.op != 0x21, 8)]
  | none => none

def abortBody (c : Cmd) (d : Device) : Device :=
  match d.cmdOf (fld (c.pw 1) 0 6) (fld (c.pw 1) 16 16) with
  | none => d.finish c (cplOf .alreadyComplete)
  | some x =>
    if x.st = .completing then d.finish c (cplOf .alreadyComplete)
    else (d.abortRun x).finish c (cplOf .success)

/-- ABORT (07 R186-R188, 08 R213). -/
def execAbort (q g : Nat) (s : State) : Host.Outcome State Fault Refusal :=
  runCmd 0x22 anyKind (fun _ => [bits [(0, 6), (16, 16)]]) abortBad abortBody q g s

def CmdState.code : CmdState → Nat
  | .queued => 0 | .running => 1 | .completing => 2

def queryRunBody (c : Cmd) (d : Device) : Device :=
  let q := fld (c.pw 1) 0 6
  let g := fld (c.pw 1) 16 16
  match d.cmdOf q g with
  | none => d.finish c (cplOf .alreadyComplete)
  | some x =>
    let n := ((d.runOf q g).map fun r => (r.dispatched, r.ended)).getD x.counts
    d.finish c (cpl .success (BitVec.ofNat 64 x.st.code) (pack [(n.2 % 2 ^ 32, 32), (n.1 % 2 ^ 32, 0)]) 0)

/-- QUERY_RUN (08 R210, R213). -/
def execQueryRun (q g : Nat) (s : State) : Host.Outcome State Fault Refusal :=
  runCmd 0x23 anyKind (fun _ => [bits [(0, 6), (16, 16)]]) noBad queryRunBody q g s

def setSchedPolicyBody (c : Cmd) (d : Device) : Device :=
  let old := d.sched.policy
  ({ d with sched := { d.sched with policy := BitVec.ofNat 2 (fld (c.pw 1) 0 2) } }).finish c (cpl .success (BitVec.ofNat 64 old.toNat) 0 0)

/-- SET_SCHED_POLICY (07 R171): for RUNs that start later. -/
def execSetSchedPolicy (q g : Nat) (s : State) : Host.Outcome State Fault Refusal :=
  runCmd 0x24 anyKind (fun _ => [bits [(0, 2)]]) noBad setSchedPolicyBody q g s

end Sys2Proof.Machine
end

