-- ==== Sys2Proof/Machine/Image.lean ====
section
/-! DEFINITION. Signatures, certificates, keys and code images (17 R427-R431), the boot flash and its selector (17 R431, R433), and measurements on
their way to LD0's core (17 R435). -/

namespace Sys2Proof.Machine

/-! ## Boot flash (17 R431) -/

/-- n bytes of the boot flash; an unlisted byte reads 0xFF (log entry 8). -/
def Device.flashRead (d : Device) (a n : Nat) : List Byte := (upFrom a n).map (Sparse.get 0xFF d.flash)

/-- Bytes written to the boot flash. -/
def Device.flashWrite (d : Device) (a : Nat) (l : List Byte) : Device :=
  { d with flash := (l.zipIdx a).foldl (fun m e => Sparse.put 0xFF m e.2 e.1) d.flash }

/-- The erase sectors of 64 KiB that hold n bytes at a are erased (18 R451). -/
def Device.flashErase (d : Device) (a n : Nat) : Device :=
  { d with flash := d.flash.filter fun (e : Nat × Byte) => decide (e.1 / 65536 < a / 65536) || decide ((a + n - 1) / 65536 < e.1 / 65536) }

/-- First byte of slot A or B. -/
def slotBase (b : Bool) : Nat := if b then 0x3100000 else 0x0100000

/-- Offset in a slot of certificate 0, 3 or 4, and of the firmware image. -/
def certOffset (role : Nat) : Nat := if role = 0 then 0 else if role = 3 then 0x1000 else 0x2000
def fwOffset : Nat := 0x3000

/-- The certificate of a role in a slot. -/
def Device.slotCert (d : Device) (b : Bool) (role : Nat) : List Byte := d.flashRead (slotBase b + certOffset role) 3200

/-- Copy n of the boot selector: ACTIVE and the sequence number, if its check holds (log entry 36 gives the places of the fields). -/
def Device.selector (d : Device) (n : Nat) : Option (Bool × Nat) :=
  let l := d.flashRead (0x10000 * n) 12
  if leAt l 8 4 = (crc32c (l.take 8)).toNat ∧ leAt l 0 4 < 2 then some (leAt l 0 4 == 1, leAt l 4 4) else none

/-- The slot the selector names, its sequence number, and the copy to be written next (17 R432, R433). -/
def Device.selected (d : Device) : Bool × Nat × Nat :=
  match d.selector 0, d.selector 1 with
  | some a, some b => if a.2 < b.2 then (b.1, b.2, 0) else (a.1, a.2, 1)
  | some a, none => (a.1, a.2, 1)
  | none, some b => (b.1, b.2, 0)
  | none, none => (false, 0, 0)

/-- The selector copy with the lower sequence number gets the slot, and the higher number plus 1 (17 R433); its sector is erased first (18 R451). -/
def Device.writeSelector (d : Device) (b : Bool) : Device :=
  let s := d.selected
  let l := leBytes 4 (b2n b) ++ leBytes 4 (s.2.1 + 1)
  (d.flashErase (0x10000 * s.2.2) 12).flashWrite (0x10000 * s.2.2) (l ++ leBytes 4 (crc32c l).toNat)

/-! ## Signatures and certificates (17 R427, R428) -/

/-- The labels, as their ASCII bytes: AEL-IMG1, AEL-CRT1, AEL-RPT1, AEL-DBG1. -/
def labelOf (a b c : Byte) : List Byte := [0x41, 0x45, 0x4C, 0x2D, a, b, c, 0x31]
def lblImg : List Byte := labelOf 0x49 0x4D 0x47
def lblCrt : List Byte := labelOf 0x43 0x52 0x54
def lblRpt : List Byte := labelOf 0x52 0x50 0x54
def lblDbg : List Byte := labelOf 0x44 0x42 0x47

/-- The 72-byte message a signature covers. -/
def signedMsg (label covered : List Byte) : List Byte := label ++ Config.shake256 covered 64

/-- A signature is valid under a key. -/
def sigOk (key label covered sig : List Byte) : Bool :=
  decide (sig.length = 1280) && sig.headD 0 == 0x3A && Config.falconVerify key (signedMsg label covered) sig

/-- The public key of a certificate. -/
def certKey (c : List Byte) : List Byte := (c.drop 0x40).take 1793

/-- A certificate's own fields. -/
def certForm (role : Nat) (c : List Byte) : Bool :=
  decide (c.length = 3200) && leAt c 0 4 == 0xAE17CE27 && leAt c 4 2 == 1 && leAt c 6 1 == role && leAt c 0x30 2 == 1793

/-- Certificate 3 or 4 is accepted: it chains to a certificate 0 whose key hashes to ROOT_HASH (17 R430). -/
def certAccepted (rootHash c0 : List Byte) (role : Nat) (c : List Byte) : Bool :=
  !rootHash.isEmpty && certForm 0 c0 && Config.shake256 (certKey c0) 32 == rootHash && certForm role c &&
  (c.drop 0x10).take 32 == Config.shake256 (certKey c0) 32 && sigOk (certKey c0) lblCrt (c.take 0x780) (c.drop 0x780)

/-- The slot whose certificates are in force: the slot booted; in recovery the first whose certificate 3 is accepted (log entry 37). -/
def Device.certSlot (d : Device) : Bool :=
  if has d.sec.fwOk 0 then has d.sec.slotB 0
  else !certAccepted d.fuses.rootHash (d.slotCert false 0) 3 (d.slotCert false 3)

/-- The key of certificate 3 or 4 of a slot, where it is accepted. -/
def Device.slotKey (d : Device) (b : Bool) (role : Nat) : List (List Byte) :=
  let c := d.slotCert b role
  if certAccepted d.fuses.rootHash (d.slotCert b 0) role c then [certKey c] else []

/-- The owner's public key in the owner record, whatever it hashes to. -/
def Device.ownerRecord (d : Device) : Option (List Byte) :=
  if leNat (d.flashRead 0x20000 2) = 1793 then some (d.flashRead 0x20008 1793) else none

/-- The owner key, where it is accepted: it hashes to OWNER_HASH, or OWNER_HASH is not provisioned (17 R430). -/
def Device.ownerKey (d : Device) : List (List Byte) :=
  match d.ownerRecord with
  | some k => if d.fuses.ownerHash.isEmpty || Config.shake256 k 32 == d.fuses.ownerHash then [k] else []
  | none => []

/-- The keys that may sign programs and fabric images. -/
def Device.contentKeys (d : Device) : List (List Byte) := d.ownerKey ++ d.slotKey d.certSlot 4

/-- Certificate 2, and certificate 1, whose places in the flash no rule states (log entry 38). -/
def Device.deviceCert (d : Device) : List Byte := d.flashRead (0x30000 + Config.certPlace 2) 3200
def Device.caCert (d : Device) : List Byte := d.flashRead (Config.certPlace 1) 3200

/-- The certificate with a role (17 R428). -/
def Device.cert (d : Device) (role : Nat) : List Byte :=
  match role with
  | 1 => d.caCert
  | 2 => d.deviceCert
  | r => d.slotCert d.certSlot r

/-! ## Code images (17 R429, R430) -/

def imgVersion (h : List Byte) : Nat := leAt h 8 8
def imgBuild (h : List Byte) : Nat := leAt h 0x10 8
def imgBody (h : List Byte) : Nat := leAt h 0x18 4
def imgSig (h : List Byte) : Nat := leAt h 0x1C 4
def imgFuseSvn (h : List Byte) : Nat := leAt h 0x20 8
def imgFwVersion (h : List Byte) : Nat := leAt h 0x28 4
def imgDigest (h : List Byte) : List Byte := (h.drop 0x40).take 64

/-- Bytes lo to lo + n - 1 are 0. -/
def zeros (l : List Byte) (lo n : Nat) : Bool := ((l.drop lo).take n).all (· == 0)

/-- Check 1: the header and the lengths, for firmware or a program. -/
def imgForm (fw : Bool) (h : List Byte) (len : Nat) : Bool :=
  let body := imgBody h
  decide (256 ≤ len) && decide (h.length = 256) && leAt h 0 4 == 0xAE17C0DE && leAt h 4 2 == 1 && leAt h 6 1 == (if fw then 0 else 1) &&
  zeros h 7 1 && zeros h 0x2C 20 && zeros h 0x80 128 && imgSig h == (0x100 + body + 63) / 64 * 64 && decide (imgSig h + 1280 ≤ len) &&
  (if fw then decide (imgSig h + 1280 ≤ 0x600000) else body % 8 == 0 && imgFuseSvn h == 0 && imgFwVersion h == 0)

/-- Checks 2 to 4, over the bytes up to the end of the signature. -/
def imgFault (keys : List (List Byte)) (svc : Nat) (img : List Byte) : Option Status :=
  let h := img.take 256
  if !keys.any (fun k => sigOk k lblImg h ((img.drop (imgSig h)).take 1280)) then some .signatureInvalid
  else if imgVersion h < svc then some .rollback
  else if Config.shake256 ((img.drop 256).take (imgBody h)) 64 ≠ imgDigest h then some .signatureInvalid
  else none

/-- The firmware image of a slot, and what its check finds (17 R430, R432). -/
def Device.slotImage (d : Device) (b : Bool) : Except Status (List Byte) :=
  let a := slotBase b + fwOffset
  let h := d.flashRead a 256
  if !imgForm true h 0x600000 then .error .invalidParam
  else
    let img := d.flashRead a (imgSig h + 1280)
    match imgFault (d.slotKey b 3) d.svc img with
    | some st => .error st
    | none => .ok img

/-! ## Security fuses (17 R425) -/

/-- The majority of three copies, bit by bit, and how many bits disagree. -/
def vote3 {w : Nat} (a b c : BitVec w) : BitVec w := (a &&& b) ||| (a &&& c) ||| (b &&& c)
def apart3 {w : Nat} (a b c : BitVec w) : Nat := ((List.range w).filter fun i => ((a ^^^ b) ||| (a ^^^ c)).getLsbD i).length

/-- A voted field: its 32 bytes, none where its bits and CRC are all 0 and it is not provisioned; and whether one that is not all 0 fails its CRC-32C. -/
def fuseField (v : BitVec 256) (crc : BitVec 32) : List Byte := if v = 0 ∧ crc = 0 then [] else leBytes 32 v.toNat
def fuseFieldBad (v : BitVec 256) (crc : BitVec 32) : Bool := decide (¬(v = 0 ∧ crc = 0)) && crc32c (leBytes 32 v.toNat) != crc

/-- Sensing: what the three copies make of the security fuses. -/
def Fuses.senseSec (f : Fuses) : Fuses :=
  match f.secCopies with
  | [a, b, c] =>
    let root := vote3 a.root b.root c.root
    let rootCrc := vote3 a.rootCrc b.rootCrc c.rootCrc
    let owner := vote3 a.owner b.owner c.owner
    let ownerCrc := vote3 a.ownerCrc b.ownerCrc c.ownerCrc
    let aes := vote3 a.aes b.aes c.aes
    let aesCrc := vote3 a.aesCrc b.aesCrc c.aesCrc
    { f with
      rootHash := fuseField root rootCrc, ownerHash := fuseField owner ownerCrc, ownerAes := fuseField aes aesCrc
      svcBits := vote3 a.svc b.svc c.svc
      secCrcBad := fuseFieldBad root rootCrc || fuseFieldBad owner ownerCrc || fuseFieldBad aes aesCrc
      fuseFix := apart3 a.root b.root c.root + apart3 a.rootCrc b.rootCrc c.rootCrc + apart3 a.owner b.owner c.owner +
        apart3 a.ownerCrc b.ownerCrc c.ownerCrc + apart3 a.aes b.aes c.aes + apart3 a.aesCrc b.aesCrc c.aesCrc + apart3 a.svc b.svc c.svc }
  | _ => f

/-! ## Measurements (17 R435) -/

/-- A measurement on its way to LD0's core: the image header's VERSION and BUILD_ID where there is an image. -/
def Device.measure (d : Device) (kind die flags : Nat) (hdr : List Byte) (detail : Word) (digest : List Byte) (cause : Option (Nat × Nat)) : Device :=
  { d with sec := { d.sec with inbox := d.sec.inbox ++
    [{ kind := BitVec.ofNat 8 kind, die := BitVec.ofNat 8 die, flags := BitVec.ofNat 16 flags, version := BitVec.ofNat 64 (leAt hdr 8 8)
       build := BitVec.ofNat 64 (leAt hdr 0x10 8), detail := detail, digest := digest, cause := cause, andThen := none }] } }

/-- The place of a start's entry among those that wait: the cores start together, so the entries of one kind reach LD0's core together, in ascending die order,
before those of the next kind (17 R435, R437; log entry 58). -/
def putBoot (m : Meas) : List Meas → List Meas
  | [] => [m]
  | x :: l => if m.kind.toNat < x.kind.toNat ∨ (m.kind = x.kind ∧ m.die.toNat < x.die.toNat) then m :: x :: l else x :: putBoot m l

/-- A measurement of a start: ROM, FIRMWARE or OWNER. -/
def Device.measureBoot (d : Device) (kind die flags : Nat) (hdr digest : List Byte) : Device :=
  let m : Meas := {
    kind := BitVec.ofNat 8 kind, die := BitVec.ofNat 8 die, flags := BitVec.ofNat 16 flags, version := BitVec.ofNat 64 (leAt hdr 8 8)
    build := BitVec.ofNat 64 (leAt hdr 0x10 8), detail := 0, digest := digest, cause := none, andThen := none }
  { d with sec := { d.sec with inbox := putBoot m d.sec.inbox } }

/-- The completion waits on the last of the command's measurements that has not been appended. -/
def chainCpl (c : Nat × Nat) (p : Cpl) : List Meas → Option (List Meas)
  | [] => none
  | m :: r =>
    match chainCpl c p r with
    | some r' => some (m :: r')
    | none => if m.cause = some c then some ({ m with andThen := some p } :: r) else none

/-- A command completes after its measurements are appended (17 R435). -/
def Device.completeAfter (d : Device) (q g : Nat) (p : Cpl) : Device :=
  match chainCpl (q, g) p d.sec.inbox with
  | some l => { d with sec := { d.sec with inbox := l } }
  | none => d.complete q g p

/-- The digest of the availability map (17 R435 KIND 0x04). -/
def Device.mapDigest (d : Device) : List Byte := Config.shake256 d.availMap 64

/-- The AVAILABILITY entry of die k. -/
def Device.measureMap (d : Device) (k : Nat) (cause : Option (Nat × Nat)) : Device := d.measure 4 k 0 [] 0 d.mapDigest cause

end Sys2Proof.Machine
end

