-- ==== Sys2Proof/Machine/Spore.lean ====
section
/-! DEFINITION. LOAD_PROGRAM (08 R211) and the spore broadcast that writes program images into tiles (14 R363-R368). -/

namespace Sys2Proof.Machine

/-! ## LOAD_PROGRAM -/

/-- A resident program is used by a RUN (08 R211). -/
def Run.usesProgram (r : Run) (p : Nat) : Bool := r.items.any (fun w => itProgram w == p)

/-- A load of n instructions at BASE as program p overwrites or removes a resident program: their ranges overlap, or it has the same number. -/
def Program.hit (x : Program) (p base n : Nat) : Bool :=
  x.num.toNat == p || (decide (x.base < base + n) && decide (base < x.base + x.n))

/-- Bytes of an image at an address in the form of R192, checked under R430: the header first, then up to the end of the signature; what was read stands
beside the outcome. In recovery host memory is read by CXL.io, past the coherency cache (17 R432). -/
def Device.readImage (d : Device) (fw : Bool) (keys : List (List Byte)) (a : Word) (len : Nat) : Except Cpl (List Byte) × Device :=
  if len < 256 then (.error (cplStruct 7 0), d)
  else if d.farRange a 256 then (.error (cplOf .notReady), d)
  else
    match d.addrRead (!d.sec.recovery) a 256 with
    | (.success, h, d) =>
      if !imgForm fw h len then (.error (cplStruct 7 0), d)
      else if d.farRange a (imgSig h + 1280) then (.error (cplOf .notReady), d)
      else
        (match d.addrRead (!d.sec.recovery) a (imgSig h + 1280) with
         | (.success, img, d) =>
           (match imgFault keys d.svc img with
            | some st => (.error (cplOf st), d)
            | none => (.ok img, d))
         | (st, _, d) => (.error (cplAns st 8), d))
    | (st, _, d) => (.error (cplAns st 8), d)

def loadProgramBody (c : Cmd) (d : Device) : Device :=
  let prog := fld (c.pw 3) 0 16
  let base := fld (c.pw 3) 16 14
  let dies := fld (c.pw 3) 32 8
  -- one broadcast at a time: the command stays QUEUED (log entry 39)
  if d.sched.spore.isSome then d
  else if d.rst.st = .fiddlehead ∧ 1 < dies then d.finish c (cplOf .notReady)
  else
    match d.readImage false d.contentKeys (BitVec.ofNat 64 (intAddr (c.pw 1))) (fld (c.pw 2) 0 32) with
    | (.error p, d) => d.finish c p
    | (.ok img, d) =>
      let n := imgBody img / 8
      if 16384 < base + n ∨ (d.rst.st ≠ .ready ∧ 14336 < base + n) then d.finish c (cplBad 26)
      else
        let hit := d.sched.programs.filter fun x => x.hit prog base n
        match d.sched.runs.find? (fun r => hit.any fun x => r.usesProgram x.num.toNat) with
        | some r => d.finish c { cplOf .busy with detail := holderTag r.q r.tag }
        | none =>
          let left := d.sched.programs.filter fun x => !x.hit prog base n
          if 64 ≤ left.length then d.finish c (cplOf .noResource)
          else
            let x : Spore := {
              cmd := some (c.q, c.tag.toNat), image := d.sched.image, base := base
              body := (List.range n).map fun i => BitVec.ofNat 64 (leAt img (256 + 8 * i) 8)
              dies := BitVec.ofNat 8 dies, prog := BitVec.ofNat 16 prog, hdr := img.take 256, setupDone := false, queue := []
              asked := [], missing := [], sent := false, tiles := [], loaded := 0, excluded := 0 }
            ({ d with sched := { d.sched with programs := left, spore := some x, image := d.sched.image + 1 } }).running c

/-- LOAD_PROGRAM (08 R211). -/
def execLoadProgram (q g : Nat) (s : State) : Host.Outcome State Fault Refusal :=
  runCmd 0x20 anyKind (fun _ => [bits [(0, 44)], bits [(0, 32)], bits [(0, 30), (32, 8)]]) noBad loadProgramBody q g s

/-! ## Shared -/

/-- Instructions and chunks of a broadcast (14 R363). -/
def Spore.n (x : Spore) : Nat := x.body.length
def Spore.chunks (x : Spore) : Nat := (x.body.length + 15) / 16

def Device.setSpore (d : Device) (x : Option Spore) : Device := { d with sched := { d.sched with spore := x } }

/-- Tile t can join a broadcast: no item runs on it or has been chosen for it, and nothing it began is in flight (14 R368). -/
def Device.canJoin (d : Device) (t : Nat) : Bool :=
  let x := d.tile t
  let f := d.frond (t / 16)
  d.tileOn t && x.running.isNone && x.ended.isNone && d.quiet t && !f.hopOut (ofDispatch t) && !f.reserved.any (fun r => r.tile == t)

/-- Tile t takes part: LOADING, no chunk received. -/
def Device.joinTile (d : Device) (t : Nat) : Device :=
  d.modTile t fun x => { x with seq := { x.seq with st := .loading }, chunks := [] }

/-- The target tile of a frond is complete or excluded: its frond no longer counts it, and it is idle. -/
def Device.leaveSpore (d : Device) (t : Nat) : Device :=
  (d.modTile t fun x => { x with seq := { x.seq with st := .idle }, chunks := [] }).modFrond (t / 16) fun f => { f with
    spore := f.spore.map fun j => { j with tiles := delNat t j.tiles } }

/-- The DIE byte of a PROGRAM entry: the one die named, or ALL where every die is; for other sets no rule states it (log entry 40). -/
def Device.programDie (d : Device) (dies : BitVec 8) : Nat × Device :=
  match (List.range nDies).filter (fun k => bitAt dies k) with
  | [k] => (k, d)
  | l => if l.length = 8 then (0x80, d) else let r := d.fresh 8; (r.1.toNat, r.2)

/-- Every target tile is complete or excluded: the load completes, or, for the tile firmware, self-test part I begins (14 R356, R368, 08 R211). -/
def Device.finishSpore (d : Device) : Device :=
  match d.sched.spore with
  | none => d
  | some x =>
    if !x.setupDone || !x.tiles.isEmpty then d
    else
      let d := d.setSpore none
      let d := (d.fronds.map (·.1)).foldl (fun d f => d.modFrond f fun y => { y with spore := none, unicasts := [] }) d
      match x.cmd with
      | none => if d.boot.step = 7 then { d with boot := { d.boot with step := 8 } } else d
      | some (q, g) =>
        let d := { d with sched := { d.sched with programs := d.sched.programs ++ [(⟨x.prog, x.base, x.n⟩ : Program)] } }
        let k := d.programDie x.dies
        let d := k.2.measure 5 k.1 0 x.hdr (pack [(x.base, 16), (x.prog.toNat, 0)]) (Config.shake256 x.hdr 64) (some (q, g))
        d.completeAfter q g
          (cpl (if x.excluded = 0 then .success else .successDerated) (pack [(x.excluded, 16), (x.loaded, 0)]) 0 0)

/-- A tile still incomplete after the fourth repair round is excluded (14 R367). -/
def Device.excludeSpore (d : Device) (t : Nat) (cause : Option (Nat × Nat)) : Device :=
  let f := t / 16
  let d := (d.modTile t fun x => { x with avail := .spore }).raise 0x30 (BitVec.ofNat 64 t) 2
  let d := if d.rst.st = .ready then d.measureMap (f / 24) cause else d
  if (d.tilesOf f).isEmpty && !(d.frond f).withheld then Device.loseItems f (d.frond f).items.length d else d

/-! ## The broadcast -/

/-- SPORE_SETUP: the setup messages reach the target frond controllers (14 R363, R368). Tiles that run an item join later. -/
def sporeSetup (d : Device) : Device :=
  match d.sched.spore with
  | none => d
  | some x =>
    if x.setupDone then d
    else
      let fs := (((List.range nDies).filter (fun k => bitAt x.dies k)).flatMap d.frondsOf).filter fun f => !(d.tilesOf f).isEmpty
      let ts := fs.flatMap d.tilesOf
      let now := ts.filter d.canJoin
      let d := fs.foldl (fun d f => (d.modFrond f fun y => { y with
        spore := some (⟨x.image, x.base, x.n, d.tilesOf f⟩ : SporeJob), unicasts := [] }).wakeDom (domFrond f)) d
      let d := now.foldl Device.joinTile d
      let q : List (Nat × SporeDest) := if now.isEmpty then [] else (List.range x.chunks).map fun i => (i, .all)
      (d.setSpore (some { x with
        setupDone := true, queue := q, sent := q.isEmpty && !now.isEmpty, tiles := ts.map fun t => (t, b2n (has now t)) })).finishSpore

def execSporeSetup (s : State) : Host.Outcome State Fault Refusal := run sporeSetup s

/-- The rectangle of routers a chunk is sent to: that of the named dies, or a frond's router alone (14 R363, R366). -/
def Spore.rect (x : Spore) : SporeDest → Nat × Nat × Nat × Nat
  | .frond f => let r := frondRouter f; (r % 12, r / 12, r % 12, r / 12)
  | _ =>
    let ks := (List.range nDies).filter (fun k => bitAt x.dies k)
    (ks.foldl (fun a k => min a (6 * (k % 2))) 11, ks.foldl (fun a k => min a (8 * (k / 2))) 31,
     ks.foldl (fun a k => max a (6 * (k % 2) + 5)) 0, ks.foldl (fun a k => max a (8 * (k / 2) + 7)) 0)

/-- The sender's port: the command processor's, or LD0's die manager's for the tile firmware. -/
def Spore.port (x : Spore) : PortId := if x.cmd.isSome then ⟨cmdRouter, 1⟩ else ⟨routerAt 0 2 0, 1⟩

/-- Chunk i as an MCAST (14 R363, 09 R242). -/
def Spore.packet (x : Spore) (i : Nat) (dst : SporeDest) : Packet :=
  let r := x.rect dst
  let tag := x.image.toNat * 1024 + i
  ⟨mkHdr tMCAST false 1 ⟨12 * r.2.1 + r.1, 0⟩ x.port ((r.2.2.1 <<< 31) + (r.2.2.2 <<< 26) + tag),
   [BitVec.ofNat 1024 (leNat (((x.body.drop (16 * i)).take 16).flatMap fun w => leBytes 8 w.toNat))]⟩

/-- SPORE_CHUNK_SEND: the next chunk of the round is sent, as a multicast or by unicast to its tile's frond controller (14 R363, R366). -/
def sporeChunkSend (d : Device) : Device :=
  match d.sched.spore with
  | none => d
  | some x =>
    match x.queue with
    | [] => d
    | (i, dst) :: rest =>
      let d := d.setSpore (some { x with queue := rest, sent := rest.isEmpty })
      match dst with
      | .tile t => d.modFrond (t / 16) fun f => { f with unicasts := f.unicasts ++ [(t, x.packet i dst)] }
      | _ => d.send x.port (x.packet i dst)

def execSporeChunkSend (s : State) : Host.Outcome State Fault Refusal := run sporeChunkSend s

/-- The word number under which an instruction's double-bit error is marked: its window offset in units of 8 bytes (01 R21, 04 R76). -/
def imemWord (i : Nat) : Nat := 0x3C000 + i

/-- Chunk i written into tile t: instructions BASE to BASE + n - 1 only; read back with correct ECC, its bit is set (14 R363, R364). -/
def Tile.writeChunk (x : Tile) (j : SporeJob) (i : Nat) (p : Packet) : Tile :=
  let l := (List.range (min 16 (j.n - 16 * i))).map fun k => (j.base + 16 * i + k, BitVec.ofNat 64 (fld (p.pay.headD 0) (64 * k) 64))
  { x with
    imem := l.foldl (fun m e => Sparse.put 0 m e.1 e.2) x.imem, chunks := insNat i x.chunks
    badWords := x.badWords.filter fun w => !has (l.map fun e => imemWord e.1) w }

/-- A write whose readback fails leaves its instructions at values no rule states (log entry 2); the chunk stays missing in this tile. -/
def Device.badChunk (d : Device) (j : SporeJob) (i t : Nat) : Device :=
  (List.range (min 16 (j.n - 16 * i))).foldl (fun d k =>
    let r := d.fresh 64
    r.2.modTile t fun x => { x with imem := Sparse.put 0 x.imem (j.base + 16 * i + k) r.1 }) d

/-- Frond f writes a received chunk into those of the tiles ts that still miss it; bad names the tiles whose readback fails. A chunk of another
broadcast is ignored (14 R363, R366). -/
def Device.takeChunk (d : Device) (f : Nat) (ts bad : List Nat) (p : Packet) : Device :=
  match (d.frond f).spore with
  | none => d
  | some j =>
    let i := fld p.hdr 0 10
    if fld p.hdr 10 12 ≠ j.image.toNat then d
    else
      (ts.filter fun t => has j.tiles t && decide ((d.tile t).seq.st = .loading) && !has (d.tile t).chunks i).foldl (fun d t =>
        if has bad t then d.badChunk j i t else d.modTile t fun x => x.writeChunk j i p) d

/-- SPORE_CHUNK_WRITE: frond f takes the next chunk that has reached it, a unicast before a multicast (14 R364). -/
def sporeChunkWrite (f : Nat) (bad : List Nat) (d : Device) : Device :=
  match (d.frond f).unicasts with
  | (t, p) :: rest => (d.modFrond f fun x => { x with unicasts := rest }).takeChunk f [t] bad p
  | [] =>
    match (d.frond f).mcBuf with
    | p :: rest => (d.modFrond f fun x => { x with mcBuf := rest }).takeChunk f (upFrom (16 * f) 16) bad p
    | [] => d

def execSporeChunkWrite (f : Nat) (bad : List Nat) (s : State) : Host.Outcome State Fault Refusal :=
  runUnit (decide (f < nFronds)) (sporeChunkWrite f bad) s

/-- SPORE_REPORT_REQUEST: the sender asks the tiles of the round for their reports (14 R365). -/
def sporeReportRequest (d : Device) : Device :=
  match d.sched.spore with
  | none => d
  | some x =>
    if x.setupDone && x.sent then d.setSpore (some { x with sent := false, asked := (x.tiles.filter (fun e => e.2 != 0)).map (·.1), missing := [] })
    else d

def execSporeReportRequest (s : State) : Host.Outcome State Fault Refusal := run sporeReportRequest s

/-- The missing chunks a tile reports: at most 64 ranges; past the 64th, every chunk from its start on counts as missing (14 R365). -/
def reported (n : Nat) (m : List Nat) : List Nat :=
  match (m.filter fun i => i == 0 || !has m (i - 1))[64]?, (m.filter fun i => i == 0 || !has m (i - 1))[63]? with
  | some _, some s => m.filter (fun i => decide (i < s)) ++ upFrom s (n - s)
  | _, _ => m

/-- SPORE_REPORT: tile t reports complete, or its missing ranges (14 R365). -/
def sporeReport (t : Nat) (d : Device) : Device :=
  match d.sched.spore with
  | none => d
  | some x =>
    if !has x.asked t then d
    else
      let m := (List.range x.chunks).filter fun i => !has (d.tile t).chunks i
      if m.isEmpty then
        ((d.leaveSpore t).setSpore (some { x with
          asked := delNat t x.asked, tiles := x.tiles.filter (fun e => e.1 != t), loaded := x.loaded + 1 })).finishSpore
      else d.setSpore (some { x with asked := delNat t x.asked, missing := x.missing ++ [(t, reported x.chunks m)] })

def execSporeReport (t : Nat) (s : State) : Host.Outcome State Fault Refusal := runUnit (decide (t < nTiles)) (sporeReport t) s

/-- SPORE_REPORT_TIMEOUT: frond f has not answered: every chunk is missing for all its target tiles (14 R365). -/
def sporeReportTimeout (f : Nat) (d : Device) : Device :=
  match d.sched.spore with
  | none => d
  | some x =>
    let l := x.asked.filter fun t => t / 16 == f
    d.setSpore (some { x with
      asked := x.asked.filter (fun t => t / 16 != f), missing := x.missing ++ l.map fun t => (t, List.range x.chunks) })

def execSporeReportTimeout (f : Nat) (s : State) : Host.Outcome State Fault Refusal := runUnit (decide (f < nFronds)) (sporeReportTimeout f) s

/-- The chunks sent in a repair round (14 R366): a frond with a tile that misses more than 16 gets every chunk missing in it by multicast, which
also serves its other tiles; a tile of another frond gets its own by unicast. -/
def repairQueue (m : List (Nat × List Nat)) : List (Nat × SporeDest) :=
  (m.foldl (fun l e => insNat (e.1 / 16) l) []).flatMap fun f =>
    let own := m.filter fun e => e.1 / 16 == f
    if own.any (fun e => decide (16 < e.2.length)) then
      (own.foldl (fun l e => e.2.foldl (fun l i => insNat i l) l) []).map fun i => (i, .frond f)
    else own.flatMap fun e => e.2.map fun i => (i, .tile e.1)

/-- SPORE_REPAIR_ROUND: with every report in, tiles served five times are excluded, the others are served once more, and tiles whose items have
ended join for their first transmission (14 R366-R368). -/
def sporeRepairRound (d : Device) : Device :=
  match d.sched.spore with
  | none => d
  | some x =>
    if !x.setupDone || !x.queue.isEmpty || x.sent || !x.asked.isEmpty then d
    else
      let count := fun (t : Nat) => ((x.tiles.find? (fun e => e.1 == t)).map (·.2)).getD 0
      let out := (x.missing.filter fun e => decide (5 ≤ count e.1)).map (·.1)
      let new := (x.tiles.filter fun e => e.2 == 0 && d.canJoin e.1).map (·.1)
      let again := x.missing.filter fun e => decide (count e.1 < 5)
      let d := out.foldl (fun d t => (d.leaveSpore t).excludeSpore t x.cmd) d
      let d := new.foldl Device.joinTile d
      let q := repairQueue (again ++ new.map fun t => (t, List.range x.chunks))
      let serve := new ++ again.map (·.1)
      match d.sched.spore with
      | none => d
      | some _ =>
        (d.setSpore (some { x with
          queue := q, missing := [], sent := q.isEmpty && !serve.isEmpty, excluded := x.excluded + out.length
          tiles := (x.tiles.filter fun e => !has out e.1).map fun e => if has serve e.1 then (e.1, e.2 + 1) else e })).finishSpore

def execSporeRepairRound (s : State) : Host.Outcome State Fault Refusal := run sporeRepairRound s

end Sys2Proof.Machine
end

