-- ==== Sys2Proof/Machine/Reset.lean ====
section
/-! DEFINITION. Resets: what each class clears (13 R350), the order of a reset (13 R351), the pins and host acts that cause one (13 R347, R352,
15 R393), RESET_WARM (08 R205), and the loss and return of power (13 R346, 18 R446-R448). -/

namespace Sys2Proof.Machine

/-! ## Classes -/

/-- The column-repair settings the fuses give the tiles (03 R74, 14 R359). -/
def Device.fuseTiles (d : Device) : Device :=
  d.fuses.spareSel.foldl (fun d e => d.modTile e.1 fun t => { t with arr := { t.arr with spareSel := e.2 } }) d

/-- The device scheduling policy after a COLD reset (07 R171). -/
def Device.defaultPolicy (d : Device) : BitVec 2 :=
  match d.variant with
  | .ael192 => 1 | .ael160 => 1 | .ael96 => 2 | .ael48 => 2

/-- The level of FAULT# (13 R353): held from the last reset until the die managers run or LD0's core serves recovery. -/
def Device.faultLevel (d : Device) : Bool :=
  if d.rst.st = .reset then d.mod.faultPin else d.rst.fatal || decide (d.rst.st = .diagHold)

/-- The package is held in reset while MOD_RST# or PERST# is accepted low (13 R351, R352). -/
def Device.pinsHeld (d : Device) : Bool := d.mod.modRst || d.mod.perst

/-- A COLD reset (13 R350): everything but the fuses, the boot flash, host memory and the module's standby side is at its reset value. FAULT# holds its
level while a pin holds the package in reset, and is released then (13 R353). -/
def Device.coldReset (cause : ResetCause) (d : Device) : Device :=
  { Device.reset with
    fuses := d.fuses, flash := d.flash, hostMem := d.hostMem, free := d.free
    mod := { d.mod with faultPin := d.mod.powered && d.pinsHeld && d.faultLevel }
    sched := { Sched.reset with policy := d.defaultPolicy }
    rst := { Rst.reset with cause := cause, held := d.pinsHeld } }.fuseTiles

/-- A memory controller as a WARM reset begins (10 R271, R276): thawed, its write buffers drained, refreshes issued, its channels in self-refresh.
Its training store, its patrol position, its last temperatures and what the last freeze recorded stay; a controller that was never trained is off. -/
def Device.mcWarm (d : Device) (m : Nat) : Device :=
  let d := d.thaw m
  let x := d.mc m
  let d := if x.st = .run ∨ x.st = .selfRefresh then x.ch.foldl (fun d c => (c.2.wbuf ++ c.2.backs).foldl Device.applyEntry d) d else d
  let y := if x.store && decide (x.st ≠ .selfRefresh) then x.logAll (d.time (m / 24)) 5 else x
  d.setMc m { MemCtl.reset with
    st := if x.store then .selfRefresh else .off
    temp := x.temp, trainTemp := x.trainTemp, trained := x.trained, store := x.store, hot := x.hot, passes := x.passes, pos := x.pos
    frzChannel := x.frzChannel, frzAddr := x.frzAddr, syndrome := x.syndrome, heldAddrs := x.heldAddrs, history := x.history, cmds := y.cmds }

/-- The static region of die k drives its pads: its logic has started, whether or not its DLL is locked now (11 R299, R301). -/
def Device.padsDriven (d : Device) (k : Nat) : Bool :=
  let x := d.region (9 * k + 8)
  decide (x.st = .active) || (decide (x.st = .starting) && !x.isolated)

/-- The options of a pad of a region without started logic: high-impedance, with the weak pull-down (11 R301). -/
def padDefault : PadOpt := ⟨.mA4, .down, false⟩

/-- The options in force at a pad (11 R299). -/
def Device.padOpt (d : Device) (n : Nat) : PadOpt := Sparse.get padDefault d.fab.pads n

/-- The pads' OE and OUT are latched with the pads' strength (11 R301): what user logic drives is the image's, a free value of each pad where the static region holds
started logic (log entry 41); a pad already held keeps its level. -/
def Device.latchPads (d : Device) (pads : List Nat) : Device :=
  pads.foldl (fun d n =>
    if (Sparse.find d.fab.keepers n).isSome || !d.padsDriven (n / 8) then d
    else
      let r := d.fresh 2
      { r.2 with fab := { r.2.fab with keepers := Sparse.ins r.2.fab.keepers n (bitAt r.1 0, bitAt r.1 1, r.2.padOpt n) } }) d

/-- The CXL port after a WARM reset (15 R392, R393): a CXL reset keeps the link, identity and enables; a cause the host did not make keeps the HDM decoder
too. Bias is host again, and CXL.mem receives poison until Memory_Active is set. The counts of a loss of the link go on. -/
def Cxl.warm (c : Cxl) (cause : ResetCause) : Cxl :=
  let new := { Cxl.reset with warming := true, lost := c.lost, discarded := c.discarded, heldTokens := c.heldTokens }
  let kept := { new with
    up := c.up, cxlMode := c.cxlMode, rate := c.rate, lanes := c.lanes, sris := c.sris, bme := c.bme, d3 := c.d3, mse := c.mse
    msixEn := c.msixEn, msixMask := c.msixMask }
  match cause with
  | .cxlPerst => new
  | .cxlHotReset => new
  | .cxlReset => { kept with resetDone := true }
  | _ => { kept with
    hdm := c.hdm, hdmErr := c.hdmErr, hdmBase := c.hdmBase, hdmSize := c.hdmSize, hdmWays := c.hdmWays, hdmGran := c.hdmGran, resetDone := c.resetDone }

/-- A WARM reset (13 R350, R351): its first five steps. The controllers of a die whose root PLL has lost lock follow once it relocks (13 R336). -/
def Device.warmReset (cause : ResetCause) (d : Device) : Device :=
  let fault := d.faultLevel
  let d := (d.mcs.map (·.1)).foldl (fun d m => if has d.pwr.pll (m / 24) then d.mcWarm m else d) d
  let d := d.latchPads (List.range 64)
  { Device.reset with
    mcs := d.mcs, dram := d.dram, side := d.side, hostMem := d.hostMem, flash := d.flash, fuses := d.fuses, free := d.free
    mod := { d.mod with faultPin := fault }
    sched := { Sched.reset with policy := d.sched.policy }
    fab := { Fabric.reset with keepers := d.fab.keepers, pins := d.fab.pins }
    pwr := { Power.reset with
      time := d.pwr.time, pll := d.pwr.pll, tDamp := d.pwr.tDamp, tDry := d.pwr.tDry, window := d.pwr.window, lead := d.pwr.lead, cap := d.pwr.cap
      watts := d.pwr.watts, tj := d.pwr.tj, warned := d.pwr.warned, warn := d.pwr.warn, hot := d.pwr.hot }
    rst := { Rst.reset with cls := .warm, cause := cause, held := d.pinsHeld }
    boot := { Boot.reset with warm := true, sensed := d.boot.sensed }
    cxl := d.cxl.warm cause }.fuseTiles

/-- Bring-up has ended: READY or diagnostic hold (13 R349). -/
def Device.upOrHeld (d : Device) : Bool := decide (d.rst.st = .ready) || decide (d.rst.st = .diagHold)

/-- A reset of class WARM begins; one that interrupts a cold bring-up restarts the cold bring-up (13 R349), where a CXL reset still leaves the link in L0
(15 R393). -/
def Device.warmCause (cause : ResetCause) (d : Device) : Device :=
  if d.upOrHeld || d.boot.warm then d.warmReset cause
  else if cause = .cxlReset then { d.coldReset cause with cxl := { d.cxl.warm cause with warming := false } }
  else d.coldReset cause

/-- The commands killed by a FUNCTION reset keep what they hold under queue numbers that no queue has, so that a later command with the same queue and tag
is not taken for one of them (08 R227; log entry 117). -/
def Device.renumber (d : Device) : Device :=
  let re := fun (q : Nat) => if q < nQueues then q + nQueues * d.host.kills else q
  let cmd := fun (c : Option (Nat × Nat)) => c.map fun (e : Nat × Nat) => (re e.1, e.2)
  let item := fun (w : Waiting) => { w with q := re w.q }
  let d := (d.tiles.map (·.1)).foldl (fun d t => d.modTile t fun x => { x with running := x.running.map fun r => { r with q := re r.q } }) d
  let d := (d.fronds.map (·.1)).foldl (fun d f => d.modFrond f fun x => { x with
    items := x.items.map item, reserved := x.reserved.map fun r => { r with item := item r.item }
    activeRuns := x.activeRuns.map fun e => (re e.1, e.2), invals := x.invals.map fun e => (re e.1, e.2)
    invalRanges := x.invalRanges.map fun e => (re e.1, e.2) }) d
  let d := (d.hqs.map (·.1)).foldl (fun d k => d.setHq k { d.hq k with owner := cmd (d.hq k).owner }) d
  { d with
    sched := { d.sched with
      runs := d.sched.runs.map fun r => { r with q := re r.q }, spore := d.sched.spore.map fun x => { x with cmd := cmd x.cmd } }
    fab := { d.fab with
      loads := d.fab.loads.map fun x => { x with cmd := cmd x.cmd }, cmds := d.fab.cmds.map fun x => { x with cmd := cmd x.cmd }
      captures := d.fab.captures.map fun e => (re e.1, e.2) }
    sec := { d.sec with inbox := d.sec.inbox.map fun m => { m with cause := cmd m.cause } } }

/-- A FUNCTION reset (08 R227, 13 R350): every queue is disabled, no command receives a completion, RUNs are stopped, and a controller's next POISON answer
is its first since this reset (10 R266). -/
def Device.functionReset (d : Device) : Device :=
  let h := d.host
  let d := { d with
    host := { HostIf.reset with
      events := h.events, lost := h.lost, kills := h.kills + 1, horizon := h.horizon, traceOn := h.traceOn, traceBuf := h.traceBuf, traceLen := h.traceLen, traceMask := h.traceMask }
    sec := { d.sec with heldReq := none } }
  let d := (d.sched.runs.foldl (fun d r => d.stopRun r.q r.tag true) d).renumber
  let d := (d.mcs.map (·.1)).foldl (fun d m => d.modMc m fun x => { x with poisonSeen := false }) d
  { d with
    rst := { d.rst with cls := .function, cause := .flr }
    cxl := { d.cxl with bme := false, mse := false, msixEn := false, msixMask := false, biasJobs := [] } }

/-! ## Pins, the host, watchdogs -/

/-- MOD_RST_ASSERT (13 R346, R352): a WARM reset; with the package off after a trip, the latch is cleared if the lid reads below 90 °C. -/
def modRstAssert (d : Device) : Device :=
  if d.mod.modRst then d
  else
    let d := { d with mod := { d.mod with modRst := true } }
    if d.mod.powered then d.warmCause .modulePin
    else if d.mod.trip && decide (d.mod.lid < 90) then { d with mod := { d.mod with trip := false } }
    else d

def execModRstAssert (s : State) : Host.Outcome State Fault Refusal := run modRstAssert s

/-- The package leaves reset when both pins are released (13 R352); after a COLD reset FAULT# is released then (13 R353). -/
def Device.releasePins (d : Device) : Device :=
  let held := d.rst.held && d.pinsHeld
  { d with rst := { d.rst with held := held }, mod := { d.mod with faultPin := d.mod.faultPin && (held || decide (d.rst.cls ≠ .cold)) } }

def modRstRelease (d : Device) : Device := ({ d with mod := { d.mod with modRst := false } }).releasePins

/-- MOD_RST_RELEASE (13 R352). -/
def execModRstRelease (s : State) : Host.Outcome State Fault Refusal := run modRstRelease s

/-- PERST_ASSERT (13 R352, 15 R393). -/
def perstAssert (d : Device) : Device :=
  if d.mod.perst then d
  else
    let d := { d with mod := { d.mod with perst := true } }
    if d.mod.powered then d.warmCause .cxlPerst else d

def execPerstAssert (s : State) : Host.Outcome State Fault Refusal := run perstAssert s

def perstRelease (d : Device) : Device := ({ d with mod := { d.mod with perst := false } }).releasePins

/-- PERST_RELEASE (13 R352). -/
def execPerstRelease (s : State) : Host.Outcome State Fault Refusal := run perstRelease s

/-- CXL_HOT_RESET (15 R393). -/
def cxlHotReset (d : Device) : Device := if d.cxl.up then d.warmCause .cxlHotReset else d

def execCxlHotReset (s : State) : Host.Outcome State Fault Refusal := run cxlHotReset s

/-- Configuration requests are answered: the link is up, and the die managers run (15 R393). -/
def Device.configServed (d : Device) : Bool := d.cxl.up && decide (d.rst.st ≠ .reset)

/-- CXL_RESET (15 R393): the host's request comes by configuration space. -/
def cxlReset (d : Device) : Device := if d.configServed && d.cxl.cxlMode then d.warmCause .cxlReset else d

def execCxlReset (s : State) : Host.Outcome State Fault Refusal := run cxlReset s

/-- FLR (15 R393, 08 R227): the host's request comes by configuration space. -/
def flr (d : Device) : Device := if d.configServed then d.functionReset else d

def execFlr (s : State) : Host.Outcome State Fault Refusal := run flr s

/-- DM_WATCHDOG: the die manager of die k misses its watchdog (13 R347). -/
def dmWatchdog (k : Nat) (d : Device) : Device := if has d.boot.dms k then d.warmCause .watchdog else d

def execDmWatchdog (k : Nat) (s : State) : Host.Outcome State Fault Refusal := runUnit (decide (k < nDies)) (dmWatchdog k) s

/-- PLL_LOCK_LOSS: the root PLL of die k loses lock (13 R336). -/
def pllLockLoss (k : Nat) (d : Device) : Device :=
  if has d.pwr.pll k then ({ d with pwr := { d.pwr with pll := delNat k d.pwr.pll } }).warmCause .watchdog else d

def execPllLockLoss (k : Nat) (s : State) : Host.Outcome State Fault Refusal := runUnit (decide (k < nDies)) (pllLockLoss k) s

/-- PLL_RELOCK: it locks again, and the die's controllers enter self-refresh (13 R336). A cold start locks every PLL itself (14 R356). -/
def pllRelock (k : Nat) (d : Device) : Device :=
  if has d.pwr.pll k || !d.boot.warm then d
  else (upFrom (24 * k) 24).foldl Device.mcWarm { d with pwr := { d.pwr with pll := insNat k d.pwr.pll } }

def execPllRelock (k : Nat) (s : State) : Host.Outcome State Fault Refusal := runUnit (decide (k < nDies)) (pllRelock k) s

/-- A SECURITY reset (17 R439, 13 R351): COLD. -/
def Device.securityReset (d : Device) : Device := d.coldReset .security

/-- GLITCH_DETECT: the glitch detector or watchdog of a core fires (17 R439). -/
def glitchDetect (d : Device) : Device := if d.mod.powered then d.securityReset else d

def execGlitchDetect (k : Nat) (s : State) : Host.Outcome State Fault Refusal := runUnit (decide (k < nDies)) glitchDetect s

/-! ## RESET_WARM -/

/-- Fetching stops, and every RUN is settled as if an ABORT had arrived (08 R205). -/
def Device.settle (d : Device) : Device := ({ d with host := { d.host with fetchStopped := true } }).abortAll

/-- RESET_WARM is carried out when no other command is outstanding but those whose completions are held; until then it stays QUEUED (08 R205). -/
def resetWarmBody (c : Cmd) (d : Device) : Device :=
  let d := d.settle
  if d.host.inflight.all (fun e => (e.q == c.q && e.tag == c.tag) || e.held.isSome) then (d.finish c (cplOf .success)).warmCause .swWarm else d

/-- The word that RESET_WARM must carry (08 R205). -/
def resetWarmBad (c : Cmd) (_ : Device) : Option Nat := firstBad [(fld (c.pw 1) 0 32 != 0x57525354, 8)]

/-- RESET_WARM (08 R205). -/
def execResetWarm (q g : Nat) (s : State) : Host.Outcome State Fault Refusal :=
  runCmd 0x04 anyKind (fun _ => [bits [(0, 32)]]) resetWarmBad resetWarmBody q g s

/-! ## Power -/

/-- Power leaves the package; the next start records a cause (13 R346, 18 R447, R448). -/
def Device.powerOff (cause : ResetCause) (d : Device) : Device :=
  (({ d with mod := { d.mod with powered := false, nextCause := cause } }).coldReset cause)

/-- THERMTRIP: a junction of die k reaches 115 °C (13 R346). -/
def thermtrip (d : Device) : Device :=
  if d.mod.powered then (let d := d.powerOff .thermalTrip; { d with mod := { d.mod with trip := true, ocRetry := false } }) else d

def execThermtrip (k : Nat) (s : State) : Host.Outcome State Fault Refusal := runUnit (decide (k < nDies)) thermtrip s

/-- LID_SENSOR_READ (13 R346): on the standby supply. -/
def lidSensorRead (temp : Nat) (d : Device) : Device := if d.mod.input then { d with mod := { d.mod with lid := temp } } else d

def execLidSensorRead (temp : Nat) (s : State) : Host.Outcome State Fault Refusal := run (lidSensorRead temp) s

/-- BROWNOUT: the input or a package rail is low for long enough (13 R347). -/
def brownout (d : Device) : Device := if d.mod.powered then d.powerOff .brownout else d

def execBrownout (s : State) : Host.Outcome State Fault Refusal := run brownout s

/-- EN_BREAK: the switch opens (18 R447). -/
def enBreak (d : Device) : Device :=
  if d.mod.en then
    let d := if d.mod.powered then d.powerOff .powerOn else d
    { d with mod := { d.mod with en := false } }
  else d

def execEnBreak (s : State) : Host.Outcome State Fault Refusal := run enBreak s

/-- INPUT_UP: the input reaches 39 V with EN mated (18 R447): the standby supply starts, both latches are clear, and the start records POWER_ON. -/
def inputUp (d : Device) : Device :=
  if d.mod.powered then d
  else { d with mod := { d.mod with
    ticks := 0, input := true, en := true, trip := false, ocLatch := false, ocTimes := [], ocRetry := false, nextCause := .powerOn } }

def execInputUp (s : State) : Host.Outcome State Fault Refusal := run inputUp s

/-- The address of the management target for a setting of the straps (18 R453). -/
def smbAddress (straps : BitVec 2) : BitVec 7 := 0x58 + straps.setWidth 7

/-- POWER_GOOD: the last rail is in regulation, and the cold start begins (18 R447, 14 R356). The straps are sampled (18 R453), and whether REFCLK carries a
clock (15 R381), which is a free value. -/
def powerGood (d : Device) : Device :=
  let m := d.mod
  if m.powered || !m.input || !m.en || m.trip || m.ocLatch || m.ocRetry then d
  else
    let r := d.fresh 1
    ({ r.2 with mod := { m with powered := true, nextCause := .powerOn, smbAddr := smbAddress m.straps, refclk := r.1 == 1 } }).coldReset m.nextCause

def execPowerGood (s : State) : Host.Outcome State Fault Refusal := run powerGood s

/-- OVERCURRENT (18 R448): the switch opens; the third one within 60 s latches it, otherwise the power-up is repeated after 1 s. -/
def overcurrent (d : Device) : Device :=
  if d.mod.powered then
    let times := d.mod.ticks :: d.mod.ocTimes.filter (fun t => decide (d.mod.ticks ≤ t + 6000000000))
    let d := d.powerOff .brownout
    let latch := decide (3 ≤ times.length)
    { d with mod := { d.mod with ocTimes := times, ocLatch := latch, ocRetry := !latch } }
  else d

def execOvercurrent (s : State) : Host.Outcome State Fault Refusal := run overcurrent s

/-- OVERCURRENT_RETRY: 1 s later the power-up is repeated (18 R448). -/
def overcurrentRetry (d : Device) : Device := { d with mod := { d.mod with ocRetry := false } }

def execOvercurrentRetry (s : State) : Host.Outcome State Fault Refusal := run overcurrentRetry s

end Sys2Proof.Machine
end

