-- ==== Sys2Proof/Machine/Sec.lean ====
section
/-! DEFINITION. The security cores' services: the measurement log (17 R435, R436), attestation (R437), certificates (R428), staging and activating
firmware (R433), the version fuses (R434), and debug unlock with its JTAG session (R438). -/

namespace Sys2Proof.Machine

/-! ## The measurement log (17 R435, R436) -/

/-- The 96 bytes of an entry. -/
def Meas.entry (m : Meas) (index : Nat) : List Byte :=
  leBytes 4 index ++ [m.kind, m.die] ++ leBytes 2 m.flags.toNat ++ leBytes 8 m.version.toNat ++ leBytes 8 m.build.toNat ++ leBytes 8 m.detail.toNat ++
  m.digest

/-- LD0's core appends an entry: the first 4,096 are retained, every one advances the chain. -/
def Sec.append (s : Sec) (m : Meas) : Sec :=
  let e := m.entry s.count
  { s with log := if s.log.length < 4096 then s.log ++ [e] else s.log, count := s.count + 1, chain := Config.shake256 (s.chain ++ e) 64 }

/-- MEASUREMENT_APPEND (17 R435): the entry that reached the core first; a completion that waited for it is posted after it. -/
def measurementAppend (d : Device) : Device :=
  match d.sec.inbox with
  | [] => d
  | m :: rest =>
    let d := { d with sec := { d.sec.append m with inbox := rest } }
    match m.cause, m.andThen with
    | some (q, g), some p => d.complete q g p
    | _, _ => d

def execMeasurementAppend (s : State) : Host.Outcome State Fault Refusal := run measurementAppend s

def getMeasurementsBody (c : Cmd) (d : Device) : Device :=
  let l := (d.sec.log.drop (fld (c.pw 2) 0 16)).take (fld (c.pw 2) 16 16)
  d.output c 8 (c.pw 1) l.flatten (cpl .success (BitVec.ofNat 64 l.length) (BitVec.ofNat 64 d.sec.count) 0)

/-- GET_MEASUREMENTS (17 R436). -/
def execGetMeasurements (q g : Nat) (s : State) : Host.Outcome State Fault Refusal :=
  runCmd 0x51 anyKind (fun c => [addrBits (c.pw 1), bits [(0, 32)]]) noBad getMeasurementsBody q g s

/-! ## Attestation and certificates (17 R428, R437) -/

/-- A list cut or filled with zeros to n bytes. -/
def fitBytes (n : Nat) (l : List Byte) : List Byte := (l ++ List.replicate n 0).take n

/-- Report bytes 0x000-0x0FF. -/
def Device.reportHead (d : Device) (nonce : List Byte) : List Byte :=
  let s := d.sec
  let flags := b2n s.opened + 2 * b2n (!d.fuses.ownerHash.isEmpty) + 4 * b2n (!d.fuses.ownerAes.isEmpty) + 8 * b2n (decide (d.derated ≠ .success)) +
    16 * b2n (decide (4096 < s.count))
  leBytes 4 0xAE17A77E ++ leBytes 2 1 ++ leBytes 2 flags ++ leBytes 8 d.fuses.serial.toNat ++ leBytes 2 d.fuses.variant.toNat ++ [d.fuses.stepping] ++
  leBytes 1 d.svc ++ leBytes 4 s.fwVersion.toNat ++ leBytes 4 s.count ++ leBytes 4 0 ++ fitBytes 32 nonce ++ s.chain ++ fitBytes 32 d.fuses.ownerHash ++
  Config.shake256 d.deviceCert 32 ++ leBytes 8 (d.time 0).toNat ++ List.replicate 56 0

/-- The 1,536-byte report; its signature is randomised. -/
def Device.report (d : Device) (nonce : List Byte) : List Byte × Device :=
  let h := d.reportHead nonce
  (h ++ Config.falconSign d.free (signedMsg lblRpt h), { d with free := d.free + 1 })

def attestBody (c : Cmd) (d : Device) : Device :=
  if !d.sec.identity then d.finish c (cplOf .authFailed)
  else
    let r := d.report ((upFrom 2 4).flatMap fun i => leBytes 8 (c.pw i).toNat)
    r.2.output c 8 (c.pw 1) r.1 (cpl .success 1536 0 0)

/-- ATTEST (17 R437). -/
def execAttest (q g : Nat) (s : State) : Host.Outcome State Fault Refusal :=
  runCmd 0x50 anyKind (fun c => [addrBits (c.pw 1), allBits, allBits, allBits, allBits]) noBad attestBody q g s

def getCertBody (c : Cmd) (d : Device) : Device :=
  let i := fld (c.pw 2) 0 4
  if 1024 * fld (c.pw 2) 16 16 < 3200 then d.finish c (cpl .success 0 3200 0)
  else d.output c 8 (c.pw 1) (d.cert i) (cpl .success 3200 3200 0)

/-- GET_CERT (17 R428). -/
def execGetCert (q g : Nat) (s : State) : Host.Outcome State Fault Refusal :=
  runCmd 0x52 anyKind (fun c => [addrBits (c.pw 1), bits [(0, 4), (16, 16)]])
    (fun c _ => firstBad [(decide (4 < fld (c.pw 2) 0 4), 16)]) getCertBody q g s

/-! ## Firmware (17 R433, R434) -/

/-- The certificates in force, as they stood before, written to a slot. -/
def Device.writeCerts (d : Device) (b : Bool) (l : List (Nat × List Byte)) : Device :=
  l.foldl (fun d e => d.flashWrite (slotBase b + certOffset e.1) e.2) d

/-- An image written to a slot, with the certificates in force (log entry 47), into sectors erased first (18 R451). -/
def Device.stage (d : Device) (b : Bool) (img : List Byte) : Device :=
  let certs := [0, 3, 4].map fun role => (role, d.slotCert d.certSlot role)
  ((d.flashErase (slotBase b) (fwOffset + img.length)).writeCerts b certs).flashWrite (slotBase b + fwOffset) img

def fwStageBody (c : Cmd) (d : Device) : Device :=
  let b := bitAt (c.pw 3) 0
  if has d.sec.fwOk 0 && has d.sec.slotB 0 == b then d.finish c (cplOf .busy)
  else
    match d.readImage true (d.slotKey d.certSlot 3) (c.pw 1) (fld (c.pw 2) 0 32) with
    | (.error p, d) => d.finish c p
    | (.ok img, d) => (d.stage b img).finish c (cplOf .success)

/-- FW_STAGE (17 R433). -/
def execFwStage (q g : Nat) (s : State) : Host.Outcome State Fault Refusal :=
  runCmd 0x53 anyKind (fun c => [addrBits (c.pw 1), bits [(0, 32)], bits [(0, 1)]])
    (fun c d => firstBad [(decide (d.rst.st = .diagHold) && !isHost (c.pw 1), 8)]) fwStageBody q g s

/-- With NOW = 1 the device goes on as RESET_WARM does, once this completion is posted (08 R216): fetching stops, RUNs are settled, and the WARM
reset begins when no other command is outstanding. -/
def Device.resetNow (d : Device) : Device :=
  let d := d.settle
  if d.host.inflight.all (fun e => e.held.isSome) then d.warmCause .swWarm else { d with rst := { d.rst with pending := true } }

def fwActivateBody (c : Cmd) (d : Device) : Device :=
  let b := bitAt (c.pw 1) 0
  match d.slotImage b with
  | .error .invalidParam => d.finish c (cplStruct 7 0)
  | .error st => d.finish c (cplOf st)
  | .ok _ =>
    let d := (d.writeSelector b).finish c (cplOf .success)
    if bitAt (c.pw 1) 8 then d.resetNow else d

/-- FW_ACTIVATE (17 R433). -/
def execFwActivate (q g : Nat) (s : State) : Host.Outcome State Fault Refusal :=
  runCmd 0x54 anyKind (fun _ => [bits [(0, 1), (8, 1)]]) noBad fwActivateBody q g s

/-- SVC_FUSE_BLOW (17 R434): one more bit blown and verified; a bit whose verification fails is blown again. -/
def svcFuseBlow (ok : Bool) (d : Device) : Device :=
  if d.sec.blowing then
    let target := min d.sec.fuseSvn.toNat 64
    let d := if ok && decide (d.svc < target) then
        let b := BitVec.ofNat 64 (2 ^ d.svc)
        { d with fuses := { d.fuses with
          svcBits := d.fuses.svcBits ||| b, secCopies := d.fuses.secCopies.map fun (f : SecFuses) => { f with svc := f.svc ||| b } } }
      else d
    if target ≤ d.svc then { d with sec := { d.sec with blowing := false } } else d
  else d

def execSvcFuseBlow (ok : Bool) (s : State) : Host.Outcome State Fault Refusal := run (svcFuseBlow ok) s

/-! ## Debug unlock (17 R438) -/

/-- A fresh challenge for the command of queue q with tag g. -/
def Device.giveChallenge (d : Device) (q g : Nat) : Device :=
  let r := d.fresh 128
  let l := leBytes 16 r.1.toNat
  ({ r.2 with sec := { r.2.sec with challenge := some l } }).complete q g
    (cpl .success (BitVec.ofNat 64 (leAt l 0 8)) (BitVec.ofNat 64 (leAt l 8 8)) 0)

/-- OP 0: while the delay after failed tokens runs, one request is held, and later ones stay QUEUED. -/
def debugChallengeBody (c : Cmd) (d : Device) : Device :=
  if !d.sec.delay then d.giveChallenge c.q c.tag.toNat
  else if d.sec.heldReq.isSome then d
  else ({ d with sec := { d.sec with heldReq := some (c.q, c.tag.toNat) } }).running c

def debugOp (c : Cmd) : Bool := bitAt (c.pw 1) 0

/-- DEBUG_UNLOCK, OP 0. -/
def execDebugChallenge (q g : Nat) (s : State) : Host.Outcome State Fault Refusal :=
  runCmd 0x55 (fun c => !debugOp c) (fun _ => [bits [(0, 1)]]) noBad debugChallengeBody q g s

/-- The keys that verify a token of a CLASS; other values are reserved. -/
def Device.tokenKeys (d : Device) (cls : Nat) : List (List Byte) :=
  if cls = 1 then (if d.ownerKey.isEmpty then d.slotKey d.certSlot 4 else d.ownerKey)
  else if cls = 2 then d.slotKey d.certSlot 3
  else []

/-- A token is valid: its challenge, serial, class, reserved bytes and signature. -/
def Device.tokenOk (d : Device) (t : List Byte) : Bool :=
  d.sec.challenge == some (t.take 16) && leAt t 0x10 8 == d.fuses.serial.toNat && zeros t 0x19 39 &&
  (d.tokenKeys (leAt t 0x18 1)).any fun k => sigOk k lblDbg (t.take 64) (t.drop 64)

def debugResponseBody (c : Cmd) (d : Device) : Device :=
  if d.farRange (c.pw 2) 1344 then d.finish c (cplOf .notReady)
  else
    match d.addrRead (!d.sec.recovery) (c.pw 2) 1344 with
    | (.success, t, d) =>
      if d.tokenOk t then
        let d := { d with sec := { d.sec with challenge := none, failures := 0, session := leAt t 0x18 1, opened := true } }
        (d.measure 9 0 0 [] 0 (Config.shake256 (t.take 64) 64) (some (c.q, c.tag.toNat))).completeAfter c.q c.tag.toNat (cplOf .success)
      else
        ({ d with sec := { d.sec with challenge := none, failures := d.sec.failures + 1, delay := true } }).finish c (cplOf .authFailed)
    | (st, _, d) => d.finish c (cplAns st 16)

/-- DEBUG_UNLOCK, OP 1. -/
def execDebugResponse (q g : Nat) (s : State) : Host.Outcome State Fault Refusal :=
  runCmd 0x55 debugOp (fun c => [bits [(0, 1)], addrBits (c.pw 2), bits [(0, 16)]])
    (fun c _ => firstBad [(fld (c.pw 3) 0 16 != 1344, 24)]) debugResponseBody q g s

/-- CHALLENGE_LAPSE: 60 s have passed. -/
def challengeLapse (d : Device) : Device := { d with sec := { d.sec with challenge := none } }

def execChallengeLapse (s : State) : Host.Outcome State Fault Refusal := run challengeLapse s

/-- CHALLENGE_DELAY_EXPIRY: the delay of 2^min(n, 6) s after n failed tokens has passed, and a held request is served. -/
def challengeDelayExpiry (d : Device) : Device :=
  if d.sec.delay then
    let d' := { d with sec := { d.sec with delay := false, heldReq := none } }
    match d.sec.heldReq with
    | some (q, g) => d'.giveChallenge q g
    | none => d'
  else d

def execChallengeDelayExpiry (s : State) : Host.Outcome State Fault Refusal := run challengeDelayExpiry s

/-- What a JTAG access is answered with: a register of unit control, read-only (01 R23); outside it, INVALID_PARAM (log entry 48). -/
def Device.jtagRead (d : Device) (a : Nat) : Status × Word :=
  match placeOf a with
  | .unit k off => if off % 8 = 0 then (.success, d.ctlRead k off) else (.invalidParam, 0)
  | _ => (.invalidParam, 0)

/-- A field of 32 bytes may be fused: a PROVISION session, not provisioned yet, and not all zero. -/
def Device.mayFuse (d : Device) (old l : List Byte) : Bool :=
  d.sec.session == 2 && old.isEmpty && decide (l.length = 32) && l.any (· != 0)

/-- JTAG_REQUEST (17 R425, R438). -/
def jtagRequest (op : JtagOp) (d : Device) : Device :=
  if d.sec.session = 0 then d
  else
    match op with
    | .read a => { d with sec := { d.sec with jtag := some (d.jtagRead a.toNat) } }
    | .write a _ => { d with sec := { d.sec with jtag := some ((d.jtagRead a.toNat).1, 0) } }
    | .fuseOwnerHash l =>
      if d.mayFuse d.fuses.ownerHash l then
        { d with fuses := { d.fuses with
          ownerHash := l
          secCopies := d.fuses.secCopies.map fun (f : SecFuses) => { f with owner := BitVec.ofNat 256 (leNat l), ownerCrc := crc32c l } } }
      else d
    | .fuseOwnerAes l =>
      if d.mayFuse d.fuses.ownerAes l then
        { d with fuses := { d.fuses with
          ownerAes := l
          secCopies := d.fuses.secCopies.map fun (f : SecFuses) => { f with aes := BitVec.ofNat 256 (leNat l), aesCrc := crc32c l } } }
      else d

def execJtagRequest (op : JtagOp) (s : State) : Host.Outcome State Fault Refusal := run (jtagRequest op) s

end Sys2Proof.Machine
end

