-- ==== Sys2Proof/Machine/Cxl.lean ====
section
/-! DEFINITION. The CXL port (15): the link and its modes (R382, R394), bus-master enable and device power (R384, R385), DOE (R386), the device
coherency cache and coherence of host-bias lines (R387, R389), the HDM decoder and CXL.mem (R388-R391). -/

namespace Sys2Proof.Machine

/-! ## The link -/

/-- The port's place on the package network. -/
def cxlPort : PortId := ⟨cxlRouter, 1⟩

/-- The port can train: the package is powered, and PERST# and the module reset are released. -/
def Device.cxlAlive (d : Device) : Bool := d.mod.powered && !d.rst.held && !d.mod.perst

/-- Rate in tenths of GT/s. -/
def rateTenths : CxlRate → Nat
  | .g2_5 => 25 | .g8 => 80 | .g16 => 160 | .g32 => 320

/-- The link returns after a surprise removal (08 R228, 15 R394): configuration space, the HDM decoder and bias stand at their reset values, and
HOST_LINK_LOST reports the counts. -/
def Device.linkReturns (d : Device) : Device :=
  let c := d.cxl
  if c.lost then
    { d with cxl := { c with
        lost := false, discarded := 0, heldTokens := 0, bme := false, mse := false, msixEn := false, msixMask := false, d3 := false
        hdm := false, hdmErr := false, hdmBase := 0, hdmSize := 0, hdmWays := 0, hdmGran := 0, devBias := [], doe := none
        resetDone := false } }.raise 0x28 (BitVec.ofNat 64 c.discarded) (BitVec.ofNat 64 c.heldTokens)
  else d

/-- CXL_LINK_L0: the link enters L0 from Detect at a rate and width, which fixes its mode (15 R381, R382); a retrain keeps it. It runs on the module's own
clock by the boot configuration, or where REFCLK carried no clock at power good. -/
def cxlLinkL0 (allThree : Bool) (rate : CxlRate) (lanes : Nat) (d : Device) : Device :=
  if d.cxl.up || !d.cxlAlive || !has [1, 2, 4, 8, 16] lanes then d
  else
    { d with cxl := { d.cxl with
        up := true, rate := rate, lanes := lanes, sris := d.boot.refclk == 1 || !d.mod.refclk
        cxlMode := allThree && decide (80 ≤ rateTenths rate) && decide (4 ≤ lanes) } }.linkReturns

def execCxlLinkL0 (allThree : Bool) (rate : CxlRate) (lanes : Nat) (s : State) : Host.Outcome State Fault Refusal :=
  run (cxlLinkL0 allThree rate lanes) s

/-- The accesses of a router that wait for a line's coherence: the line is resolved, or every line. -/
def Device.resolveAt (d : Device) (line : Option Nat) (r : Nat) : Device :=
  let w := (d.router r).coher.map fun e => (e.1, match line with | some l => delNat l e.2 | none => [])
  let d := d.modRouter r fun x => { x with coher := w.filter (fun e => !e.2.isEmpty) }
  (w.filter (fun e => e.2.isEmpty)).foldl (fun d e => d.toInbox ⟨r, 0⟩ e.1) d

def Device.resolve (d : Device) (line : Option Nat) : Device := (d.routers.map (·.1)).foldl (fun d r => d.resolveAt line r) d

/-- A queue with a ring in host memory stops (08 R228). -/
def Device.stopHostQueue (d : Device) (q : Nat) : Device :=
  let x := d.queue q
  if x.st = .active ∧ (isHost x.sqBase ∨ isHost x.cqBase) then
    d.setQueue q { x with st := .stopped, error := BitVec.ofNat 8 Status.internal.code }
  else d

/-- CXL_LINK_DOWN: a surprise loss (08 R228, 15 R394): fetching stops, queues with a ring in host memory stop, held completions are discarded and
counted. No host copy of a line is left to wait for, and BIAS_SETs under way end. -/
def cxlLinkDown (d : Device) : Device :=
  if d.cxl.up then
    let d := { d with
      cxl := { d.cxl with up := false, lost := true, dcc := [], rxbuf := [], panic := false, asked := [], owned := [] }
      host := { d.host with fetchStopped := true } }
    ((((List.range nQueues).foldl Device.stopHostQueue d).releaseHeldCpls).biasAll).resolve none
  else d

def execCxlLinkDown (s : State) : Host.Outcome State Fault Refusal := run cxlLinkDown s

/-! ## Configuration space -/

/-- What configuration space holds for good: the identifiers, the windows and the capabilities' constants (15 R384, R392). -/
structure CxlIds where
  vendor : BitVec 16
  device : BitVec 16
  classCode : BitVec 24
  bar0 : Nat
  bar2 : Nat
  vectors : Nat
  msixTable : Nat
  msixPba : Nat
  memActiveTimeoutMs : Nat
  deriving DecidableEq, Repr

/-- The function's constants: device 0xAE17 on every variant, class 0x120000; BAR0 of 16 MiB and BAR2 of 64 KiB, 64-bit and non-prefetchable; MSI-X with 64
vectors; Memory_Active_Timeout of 4 s. -/
def cxlIds : CxlIds := ⟨Config.vendorId, 0xAE17, 0x120000, 0x1000000, 0x10000, 64, 0x200000, 0x201000, 4000⟩

/-- Memory_Active, whether the media are in error, and Memory_Active_Timeout in ms, in the DVSEC for CXL devices (15 R392). -/
def Device.memoryInfo (d : Device) : Bool × Bool × Nat := (d.cxl.memActive, d.cxl.mediaErr, cxlIds.memActiveTimeoutMs)

/-- Host-bound traffic may resume: held completions and records are posted in the order in which they arose, and pending vectors send their messages. -/
def Device.resumeHost (d : Device) : Device :=
  if d.hostUp then
    (List.range 64).foldl (fun d v => if bitAt d.host.msix.pba v && d.msiOpen v then d.msi v else d) d.releaseHeldCpls
  else d

/-- BUS_MASTER_ENABLE: the host writes the enables of memory space, bus mastering and MSI-X, and MSI-X's function mask (15 R384). -/
def busMasterEnable (on : CxlEnables) (d : Device) : Device :=
  if d.configServed then
    ({ d with cxl := { d.cxl with mse := on.mem, bme := on.bus, msixEn := on.msix, msixMask := on.msixMask } }).resumeHost
  else d

def execBusMasterEnable (on : CxlEnables) (s : State) : Host.Outcome State Fault Refusal := run (busMasterEnable on) s

/-- D_STATE_CHANGE (15 R385). -/
def dStateChange (d3 : Bool) (d : Device) : Device :=
  if d.configServed then ({ d with cxl := { d.cxl with d3 := d3 } }).resumeHost else d

def execDStateChange (d3 : Bool) (s : State) : Host.Outcome State Fault Refusal := run (dStateChange d3) s

/-- HDM_COMMIT (15 R388): the decoder's registers are written and committed; one that breaks the limits leaves the decoder uncommitted. -/
def hdmCommit (base ways gran size skip : Nat) (d : Device) : Device :=
  if d.configServed && d.cxl.cxlMode then
    let ok := has [1, 2, 4, 8] ways && has [256, 512, 1024, 2048, 4096, 8192, 16384] gran && size == 8 * d.variant.dram && skip == 0
    { d with cxl := { d.cxl with hdm := ok, hdmErr := !ok, hdmBase := base, hdmSize := size, hdmWays := ways, hdmGran := gran } }
  else d

def execHdmCommit (ways gran : Nat) (size : HdmSpan) (skip : Nat) (s : State) : Host.Outcome State Fault Refusal :=
  run (hdmCommit size.base ways gran size.size skip) s

/-- The device physical address of a host address: its chunk among this device's, and its place in the chunk (15 R388; log entry 119). -/
def Cxl.decode (c : Cxl) (addr : Nat) : Option Nat :=
  if c.hdm ∧ c.hdmBase ≤ addr then
    let off := addr - c.hdmBase
    let h := off / (c.hdmGran * c.hdmWays) * c.hdmGran + off % c.hdmGran
    if h < c.hdmSize then some h else none
  else none

/-- One DSLBIS entry: a latency in ns or a bandwidth in GB/s (15 R386; the layout is CDAT's, log entry 120). -/
def dslbis (kind value : Nat) : List Byte :=
  [1, 0] ++ leBytes 2 24 ++ [0, 0] ++ leBytes 1 kind ++ [0] ++ leBytes 8 1000 ++ leBytes 2 value ++ leBytes 6 0

/-- CDAT (15 R386): one DSMAS entry for the whole HDM range, volatile, and four DSLBIS entries. -/
def cdat (rate : CxlRate) (lanes size : Nat) : List Byte :=
  let v := fun (i stated : Nat) => if rate = .g32 ∧ lanes = 16 then stated else Config.cdatValue (rateTenths rate) lanes i
  let body := [0, 0] ++ leBytes 2 24 ++ [0, 0] ++ leBytes 2 0 ++ leBytes 8 0 ++ leBytes 8 size ++
    dslbis 1 (v 0 260) ++ dslbis 2 (v 1 220) ++ dslbis 4 (v 2 56) ++ dslbis 5 (v 3 56)
  let head := fun (sum : Nat) => leBytes 4 (16 + body.length) ++ [1] ++ leBytes 1 sum ++ leBytes 6 0 ++ leBytes 4 0
  let total := ((head 0 ++ body).map (·.toNat)).sum
  head (256 - total % 256) ++ body

/-- Bytes of the HDM range: none in PCIe mode (15 R382). -/
def Device.hdmRange (d : Device) : Nat := if d.cxl.cxlMode then 8 * d.variant.dram else 0

/-- DOE_REQUEST (15 R386): 0 discovery, 1 CDAT, 2 the attestation report with the caller's nonce; any other type is answered with the error bit,
and so is a report that cannot be signed. -/
def doeRequest (kind : Nat) (nonce : List Byte) (d : Device) : Device :=
  if !d.configServed then d
  else
    let put := fun (d : Device) (e : Bool) (l : List Byte) => { d with cxl := { d.cxl with doe := some (e, l) } }
    match kind with
    | 0 => put d false Config.doeDiscovery
    | 1 => put d false (cdat d.cxl.rate d.cxl.lanes d.hdmRange)
    | 2 =>
      if d.sec.identity then
        let r := d.report nonce
        put r.2 false r.1
      else put d true []
    | _ => put d true []

def execDoeRequest (kind : Nat) (nonce : List Byte) (s : State) : Host.Outcome State Fault Refusal := run (doeRequest kind nonce) s

/-! ## CXL.cache (15 R387, R389) -/

/-- HOST_SNOOP: a held line is invalidated. -/
def hostSnoop (addr : Nat) (d : Device) : Device :=
  if d.cxl.up && d.cxl.cxlMode then { d with cxl := { d.cxl with dcc := d.cxl.dcc.filter fun e => e.1 != addr / 64 } } else d

def execHostSnoop (addr : Nat) (s : State) : Host.Outcome State Fault Refusal := run (hostSnoop addr) s

/-- The host has given up a line: what waited for it may go on, and the BIAS_SET that asked for it takes its next one (15 R389, R390). -/
def Device.lineGiven (d : Device) (line : Nat) : Device :=
  let c := d.cxl
  let c := if has c.asked line then { c with asked := delNat line c.asked, owned := insNat line c.owned } else c
  (({ d with cxl := c }).biasStep line).resolve (some line)

/-- CXL_CACHE_RESPONSE: with 64 bytes, what the host's line holds when the device reads it; with none, coherence of the host-bias line at internal
address addr is resolved (15 R389). -/
def cxlCacheResponse (addr : Nat) (data : List Byte) (d : Device) : Device :=
  if d.cxl.up && d.cxl.cxlMode then
    if data.isEmpty then d.lineGiven (addr / 64)
    else if data.length = 64 then { d with hostMem := d.hostMem.write (64 * (addr / 64)) data }
    else d
  else d

def execCxlCacheResponse (addr : Nat) (data : List Byte) (s : State) : Host.Outcome State Fault Refusal := run (cxlCacheResponse addr data) s

/-! ## CXL.mem (15 R388-R391) -/

/-- PANIC is asserted above 192 requests, released below 128, and otherwise kept. -/
def Cxl.watch (c : Cxl) : Cxl :=
  let n := c.rxbuf.length
  { c with panic := if 192 < n then true else if n < 128 then false else c.panic }

/-- Where a request of the host goes: none while the decoder is uncommitted, the segment serves no data yet, or a WARM reset has begun and
Memory_Active is not set (15 R388, R393). -/
def Device.memTarget (d : Device) (addr : Nat) : Option Nat :=
  match d.cxl.decode addr with
  | some h =>
    (match d.hdm h with
     | some a => if has d.boot.serving (a / 0x1000000000) && !d.cxl.warming then some a else none
     | none => none)
  | none => none

/-- A request enters the receive buffer under a packet number: a read's TXID, or a write's SUB. -/
def Cxl.take (c : Cxl) (write : Bool) (num : BitVec 16) (h : Nat) : Cxl :=
  ({ c with rxbuf := c.rxbuf ++ [(write, num, h)], nextTx := if write then c.nextTx else c.nextTx + 1 } : Cxl).watch

/-- A SUB under which no write of the buffer waits. -/
def Cxl.freeSub (c : Cxl) : Option Nat := (List.range 64).find? fun i => !c.rxbuf.any fun e => e.1 && e.2.1 == BitVec.ofNat 16 i

/-- CXL_MEM_READ: the host reads 64 bytes; what serves no data answers poison (15 R388). With the buffer full the host waits. The host may cache the line
from then on (15 R389). -/
def cxlMemRead (h : Nat) (d : Device) : Device :=
  let c := d.cxl
  if !c.up || !c.cxlMode then d
  else
    match d.memTarget (h / 64 * 64) with
    | none => { d with cxl := { c with memOut := some (true, poisonData (h / 64 * 64) 64) } }
    | some a =>
      if 256 ≤ c.rxbuf.length then d
      else
        let c' := { c.take false c.nextTx h with owned := delNat (a / 64) c.owned }
        ({ d with cxl := c' }).sendTo cxlPort (some a) (mkRead c'.panic cxlPort c.nextTx a 64)

def execCxlMemRead (h : Nat) (s : State) : Host.Outcome State Fault Refusal := run (cxlMemRead h) s

/-- CXL_MEM_WRITE: the host writes 64 bytes; where no data is served the write is discarded. With the buffer full, or no SUB free, the host waits. -/
def cxlMemWrite (h : Nat) (data : List Byte) (d : Device) : Device :=
  let c := d.cxl
  if !c.up || !c.cxlMode then d
  else
    match d.memTarget (h / 64 * 64) with
    | none => d
    | some a =>
      match (if 256 ≤ c.rxbuf.length then none else c.freeSub) with
      | none => d
      | some sub =>
        let c' := c.take true (BitVec.ofNat 16 sub) h
        let hi := a % 128 / 64
        let line := fitBytes 64 data
        let z := List.replicate 64 (0 : Byte)
        ({ d with cxl := c' }).sendTo cxlPort (some a)
          (mkWriteM c'.panic cxlPort sub (a / 128 * 128) (if hi = 0 then line ++ z else z ++ line)
            (BitVec.ofNat 128 ((2 ^ 64 - 1) <<< (64 * hi))))

def execCxlMemWrite (h : Nat) (data : List Byte) (s : State) : Host.Outcome State Fault Refusal := run (cxlMemWrite h data) s

end Sys2Proof.Machine
end

