-- ==== Sys2Proof/Machine/Cell.lean ====
section
/-! DEFINITION. What the fabric's cells, tufts, columns and block RAMs do at a clock edge (11 R279-R284). Which signal is routed where, and every
configuration bit of a tuft but its TABLE bits, is in image bits that the spec leaves to Ghepor (12 R304): no command steps user logic, so these
functions say what its elements do, and a region's state holds what can be seen of them (log entry 41). -/

namespace Sys2Proof.Machine

/-! ## Cells (11 R279) -/

/-- MODE of a cell; the value 3 is reserved. -/
inductive CellMode where
  | logic | arith | shift
  deriving DecidableEq, Repr

/-- MODE of its two bits. -/
def CellMode.ofCode : Nat → Option CellMode
  | 0 => some .logic
  | 1 => some .arith
  | 2 => some .shift
  | _ => none

/-- The configuration of a cell; its TABLE is part of its state, for a shift register changes it. -/
structure CellCfg where
  /-- DSRC: the flip-flop takes DIN in place of F -/
  dsrc : Bool
  /-- CTLSET: control set 1 in place of 0 -/
  ctlset : Bool
  gsrLevel : Bool
  srLevel : Bool
  mode : CellMode
  /-- CHAIN of a shift-register cell -/
  chain : Bool
  deriving DecidableEq, Repr

/-- The routed inputs of a cell. -/
structure CellIn where
  t0 : Bool
  t1 : Bool
  t2 : Bool
  t3 : Bool
  din : Bool
  deriving DecidableEq, Repr

/-- What a cell holds: TABLE[15:0], and S of its flip-flop. -/
structure CellSt where
  table : BitVec 16
  s : Bool
  deriving DecidableEq, Repr

/-- F of a cell in logic mode, and the tap of a shift register: the table bit at T3..T0 (11 R279, R281). -/
def lutF (table : BitVec 16) (t3 t2 t1 t0 : Bool) : Bool := bitAt table (8 * b2n t3 + 4 * b2n t2 + 2 * b2n t1 + b2n t0)

/-- A cell in arithmetic mode: the sum, which replaces F, and the carry out (11 R282). -/
def cellAdd (table : BitVec 16) (t2 t1 t0 ci : Bool) : Bool × Bool :=
  let i := 4 * b2n t2 + 2 * b2n t1 + b2n t0
  let g := bitAt table i
  let p := bitAt table (8 + i)
  (p ^^ ci, g || (p && ci))

/-- A cell's table output and the carry it hands on; a cell outside arithmetic mode takes no part in the chain and hands on 0 (log entry 41). -/
def cellOut (c : CellCfg) (x : CellSt) (i : CellIn) (ci : Bool) : Bool × Bool :=
  match c.mode with
  | .arith => cellAdd x.table i.t2 i.t1 i.t0 ci
  | _ => (lutF x.table i.t3 i.t2 i.t1 i.t0, false)

/-! ## Control sets (11 R280) -/

/-- A clock line of a region (11 R287). -/
inductive ClockLine where
  | fclk | half | quarter | lclk
  deriving DecidableEq, Repr

/-- A control set's configuration: its clock line, whether the clock is inverted, and SRTIME (SR acts at the active edge). -/
structure CtlCfg where
  line : ClockLine
  invert : Bool
  srTime : Bool
  deriving DecidableEq, Repr

/-- The levels of a control set's CE and SR, each a routed signal or a constant. -/
structure CtlIn where
  ce : Bool
  sr : Bool
  deriving DecidableEq, Repr

/-- An edge of a clock line: the line, and whether it rises. -/
structure Edge where
  line : ClockLine
  rise : Bool
  deriving DecidableEq, Repr

/-- The edge is a control set's active one: the rising edge, or with the clock inverted the falling one. -/
def CtlCfg.active (c : CtlCfg) (e : Edge) : Bool := decide (e.line = c.line) && (e.rise != c.invert)

/-- S after a moment in which the control set's active edge comes or not (11 R280): global set/reset sets GSRLEVEL whatever CE and SR are; SR gives
SRLEVEL, at once or at the edge, whatever CE is, and wins over a load; else the edge loads D while CE is 1. -/
def ffNext (c : CellCfg) (k : CtlCfg) (i : CtlIn) (gsr edge : Bool) (s d : Bool) : Bool :=
  if gsr then c.gsrLevel
  else if i.sr && (edge || !k.srTime) then c.srLevel
  else if edge && i.ce then d
  else s

/-! ## Tufts (11 R281, R282) -/

/-- A tuft's configuration: 8 cells and two control sets. -/
structure TuftCfg where
  cells : List CellCfg
  set0 : CtlCfg
  set1 : CtlCfg
  deriving DecidableEq, Repr

/-- A tuft's inputs: those of its cells, the levels of its control sets, and the selects of SEL6 (two, high first) and SEL7. -/
structure TuftIn where
  cells : List CellIn
  set0 : CtlIn
  set1 : CtlIn
  s6 : Bool × Bool
  s7 : Bool
  deriving DecidableEq, Repr

/-- The cells' table outputs, cell 0 first, and the carry out of the last. -/
def carryChain : Bool → List (CellCfg × CellSt × CellIn) → List Bool × Bool
  | ci, [] => ([], ci)
  | ci, (c, x, i) :: r =>
    let o := cellOut c x i ci
    let q := carryChain o.2 r
    (o.1 :: q.1, q.2)

/-- Where the first tuft of a chain takes its carry in. -/
inductive CarrySrc where
  | zero | one | routed
  deriving DecidableEq, Repr

def CarrySrc.level (c : CarrySrc) (routed : Bool) : Bool :=
  match c with
  | .zero => false
  | .one => true
  | .routed => routed

/-- SEL6 over the F outputs of four cells, and SEL7 over two SEL6 outputs (11 R282). -/
def sel6 (f0 f1 f2 f3 s1 s0 : Bool) : Bool := if s1 then (if s0 then f3 else f2) else (if s0 then f1 else f0)
def sel7 (a b s : Bool) : Bool := if s then b else a

/-- The cells of a tuft with their state and inputs. -/
def tuftCells (c : TuftCfg) (x : List CellSt) (i : TuftIn) : List (CellCfg × CellSt × CellIn) :=
  (c.cells.zip (x.zip i.cells)).map fun e => (e.1, e.2.1, e.2.2)

/-- The 19 outputs of a tuft: F of its cells, S of its cells, SEL6 of cells 0-3, SEL6 of cells 4-7, SEL7; and its carry out. -/
def tuftOut (c : TuftCfg) (x : List CellSt) (i : TuftIn) (ci : Bool) : List Bool × Bool :=
  let o := carryChain ci (tuftCells c x i)
  let f := fun n => o.1.getD n false
  let lo := sel6 (f 0) (f 1) (f 2) (f 3) i.s6.1 i.s6.2
  let hi := sel6 (f 4) (f 5) (f 6) (f 7) i.s6.1 i.s6.2
  (o.1 ++ x.map (·.s) ++ [lo, hi, sel7 lo hi i.s7], o.2)

/-- One shift: bit 0 takes the input, bit i takes bit i - 1 (11 R281). -/
def srShift (table : BitVec 16) (input : Bool) : BitVec 16 := (table <<< 1) ||| BitVec.ofNat 16 (b2n input)

/-- The shift input of a cell: DIN, or with CHAIN set bit 15 of the cell before it (11 R281). -/
def srInput (c : CellCfg) (i : CellIn) (before : Bool) : Bool := if c.chain then before else i.din

/-- The cells of a tuft after an edge. A shift-register cell shifts on control set 1 while writes are enabled (12 R315); every flip-flop follows the control
set its CTLSET names. The carry in and bit 15 of the cell below the first one are given. -/
def tuftEdge (c : TuftCfg) (i : TuftIn) (e : Edge) (gsr writes : Bool) : Bool → Bool → List (CellCfg × CellSt × CellIn) → List CellSt
  | _, _, [] => []
  | ci, before, (k, x, v) :: r =>
    let o := cellOut k x v ci
    let set := if k.ctlset then (c.set1, i.set1) else (c.set0, i.set0)
    let d := if k.dsrc then v.din else o.1
    let shifts := decide (k.mode = .shift) && writes && c.set1.active e && i.set1.ce
    { table := if shifts then srShift x.table (srInput k v before) else x.table
      s := ffNext k set.1 set.2 gsr (set.1.active e) x.s d } :: tuftEdge c i e gsr writes o.2 (bitAt x.table 15) r

/-- A tuft of a column: its configuration, its cells and its inputs. -/
abbrev Tuft := TuftCfg × List CellSt × TuftIn

/-- A column of tufts from its bottom row after an edge: carries run upward from tuft to tuft, and so do shift registers (11 R281, R282). -/
def columnEdge (e : Edge) (gsr writes : Bool) : Bool → Bool → List Tuft → List (List CellSt)
  | _, _, [] => []
  | ci, before, (c, x, i) :: r =>
    tuftEdge c i e gsr writes ci before (tuftCells c x i) ::
      columnEdge e gsr writes (tuftOut c x i ci).2 (((x.getLast?).map fun y => bitAt y.table 15).getD false) r

/-- Rows of a region: a carry chain is at most 160 tufts, 1,280 bits, and a shift register at most 160 tufts, 20,480 bits (11 R281, R282). -/
def regionRows : Nat := 160

/-- A chained cell's source is itself a shift register, and none lies below the bottom row (11 R281). -/
def chainsOk : Option CellMode → List CellCfg → Bool
  | _, [] => true
  | below, c :: r => (!c.chain || decide (below = some .shift)) && chainsOk (some c.mode) r

/-- A column keeps the limits of its region. -/
def columnOk (l : List TuftCfg) : Bool := decide (l.length ≤ regionRows) && chainsOk none (l.flatMap (·.cells))

/-! ## Block RAM (11 R283, 12 R305) -/

/-- The views of a block RAM port. -/
inductive RamView where
  | w1 | w2 | w4 | w9 | w18 | w36 | w72
  deriving DecidableEq, Repr

/-- Bits of one word of a view, and the number of its words. -/
def RamView.width : RamView → Nat
  | .w1 => 1 | .w2 => 2 | .w4 => 4 | .w9 => 9 | .w18 => 18 | .w36 => 36 | .w72 => 72
def RamView.depth : RamView → Nat
  | .w1 => 32768 | .w2 => 16384 | .w4 => 8192 | .w9 => 4096 | .w18 => 2048 | .w36 => 1024 | .w72 => 512

/-- Where bit b of lane n of the array lies in the RAM's 36,864 bits, which run in the W36 view: a word is four lanes, their data bits first, then their tag
bits (12 R305). Lane n is lane n mod 8 of row n / 8; bits 0 to 7 of a lane are data, bit 8 its tag. -/
def laneBit (n b : Nat) : Nat := 36 * (n / 4) + (if b < 8 then 8 * (n % 4) + b else 32 + n % 4)

/-- Lanes of a word of W9 and wider views. -/
def RamView.lanes (v : RamView) : Nat := v.width / 9

/-- The RAM bits of a word of a view, bit 0 of the word first: data bits in order, then the lanes' tag bits (log entry 41). -/
def RamView.bitsOf (v : RamView) (word : Nat) : List Nat :=
  if v.width < 9 then (upFrom (v.width * word) v.width).map fun b => laneBit (b / 8) (b % 8)
  else
    let l := upFrom (v.lanes * word) v.lanes
    (l.flatMap fun n => (List.range 8).map (laneBit n)) ++ l.map fun n => laneBit n 8

/-- The frame index and the bit in it of bit j of block RAM b of a region (12 R305). -/
def ramFrameBit (b j : Nat) : Nat × Nat := (9 * b + j / 4096, j % 4096)

/-- The word of a view, in a RAM given by its bits. -/
def ramWord (v : RamView) (ram : Nat → Bool) (word : Nat) : List Bool := (v.bitsOf word).map ram

/-- The lane within the word of bit i of it. -/
def RamView.laneOf (v : RamView) (i : Nat) : Nat := if v.width < 9 then 0 else if i < 8 * v.lanes then i / 8 else i - 8 * v.lanes

/-- The RAM after a write of a word: the bits of enabled lanes take the data, every other bit stays. -/
def ramWrite (v : RamView) (ram : Nat → Bool) (word : Nat) (data lanes : List Bool) (j : Nat) : Bool :=
  match (v.bitsOf word).findIdx? (fun b => b == j) with
  | some i => if lanes.getD (v.laneOf i) false then data.getD i (ram j) else ram j
  | none => ram j

/-- Views the two ports may combine: W1 to W36 freely; W72 is a pair in which port A writes rows and port B reads them. -/
def ramPairOk (a b : RamView) : Bool := decide (a = .w72) == decide (b = .w72)

/-- What a block RAM port shows while it writes. -/
inductive RamShow where
  | new | old | hold
  deriving DecidableEq, Repr

/-- The read output of a port that writes: the new word, the old one, or what it showed before. -/
def ramOutput {α : Type} (m : RamShow) (new old before : α) : α :=
  match m with
  | .new => new
  | .old => old
  | .hold => before

/-- A port's outputs after one of its clock cycles: what the array gave, and what it shows, one cycle later where the output register is enabled. -/
def ramLatency {α : Type} (reg : Bool) (latched got : α) : α × α := (got, if reg then latched else got)

/-- A row read in the paired use with SECDED: its 64 data bits, FIXED and FAILED. Which check the 8 tag bits are is the RAM's own code, one that corrects
every single-bit error (log entry 41); the array itself keeps what it holds. -/
def ramSecded (data : Word) (tags : Byte) : Word × Bool × Bool :=
  if Config.ramCheck data = tags then (data, false, false)
  else if (List.range 8).any (fun i => Config.ramCheck data == tags ^^^ BitVec.ofNat 8 (2 ^ i)) then (data, true, false)
  else
    match (List.range 64).find? (fun i => Config.ramCheck (data ^^^ BitVec.ofNat 64 (2 ^ i)) == tags) with
    | some i => (data ^^^ BitVec.ofNat 64 (2 ^ i), true, false)
    | none => (data, false, true)

/-! ## Two accesses to one word (11 R284) -/

/-- Both ports write on one edge of one clock line: the word holds A's data; on different lines, within 1 ns, each bit holds A's value or B's, as pick says. -/
def ramWriteWrite (oneLine : Bool) (pick a b : List Bool) : List Bool :=
  if oneLine then a else (pick.zip (a.zip b)).map fun e => if e.1 then e.2.1 else e.2.2

/-- One port writes while the other reads: the read returns the old word; on different lines, within 1 ns, each bit read is the old or the new value. -/
def ramWriteRead (oneLine : Bool) (pick old new : List Bool) : List Bool :=
  if oneLine then old else (pick.zip (new.zip old)).map fun e => if e.1 then e.2.1 else e.2.2

end Sys2Proof.Machine
end

