-- ==== Sys2Proof/Machine/Fabric.lean ====
section
/-! DEFINITION. The fabric ports (11 R292-R298), isolation (11 R290, R296), SLEEP_OK and WAKE (11 R291), and the DLLs (11 R287). -/

namespace Sys2Proof.Machine

/-! ## Isolation -/

/-- The ports of a region, as keys 2*router + 1 (11 R298). -/
def regionPorts (g : Nat) : List Nat :=
  let k := g / 9
  if g % 9 = 8 then [fportKey k 16, fportKey k 17] else [fportKey k (2 * (g % 9)), fportKey k (2 * (g % 9) + 1)]

/-- The port of a key. -/
def portOfKey (n : Nat) : PortId := ⟨n / 2, n % 2⟩

/-- The first entry of a list that satisfies f leaves it. -/
def dropFirst {α : Type} (f : α → Bool) (l : List α) : List α :=
  match takeFirst f l with
  | some (_, r) => r
  | none => l

/-- What stays of a port's initiator requests when isolation engages: those in the network, whose answers will be discarded. A refused HOP that waits to be
retried and a WRITE that has not been sent are not in it (11 R296). -/
def FPort.cutOff (x : FPort) : List IqEntry :=
  (x.iq.filter fun e => match e.num with
    | some k => !x.retries.contains k
    | none => false).map fun e => { e with live := false }

/-- Isolation engages at a port (11 R296): outstanding target requests are answered NOT_READY, and nothing is offered to user logic any more. -/
def Device.isolatePort (d : Device) (n : Nat) : Device :=
  let x := d.fport n
  let d := d.setFport n { x with iq := x.cutOff, partial_ := [], retries := [], tq := [], lateTags := [], tqOut := [], irOut := [] }
  x.tq.foldl (fun d q => d.portAnswer (portOfKey n) q.pkt .notReady) d

/-- What the static region sees of a patch through the isolation cells: each one's fixed level, or the last value where it is HOLD (11 R289). The patch's outputs
are its image's: free values of the border channel, and the level of SLEEP_OK. -/
def Region.isoValue (x : Region) (out : BitVec 256) : BitVec 257 :=
  let last := BitVec.ofNat 257 (out.toNat + 2 ^ 256 * b2n x.sleepOk)
  (last &&& x.isoHold) ||| (x.isoLevel &&& ~~~ x.isoHold)

/-- The isolation cells take a value. -/
def Region.hold (x : Region) (v : BitVec 257) : Region := { x with isolated := true, border := v, sleepOk := v.getLsbD 256 }

/-- Isolation engages on a region (11 R289, R290); cells engaged already keep what they hold. -/
def Device.isolate (d : Device) (g : Nat) : Device :=
  let x := d.region g
  let d :=
    if x.isolated then d
    else if g % 9 = 8 then d.setRegion g { x with isolated := true }
    else
      let r := d.fresh 256
      r.2.setRegion g (x.hold (x.isoValue r.1))
  (regionPorts g).foldl Device.isolatePort d

/-! ## What user logic accepts (11 R292) -/

/-- The TAG that a beat on IR frees (11 R293). -/
def IrBeat.frees : IrBeat → Option (BitVec 8)
  | .data t _ _ last => if last then some t else none
  | .done t _ => some t
  | .hop t _ _ _ => some t

/-- The TTAG of a beat on TQ. -/
def TqBeat.ttag : TqBeat → Option (BitVec 6)
  | .read t _ _ => some t
  | .write t _ _ _ _ => some t
  | .writem t _ _ _ => some t
  | .mcast _ _ => none

/-- User logic accepts the oldest beat on IR; with its LAST beat a request is over. -/
def FPort.takeIr (x : FPort) : FPort :=
  match x.irOut with
  | [] => x
  | b :: r => { x with
    irOut := r, irTaken := b :: x.irTaken
    iq := match b.frees with
      | some t => dropFirst (fun e => e.live && e.answered && e.tag == t) x.iq
      | none => x.iq }

/-- User logic accepts the oldest beat on TQ. -/
def FPort.takeTq (x : FPort) : FPort :=
  match x.tqOut with
  | [] => x
  | b :: r => { x with tqOut := r, tqTaken := b :: x.tqTaken }

/-- The beats accepted since the port's last event; one that is not offered cannot be. -/
def FPort.accept (x : FPort) (acc : Accepted) : FPort :=
  let y := (List.range (min acc.ir x.irOut.length)).foldl (fun x _ => FPort.takeIr x) x
  (List.range (min acc.tq y.tqOut.length)).foldl (fun x _ => FPort.takeTq x) y

/-! ## Initiator side (11 R293) -/

/-- Beats are offered on IR. -/
def Device.irOffer (d : Device) (n : Nat) (l : List IrBeat) : Device := d.setFport n { d.fport n with irOut := (d.fport n).irOut ++ l }

/-- The beats of a READ's answer: ⌈bytes/128⌉, the last one with LAST. -/
def irReadBeats (tag : BitVec 8) (st : Nat) (data : List Byte) : List IrBeat :=
  let l := flitsOf data
  l.zipIdx.map fun e => .data tag (BitVec.ofNat 8 st) e.1 (e.2 + 1 == l.length)

/-- A request answered at once, not sent. -/
def Device.irRefuse (d : Device) (n : Nat) (b : IqBeat) : Device :=
  let x := d.fport n
  (d.setFport n { x with iq := x.iq ++ [⟨b.tag, b, none, [], true, true⟩] }).irOffer n [.done b.tag (BitVec.ofNat 8 Status.invalidParam.code)]

/-- A READ keeps the shape of R234. -/
def iqReadOk (b : IqBeat) : Bool :=
  let a := b.addr.toNat
  a % 64 == 0 && decide (a / 512 = (a + 64 * (b.len.toNat + 1) - 1) / 512)

/-- A WRITE of so many beats keeps the shape of R293. -/
def iqWriteOk (b : IqBeat) (beats : Nat) : Bool :=
  let a := b.addr.toNat
  a % 128 == 0 && decide (beats ≤ 4) && beats == b.len.toNat + 1 && decide (a / 512 = (a + 128 * beats - 1) / 512)

/-- SPECV passes for this port (11 R294): a static region has no SPEC_AWARE bit. -/
def Device.specvOk (d : Device) : UnitAt → Bool
  | .patch p _ => d.specAware p
  | _ => false

/-- WRITE or WRITEM. -/
def IqEntry.isWrite (e : IqEntry) : Bool := e.beat.op == 1 || e.beat.op == 2

/-- A TXID for a request: its TAG in the low bits, and above it a number that no request in the network has (09 R234). -/
def FPort.freeTxid (x : FPort) (tag : BitVec 8) : BitVec 16 :=
  BitVec.ofNat 16 (((List.range 256).find? fun n => !x.iq.any (fun e => !e.isWrite && e.num == some (BitVec.ofNat 16 (tag.toNat + 256 * n)))).getD 0 * 256 + tag.toNat)

/-- A SUB that no WRITE or WRITEM in the network has (09 R234). -/
def FPort.freeSub (x : FPort) : Option Nat := (List.range 64).find? fun k => !x.iq.any (fun e => e.isWrite && e.num == some (BitVec.ofNat 16 k))

/-- An outstanding request is entered under its TAG. -/
def Device.iqOpen (d : Device) (n : Nat) (b : IqBeat) (num : Option (BitVec 16)) (bytes : List Byte) : Device :=
  let x := d.fport n
  d.setFport n { x with iq := x.iq ++ [⟨b.tag, b, num, bytes, true, false⟩] }

/-- The oldest WRITE or WRITEM not sent yet goes out, if a SUB is free: 64 may be in the network at once (09 R234). -/
def Device.portWrite (d : Device) (n : Nat) : Device :=
  let x := d.fport n
  match x.iq.find? (fun e => e.live && e.isWrite && !e.answered && e.num.isNone), x.freeSub with
  | some e, some k =>
    let src := portOfKey n
    let a := e.beat.addr.toNat
    (d.setFport n { x with iq := x.iq.map fun y => if y.live && y.tag == e.tag then { y with num := some (BitVec.ofNat 16 k), bytes := [] } else y }).sendTo src (some a)
      (if e.beat.op = 1 then mkWrite false src k a e.bytes else mkWriteM false src k a e.bytes e.beat.mask)
  | _, _ => d

/-- The HOP of a beat (11 R294). -/
def iqHop (b : IqBeat) (src : PortId) (txid : BitVec 16) (specv : Bool) : Packet :=
  let op := (QOp.ofCode b.hopop.toNat).getD .push
  let p := mkHop false src txid ⟨op, b.queue.toNat, b.count.toNat, b.entry, b.seq, b.epoch, b.specv && specv, .net 0⟩
  { p with pay := [setFld (p.pay.headD 0) 0 8 b.hopop.toNat] }

/-- A beat taken on IQ (11 R293, R294): a beat of a WRITE that is not its last is kept; with its last one the request is sent. -/
def Device.iqTaken (d : Device) (n : Nat) (u : UnitAt) (b : IqBeat) : Device :=
  let src := portOfKey n
  let x := d.fport n
  match b.op.toNat with
  | 0 =>
    let tx := x.freeTxid b.tag
    if iqReadOk b then (d.iqOpen n b (some tx) []).sendTo src (some b.addr.toNat) (mkRead false src tx b.addr.toNat (64 * (b.len.toNat + 1)))
    else d.irRefuse n b
  | 1 =>
    if !b.last then d.setFport n { x with partial_ := x.partial_ ++ [b] }
    else
      let beats := x.partial_ ++ [b]
      let first := beats.headD b
      let d := d.setFport n { x with partial_ := [] }
      if iqWriteOk first beats.length then (d.iqOpen n first none (beats.flatMap fun (y : IqBeat) => leBytes 128 y.data.toNat)).portWrite n
      else d.irRefuse n first
  | 2 =>
    if b.addr.toNat % 128 = 0 ∧ b.last then (d.iqOpen n b none (leBytes 128 b.data.toNat)).portWrite n else d.irRefuse n b
  | _ =>
    let tx := x.freeTxid b.tag
    (d.iqOpen n b (some tx) []).send src (iqHop b src tx (d.specvOk u))

/-- A beat of user logic on IQ (11 R293): READY is 0 while its TAG is outstanding. -/
def iqRequest (r lp : Nat) (b : IqBeat) (acc : Accepted) (d : Device) : Device :=
  let u := unitAt r lp
  let n := 2 * r + lp
  if d.regionLive (regionAt u) && d.awake u then
    let d := d.setFport n ((d.fport n).accept acc)
    if (d.fport n).iq.any (fun e => e.live && e.tag == b.tag) then d else d.iqTaken n u b
  else d

/-- The unit of a local port is a fabric port. -/
def isFabricPort (r lp : Nat) : Bool :=
  match unitAt r lp with
  | .patch _ _ => true
  | .static _ _ => true
  | _ => false

/-- IQ_REQUEST (11 R293). -/
def execIqRequest (r lp : Nat) (b : IqEvent) (s : State) : Host.Outcome State Fault Refusal :=
  runUnit (decide (r < nRouters) && isFabricPort r lp) (iqRequest r lp b.beat b.acc) s

/-! ## Target side (11 R295) -/

/-- A status user logic may answer with; any other value becomes POISON. -/
def trStatus (st : BitVec 8) : Nat :=
  if st = 0x00 ∨ st = 0x11 ∨ st = 0x12 ∨ st = 0x20 ∨ st = 0x22 then st.toNat else Status.poison.code

/-- The answer of user logic is whole: it goes out (11 R295). -/
def Device.tgtAnswer (d : Device) (at_ : PortId) (q : TReq) : Device :=
  let p := q.pkt
  let code := (q.bad.map (·.toNat)).getD 0
  if p.type == tREAD then
    d.send at_ (mkRdResp p.hdr at_ code (if code = 0 then (bytesOf q.beats).take p.readLen else poisonData p.readAddr p.readLen))
  else d.send at_ (mkWrAck p.hdr at_ code)

/-- A target request leaves the port: beats of it not accepted yet are withdrawn. -/
def FPort.dropTarget (x : FPort) (ttag : BitVec 6) : FPort :=
  { x with tq := x.tq.filter (fun y => y.ttag != ttag), tqOut := x.tqOut.filter fun b => b.ttag != some ttag }

/-- A beat of user logic on TR: the answer goes out with its last beat; one with a TTAG that is not outstanding is discarded, and counted with its last
beat (11 R295). -/
def trResponse (r lp : Nat) (b : TrBeat) (acc : Accepted) (d : Device) : Device :=
  let u := unitAt r lp
  let n := 2 * r + lp
  if d.regionLive (regionAt u) && d.awake u then
    let x := (d.fport n).accept acc
    match x.tq.find? (fun q => q.ttag == b.ttag) with
    | none => d.setFport n (if b.last then { x with late := x.late.incReg, lateTags := dropFirst (· == b.ttag) x.lateTags } else x)
    | some q =>
      let st := trStatus b.status
      let q' := { q with beats := q.beats ++ [b.data], bad := if q.bad.isSome || st == 0 then q.bad else some (BitVec.ofNat 8 st) }
      if q'.beats.length < q'.need then d.setFport n { x with tq := x.tq.map fun y => if y.ttag = b.ttag then q' else y }
      else (d.setFport n (x.dropTarget b.ttag)).tgtAnswer ⟨r, lp⟩ q'
  else d

/-- TR_RESPONSE (11 R295). -/
def execTrResponse (r lp : Nat) (b : TrEvent) (s : State) : Host.Outcome State Fault Refusal :=
  runUnit (decide (r < nRouters) && isFabricPort r lp) (trResponse r lp b.beat b.acc) s

/-- A target request has not been answered within TGT_TIMEOUT (11 R295): the port answers it. Where user logic has accepted any of it, its TTAG stays taken
for the answer that may still come. -/
def tgtTimeout (r lp : Nat) (ttag : BitVec 6) (acc : Accepted) (d : Device) : Device :=
  let u := unitAt r lp
  let n := 2 * r + lp
  let x := if d.regionLive (regionAt u) && d.awake u then (d.fport n).accept acc else d.fport n
  match x.tq.find? (fun q => q.ttag == ttag) with
  | none => d.setFport n x
  | some q =>
    let seen := (x.tqOut.filter fun b => b.ttag == some ttag).length < (q.pkt.tqBeats ttag 0).length
    (d.setFport n { x.dropTarget ttag with
      timeouts := x.timeouts.incReg, lateTags := if seen then x.lateTags ++ [ttag] else x.lateTags }).portAnswer ⟨r, lp⟩ q.pkt .timeout

/-- TGT_TIMEOUT (11 R295). -/
def execTgtTimeout (r lp : Nat) (b : TtagEvent) (s : State) : Host.Outcome State Fault Refusal :=
  runUnit (decide (r < nRouters) && isFabricPort r lp) (tgtTimeout r lp b.ttag b.acc) s

/-! ## SLEEP_OK, WAKE, DLL -/

/-- The region of patch p. -/
def patchRegion (p : Nat) : Nat := 9 * (p / 8) + p % 8

/-- SLEEP_OK_CHANGE: port A of a region drives a level (11 R291); a fall while a patch is ordered into DAMP keeps it in RUN. -/
def sleepOkChange (g : Nat) (level : Bool) (d : Device) : Device :=
  if d.regionLive g then
    let d := d.modRegion g fun x => { x with sleepOk := level }
    let k := domPatch (8 * (g / 9) + g % 9)
    if !level && g % 9 != 8 && decide (d.dom k = .enterDamp) then d.setDom k .run else d
  else d

def execSleepOkChange (g : Nat) (level : Bool) (s : State) : Host.Outcome State Fault Refusal :=
  runUnit (decide (g < 72)) (sleepOkChange g level) s

/-- PATCH_WAKE: the static region drives WAKE to patch p, which wakes it from DAMP (11 R291). -/
def patchWake (p : Nat) (d : Device) : Device :=
  let k := domPatch p
  if d.regionLive (9 * (p / 8) + 8) && (decide (d.dom k = .damp) || decide (d.dom k = .enterDamp)) then d.wakeDom k else d

def execPatchWake (p : Nat) (s : State) : Host.Outcome State Fault Refusal := runUnit (decide (p < 64)) (patchWake p) s

/-- DLL_LOCK: the DLL of a started region reports lock (11 R287). -/
def dllLock (g : Nat) (d : Device) : Device :=
  let x := d.region g
  if x.st = .starting ∨ x.st = .active then d.setRegion g { x with lock := true } else d

def execDllLock (g : Nat) (s : State) : Host.Outcome State Fault Refusal := runUnit (decide (g < 72)) (dllLock g) s

/-- DLL_LOCK_LOSS: its clock lines stop, isolation engages, the loss is counted; only a new start-up releases the outputs again (11 R287). -/
def dllLockLoss (g : Nat) (d : Device) : Device :=
  if (d.region g).lock then
    let d := (d.modRegion g fun x => { x with lock := false }).isolate g
    (regionPorts g).foldl (fun d n => d.setFport n { d.fport n with lockLoss := (d.fport n).lockLoss.incReg }) d
  else d

def execDllLockLoss (g : Nat) (s : State) : Host.Outcome State Fault Refusal := runUnit (decide (g < 72)) (dllLockLoss g) s

end Sys2Proof.Machine
end

