-- ==== Sys2Proof/Machine/Answers.lean ====
section
/-! DEFINITION. Answers of the network taken by their requesters: RDRESP, WRACK and HRESP at frond attachments, fabric ports and the CXL port
(09 R234, 11 R293, 15 R389), the retry of a refused queue operation (06 R154), and the return of a weight cache fill (06 R145, R148). -/

namespace Sys2Proof.Machine

/-! ## Fabric ports (11 R293, R296) -/

/-- The answer to the request of port n that satisfies f: its beats are offered on IR, and it stays outstanding until user logic has accepted them; that of a
request isolation has cut off is discarded. Its number in the network is free again. -/
def Device.iqAnswer (d : Device) (n : Nat) (f : IqEntry → Bool) (beats : IqEntry → List IrBeat) : Device :=
  let x := d.fport n
  match takeFirst (fun e => !e.answered && f e) x.iq with
  | none => d
  | some (e, rest) =>
    if e.live then
      (d.setFport n { x with iq := x.iq.map fun y => if y.live && y.tag == e.tag then { y with answered := true, num := none } else y }).irOffer n (beats e)
    else d.setFport n { x with iq := rest }

/-- The request in the network under a TXID, or under a SUB. -/
def IqEntry.under (e : IqEntry) (write : Bool) (num : Nat) : Bool := e.isWrite == write && e.num == some (BitVec.ofNat 16 num)

/-- A read answer: its beats go to user logic. -/
def Device.portRead (d : Device) (n : Nat) (p : Packet) : Device :=
  d.iqAnswer n (fun e => e.beat.op == 0 && e.under false p.txid.toNat) fun e => irReadBeats e.tag p.status (p.bytes.take (64 * (e.beat.len.toNat + 1)))

/-- A write acknowledgement: one beat without data. A write that waited for a SUB goes out. -/
def Device.portAck (d : Device) (n : Nat) (p : Packet) : Device :=
  (d.iqAnswer n (fun e => e.under true p.sub) fun e => [.done e.tag (BitVec.ofNat 8 p.status)]).portWrite n

/-- The answer to a HOP: one beat, or a retry by the port itself where it was REFUSED. -/
def Device.portHresp (d : Device) (n : Nat) (p : Packet) : Device :=
  let f := fun (e : IqEntry) => e.beat.op == 3 && e.under false p.txid.toNat
  if p.status = 0 ∧ p.result = 2 ∧ (d.fport n).iq.any (fun e => f e && e.live && !e.answered) then
    d.setFport n { d.fport n with retries := (d.fport n).retries ++ [p.txid] }
  else d.iqAnswer n f fun e => [.hop e.tag (BitVec.ofNat 8 p.status) (BitVec.ofNat 2 p.result) p.word0]

/-- The port sends its oldest refused HOP again, under the same TXID. -/
def Device.portRetry (d : Device) (r lp : Nat) : Device :=
  let n := 2 * r + lp
  let x := d.fport n
  match x.retries with
  | [] => d
  | t :: rest =>
    let d := d.setFport n { x with retries := rest }
    match x.iq.find? (fun e => e.live && e.under false t.toNat) with
    | some e => d.send ⟨r, lp⟩ (iqHop e.beat ⟨r, lp⟩ t (d.specvOk (unitAt r lp)))
    | none => d

/-! ## The CXL port (15 R389, R391) -/

/-- The answer to a request of the host leaves the receive buffer. -/
def Cxl.answered (c : Cxl) (f : Bool × BitVec 16 × Nat → Bool) : Cxl := ({ c with rxbuf := dropFirst f c.rxbuf } : Cxl).watch

/-- A read's data goes to the host; with a status it is poisoned. -/
def Device.memData (d : Device) (p : Packet) : Device :=
  if d.cxl.rxbuf.any (fun e => !e.1 && e.2.1 == p.txid) then
    let c := d.cxl.answered fun e => !e.1 && e.2.1 == p.txid
    { d with cxl := { c with memOut := some (p.status != 0, p.bytes.take 64) } }
  else d

/-- A write's acknowledgement. -/
def Device.memAck (d : Device) (p : Packet) : Device :=
  { d with cxl := d.cxl.answered fun e => e.1 && e.2.1 == BitVec.ofNat 16 p.sub }

/-! ## The events -/

/-- The answer at a frond is a fill's (06 R145). -/
def Device.isFill (d : Device) (f : Nat) (p : Packet) : Bool :=
  match Sparse.find (d.frond f).outst p.txid.toNat with
  | some (.fill _) => true
  | _ => false

/-- The unit at a local port takes its first answer of a kind, if there is one. -/
def Device.takeAnswer (d : Device) (r lp : Nat) (f : Packet → Bool) (g : Packet → Device → Device) : Device :=
  match takeFirst f (d.inboxOf ⟨r, lp⟩) with
  | none => d
  | some (p, rest) => g p (d.setInbox ⟨r, lp⟩ rest)

/-- READ_RESPONSE (09 R234): an RDRESP reaches its requester. A frond's fills return by WC_FILL_RETURN. -/
def readResponse (r lp : Nat) (d : Device) : Device :=
  match unitAt r lp with
  | .frond f => d.takeAnswer r lp (fun p => p.type == tRDRESP && !d.isFill f p) fun p d => d.frondRead f p
  | .cxl => d.takeAnswer r lp (fun p => p.type == tRDRESP) fun p d => d.memData p
  | _ => d.takeAnswer r lp (fun p => p.type == tRDRESP) fun p d => d.portRead (2 * r + lp) p

def execReadResponse (r lp : Nat) (s : State) : Host.Outcome State Fault Refusal :=
  runUnit (decide (r < nRouters) && decide (lp < 2)) (readResponse r lp) s

/-- WRITE_ACK (09 R234): a WRACK reaches its requester. -/
def writeAck (r lp : Nat) (d : Device) : Device :=
  d.takeAnswer r lp (fun p => p.type == tWRACK) fun p d =>
    match unitAt r lp with
    | .frond f => d.frondAck f p
    | .cxl => d.memAck p
    | _ => d.portAck (2 * r + lp) p

def execWriteAck (r lp : Nat) (s : State) : Host.Outcome State Fault Refusal :=
  runUnit (decide (r < nRouters) && decide (lp < 2)) (writeAck r lp) s

/-- HRESP_RECEIVE (09 R234): an HRESP reaches its requester; a stopped RUN that waited for it may complete (07 R170). -/
def hrespReceive (r lp : Nat) (d : Device) : Device :=
  (d.takeAnswer r lp (fun p => p.type == tHRESP) fun p d =>
    match unitAt r lp with
    | .frond f => d.frondHresp f p
    | _ => d.portHresp (2 * r + lp) p).checkRuns

def execHrespReceive (r lp : Nat) (s : State) : Host.Outcome State Fault Refusal :=
  runUnit (decide (r < nRouters) && decide (lp < 2)) (hrespReceive r lp) s

/-- HOP_RETRY (06 R154, 11 R293): the oldest refused operation at a local port is sent again. -/
def hopRetry (r lp : Nat) (d : Device) : Device :=
  match unitAt r lp with
  | .frond f => d.frondRetry f
  | _ => d.portRetry r lp

def execHopRetry (r lp : Nat) (s : State) : Host.Outcome State Fault Refusal :=
  runUnit (decide (r < nRouters) && decide (lp < 2)) (hopRetry r lp) s

/-- The line a fill's answer belongs to. -/
def Device.fillLine (d : Device) (f : Nat) (p : Packet) : Nat :=
  match Sparse.find (d.frond f).outst p.txid.toNat with
  | some (.fill line) => line
  | _ => 0

/-- The CACHE_INVALIDATE commands that waited for a fill of a line complete when none of theirs is pending (06 R148). -/
def Device.fillDone (d : Device) (f line : Nat) : Device :=
  let ws := (d.frond f).invals.filter fun i => i.2.2 == line
  let d := d.modFrond f fun x => { x with invals := x.invals.filter fun i => i.2.2 != line }
  ws.foldl (fun d i => if d.invalPending i.1 i.2.1 then d else (d.invalEnd i.1 i.2.1).complete i.1 i.2.1 (cplOf .success)) d

/-- WC_FILL_RETURN (06 R145, R148). -/
def wcFillReturn (f : Nat) (d : Device) : Device :=
  let at_ : PortId := ⟨frondRouter f, 0⟩
  match takeFirst (fun p => p.type == tRDRESP && d.isFill f p) (d.inboxOf at_) with
  | none => d
  | some (p, rest) => (((d.setInbox at_ rest).fillReturn f p).fillDone f (d.fillLine f p))

def execWcFillReturn (f : Nat) (s : State) : Host.Outcome State Fault Refusal := runUnit (decide (f < nFronds)) (wcFillReturn f) s

end Sys2Proof.Machine
end

