-- ==== Sys2Proof/Machine/Line.lean ====
section
/-! DEFINITION. The line coding of a link (16 R398-R403): codewords of the flit stream with their encoder and decoder, striping, scrambler, PAM4 levels, alignment
markers, filler blocks and stuffing; the line side of a transmitter, which sends one codeword at a time, and of a receiver, which takes one (log entry 102). -/

namespace Sys2Proof.Machine

/-- A pair of bits, the first the more significant, to its level, by Gray code (16 R398). -/
def pam4 (hi lo : Bool) : Nat := match hi, lo with
  | false, false => 0 | false, true => 1 | true, true => 2 | true, false => 3

/-- A level to its pair of bits. -/
def unPam4 (v : Nat) : Bool × Bool := match v with
  | 0 => (false, false) | 1 => (false, true) | 2 => (true, true) | _ => (true, false)

/-- Bits in order to levels. -/
def levelsOf : List Bool → List Nat
  | a :: b :: l => pam4 a b :: levelsOf l
  | _ => []

/-- The bits of a byte string, bit 0 of each byte first (16 R399, step 1). -/
def bitsOf (l : List Byte) : List Bool := l.flatMap fun b => (List.range 8).map fun i => b.getLsbD i

/-! Step 2: RS(544,514) over GF(2¹⁰). The field, x¹⁰ + x³ + 1, and the generator, with the roots α⁰ to α²⁹, are those of IEEE 802.3 Clause 91 (log entry 3). -/

/-- Times α in the field. -/
def rsTwice (a : Nat) : Nat := if 512 ≤ a then (2 * a) % 1024 ^^^ 9 else 2 * a

/-- A product in the field. -/
def rsMul (a b : Nat) : Nat :=
  ((List.range 10).foldl (fun (x : Nat × Nat) i => (if b.testBit i then x.1 ^^^ x.2 else x.1, rsTwice x.2)) (0, a)).1

/-- One root more: the polynomial, highest power first, times x + r. -/
def rsRoot (p : List Nat) (r : Nat) : List Nat := List.zipWith (· ^^^ ·) (p ++ [0]) (0 :: p.map (rsMul r))

/-- The generator's 30 coefficients below its leading 1, highest power first. -/
def rsGen : List Nat := (((List.range 30).foldl (fun (x : List Nat × Nat) _ => (rsRoot x.1 x.2, rsTwice x.2)) ([1], 1)).1).drop 1

/-- The parity register takes one message symbol. -/
def rsStep (reg : List Nat) (m : Nat) : List Nat :=
  let f := m ^^^ reg.headD 0
  List.zipWith (fun x g => x ^^^ rsMul f g) (reg.drop 1 ++ [0]) rsGen

/-- The codeword of 514 message symbols: the message and then its 30 parity symbols. -/
def rsEncode (msg : List Nat) : List Nat := msg ++ msg.foldl rsStep (List.replicate 30 0)

/-- A power of α. -/
def rsAlpha (n : Nat) : Nat := (List.range n).foldl (fun a _ => rsTwice a) 1

/-- The inverse of a field element other than 0: its power 1,022. -/
def rsInv (a : Nat) : Nat :=
  let x := (List.range 9).foldl (fun x _ => rsMul (rsMul x x) a) 1
  rsMul x x

/-- The value of a polynomial, highest power first. -/
def rsEval (x : Nat) (p : List Nat) : Nat := p.foldl (fun a c => rsMul a x ^^^ c) 0

/-- The 30 syndromes of received symbols: 0 for a codeword. -/
def rsSyndromes (w : List Nat) : List Nat := (List.range 30).map fun i => rsEval (rsAlpha i) w

/-- The search for the error locator: the polynomial so far, the one before its last change of length with its discrepancy, the length, and the steps since
(lowest power first). -/
structure RsSearch where
  c : List Nat
  b : List Nat
  disc : Nat
  len : Nat
  gap : Nat

/-- One syndrome more. -/
def RsSearch.step (syn : List Nat) (s : RsSearch) (n : Nat) : RsSearch :=
  let d := (List.range (s.len + 1)).foldl (fun a i => if i ≤ n then a ^^^ rsMul (s.c.getD i 0) (syn.getD (n - i) 0) else a) 0
  if d = 0 then { s with gap := s.gap + 1 }
  else
    let f := rsMul d (rsInv s.disc)
    let c := (List.range 31).map fun i => s.c.getD i 0 ^^^ (if i < s.gap then 0 else rsMul f (s.b.getD (i - s.gap) 0))
    if 2 * s.len ≤ n then ⟨c, s.c, d, n + 1 - s.len, 1⟩ else { s with c := c, gap := s.gap + 1 }

/-- The error locator of a list of syndromes, lowest power first. -/
def rsLocator (syn : List Nat) : List Nat := ((List.range 30).foldl (RsSearch.step syn) ⟨[1], [1], 1, 0, 1⟩).c

/-- The error at the place of power p, where the locator has its root; 0 elsewhere. -/
def rsErrorAt (syn loc : List Nat) (p : Nat) : Nat :=
  let y := rsAlpha ((1023 - p % 1023) % 1023)
  if rsEval y loc.reverse ≠ 0 then 0
  else
    let om := (List.range 30).map fun k => (List.range (k + 1)).foldl (fun a i => a ^^^ rsMul (loc.getD i 0) (syn.getD (k - i) 0)) 0
    let der := (List.range 30).map fun i => if i % 2 = 0 then loc.getD (i + 1) 0 else 0
    rsMul (rsAlpha (p % 1023)) (rsMul (rsEval y om.reverse) (rsInv (rsEval y der.reverse)))

/-- The receiver's correction of up to 15 symbol errors (16 R399): the codeword and how many symbols were wrong. What is found is a codeword, and differs from
what came in that many places. -/
def rsDecode (w : List Nat) : Option (List Nat × Nat) :=
  let syn := rsSyndromes w
  if syn.all (· == 0) then some (w, 0)
  else
    let loc := rsLocator syn
    let c := w.zipIdx.map fun e => e.1 ^^^ rsErrorAt syn loc (w.length - 1 - e.2)
    let n := ((w.zip c).filter fun e => e.1 != e.2).length
    if n ≤ 15 ∧ (rsSyndromes c).all (· == 0) then some (c, n) else none

/-- Step 3: codeword symbol i goes to lane i mod 8. -/
def laneSymbols {α : Type} (lane : Nat) (cw : List α) : List α := (cw.zipIdx.filter fun x => x.2 % 8 == lane).map (·.1)

/-- The bits of a lane's symbols of 10 bits, bit 0 first. -/
def symbolBits (l : List Nat) : List Bool := l.flatMap fun s => (List.range 10).map s.testBit

/-- Step 4: the scrambler's feedback bit, which is its output (16 R400). -/
def scrBit (s : BitVec 31) : Bool := s.getLsbD 30 ^^ s.getLsbD 27

/-- The scrambler advances by one data bit. -/
def scrNext (s : BitVec 31) : BitVec 31 := (s <<< 1) ||| BitVec.ofNat 31 (scrBit s).toNat

/-- What lane n's scrambler is loaded with at the end of a marker. -/
def scrLoad (n : Nat) : BitVec 31 := BitVec.ofNat 31 (0x55555550 + n)

/-- A lane's data bits scrambled, and the state after them. The receiver applies the same function. -/
def scramble (s : BitVec 31) : List Bool → List Bool × BitVec 31
  | [] => ([], s)
  | b :: l => let r := scramble (scrNext s) l; ((b ^^ scrBit s) :: r.1, r.2)

/-- The 32 bytes of a lane's alignment marker that its complement follows (16 R401). -/
def markerHalf (lane : Nat) (seq : BitVec 32) : List Byte :=
  let body := leBytes 1 lane ++ leBytes 4 seq.toNat ++ [0, 0]
  (List.replicate 4 (leBytes 4 0x3C5A96E1)).flatten ++ body ++ leBytes 4 (crc32c body).toNat ++ List.replicate 5 0

/-- The marker's 64 bytes. -/
def markerBytes (lane : Nat) (seq : BitVec 32) : List Byte := markerHalf lane seq ++ (markerHalf lane seq).map (~~~ ·)

/-- The marker's 256 symbols. -/
def markerSymbols (lane : Nat) (seq : BitVec 32) : List Nat := levelsOf (bitsOf (markerBytes lane seq))

/-- The first 16 symbols of a filler block (16 R402). -/
def fillerHead : List Nat := (List.replicate 4 [0, 0, 3, 3]).flatten

/-- A filler block, where s stuff symbols have been sent since the last one (16 R402). -/
def fillerBlock (s : Nat) : List Nat :=
  fillerHead ++ (List.range (320 - s - 32)).map (fun i => if i % 2 = 0 then 0 else 3) ++
    (List.replicate 4 [3, 3, 0, 0]).flatten

/-- The level of a stuff symbol after 24 symbols of level v (16 R403). -/
def stuffLevel (v : Nat) : Nat := if v ≤ 1 then 3 else 0

/-- The level last sent and how often in a row it has been sent, after one symbol more. -/
def runAfter (run : Nat × Nat) (v : Nat) : Nat × Nat := if run.2 != 0 && run.1 == v then (v, run.2 + 1) else (v, 1)

/-- Step 7: stuff symbols go in after every 24 equal symbols; a stuff symbol begins a run of its own. -/
def stuff (run : Nat × Nat) : List Nat → List Nat
  | [] => []
  | v :: l =>
    let r := runAfter run v
    if 24 ≤ r.2 then v :: stuffLevel v :: stuff (stuffLevel v, 1) l else v :: stuff r l

/-- The receiver drops the symbol that follows 24 equal ones; due says that the next symbol is one. -/
def unstuff (run : Nat × Nat) (due : Bool) : List Nat → List Nat
  | [] => []
  | v :: l =>
    if due then unstuff (v, 1) false l
    else
      let r := runAfter run v
      v :: unstuff r (decide (24 ≤ r.2)) l

/-- The run a lane's symbols end in, after more of them. -/
def runsAfter (run : Nat × Nat) (l : List Nat) : Nat × Nat := l.foldl runAfter run

/-! ## The transmitter -/

/-- Bits in order to a number, the first one the least significant. -/
def natOfBits (l : List Bool) : Nat := l.foldr (fun b a => b.toNat + 2 * a) 0

/-- Bits in groups of ten to symbols (16 R399). -/
def symbolsOf (l : List Bool) (n : Nat) : List Nat := (List.range n).map fun i => natOfBits ((l.drop (10 * i)).take 10)

/-- Symbols between the ends of two markers, without the marker (16 R401). -/
def markerGap : Nat := 81664

/-- A flit joins the stream. -/
def LineTx.push (t : LineTx) (f : BitVec 1184) : LineTx := { t with flits := t.flits ++ [f] }

/-- The next 5,140 bits of the flit stream, idle flits where there is nothing to send, and the stream after them (16 R399). -/
def LineTx.takeBits (idle : BitVec 1184) (t : LineTx) : List Bool × LineTx :=
  let need := t.used + 5140
  let k := (need + 1183) / 1184
  let all := t.flits ++ List.replicate (k - t.flits.length) idle
  let l := ((all.take k).flatMap fun f => (List.range 1184).map f.getLsbD).drop t.used
  (l.take 5140, { t with flits := if need % 1184 = 0 then all.drop k else all.drop (k - 1), used := need % 1184 })

/-- A filler block is due at this codeword boundary (16 R402). -/
def LineTx.fillerDue (t : LineTx) : Bool := decide (8192 ≤ t.count) || t.extra

/-- A list with a marker put in after n of its symbols. -/
def withMarker (n : Nat) (m l : List Nat) : List Nat := l.take n ++ m ++ l.drop n

/-- The symbols of lane n for one codeword, before stuffing: a filler block where one is due, the scrambled data, and a marker where its place comes; and the
scrambler after them. A filler block counts as 320 symbols on every lane, so that markers stay in one slot (log entry 102). -/
def LineTx.laneOut (t : LineTx) (n : Nat) (data : List Bool) : List Nat × BitVec 31 :=
  let m := markerSymbols n t.seq
  let fill := if t.fillerDue then fillerBlock (t.stuffed.getD n 0) else []
  let pos := t.place + (if t.fillerDue then 320 else 0)
  let s := t.scram.getD n 0
  if t.fillerDue && decide (markerGap < t.place + 320) then
    let r := scramble (scrLoad n) data
    (withMarker (markerGap - t.place) m fill ++ levelsOf r.1, r.2)
  else if markerGap < pos + 340 then
    let k := markerGap - pos
    let a := scramble s (data.take (2 * k))
    let b := scramble (scrLoad n) (data.drop (2 * k))
    (fill ++ levelsOf a.1 ++ m ++ levelsOf b.1, b.2)
  else
    let r := scramble s data
    (fill ++ levelsOf r.1, r.2)

/-- One codeword goes out on the eight lanes. -/
def LineTx.send (idle : BitVec 1184) (t : LineTx) : LineTx :=
  let b := t.takeBits idle
  let cw := rsEncode (symbolsOf b.1 514)
  let lanes := (List.range 8).map fun n => t.laneOut n (symbolBits (laneSymbols n cw))
  let outs := (List.range 8).map fun n => stuff (t.runs.getD n (0, 0)) (lanes.getD n ([], 0)).1
  let stuffed := (List.range 8).map fun n =>
    (if t.fillerDue then 0 else t.stuffed.getD n 0) + ((outs.getD n []).length - (lanes.getD n ([], 0)).1.length)
  let place := t.place + (if t.fillerDue then 320 else 0) + 340
  { b.2 with
    scram := lanes.map (·.2)
    seq := if markerGap < place then t.seq + 1 else t.seq
    place := if markerGap < place then place - markerGap else place
    count := (if 8192 ≤ t.count then 0 else t.count) + 1
    extra := stuffed.any fun s => decide (256 ≤ s)
    stuffed := stuffed
    runs := (List.range 8).map fun n => runsAfter (t.runs.getD n (0, 0)) (outs.getD n [])
    out := outs }

/-- Full coding starts anew: the stream, the places of markers and filler, and the runs. -/
def LineTx.start (t : LineTx) : LineTx :=
  { LineTx.reset with scram := t.scram, seq := t.seq }

/-! ## The receiver -/

/-- SEQ of a marker found on a lane: its SYNC, LANE, CRC, reserved bytes and complement hold (16 R401). -/
def markerSeqOf (lane : Nat) (m : BitVec 512) : Option (BitVec 32) :=
  let l := leBytes 64 m.toNat
  let s := BitVec.ofNat 32 (leNat ((l.drop 17).take 4))
  if l = markerBytes lane s then some s else none

/-- The run a lane's received symbols end in, after more of them: the one after 24 equal symbols is a stuff symbol, whatever its level. -/
def runsSeen (run : Nat × Nat) (l : List Nat) : Nat × Nat := l.foldl (fun r v => if 24 ≤ r.2 then (v, 1) else runAfter r v) run

/-- A lane's symbols without the stuff symbols (16 R403). -/
def LineRx.clean (r : LineRx) (n : Nat) (l : List Nat) : List Nat :=
  unstuff (r.runs.getD n (0, 0)) (decide (24 ≤ (r.runs.getD n (0, 0)).2)) l

/-- A filler block is due at the last codeword boundary (16 R402). -/
def LineRx.fillerDue (r : LineRx) : Bool := decide (8192 ≤ r.count) || r.extra

/-- Symbols of lane n's filler block. -/
def LineRx.fill (r : LineRx) (n : Nat) : Nat := 320 - r.stuffed.getD n 0

/-- Where in lane n's symbols a marker stands: its place counts 320 symbols of a filler block on every lane (log entry 102). -/
def LineRx.markerAt (r : LineRx) (n k : Nat) : Nat :=
  if r.fillerDue then (if k < 320 then min k (r.fill n) else r.fill n + (k - 320)) else k

/-- A lane's symbols without a marker. -/
def LineRx.unmarked (r : LineRx) (n : Nat) (l : List Nat) : List Nat :=
  match r.split with
  | none => l
  | some k => l.take (r.markerAt n k) ++ l.drop (r.markerAt n k + 256)

/-- The eight lanes' 340 symbols of a codeword: without stuff symbols, marker and filler block, which a head found whole on some lane confirms (16 R402). -/
def LineRx.data (r : LineRx) (lanes : List (List Nat)) : List (List Nat) :=
  let l := (List.range 8).map fun n => r.unmarked n (r.clean n (lanes.getD n []))
  let fill := r.fillerDue && l.any fun x => x.take 16 == fillerHead
  (List.range 8).map fun n => (((l.getD n []).drop (if fill then r.fill n else 0)) ++ List.replicate 340 0).take 340

/-- A lane's bits of a codeword descrambled, with the load at the end of a marker. -/
def LineRx.lane (r : LineRx) (n : Nat) (x : List Nat) : List Bool × BitVec 31 :=
  let l := x.flatMap fun v => [(unPam4 v).1, (unPam4 v).2]
  match r.split with
  | none => scramble (r.scram.getD n 0) l
  | some k =>
    let k := if r.fillerDue then k - 320 else k
    let b := scramble (scrLoad n) (l.drop (2 * k))
    ((scramble (r.scram.getD n 0) (l.take (2 * k))).1 ++ b.1, b.2)

/-- The codeword's 544 symbols as they arrived on the lanes (16 R399), and the descramblers after them. -/
def LineRx.word (r : LineRx) (lanes : List (List Nat)) : List Nat × List (BitVec 31) :=
  let x := r.data lanes
  let d := (List.range 8).map fun n => r.lane n (x.getD n [])
  let sym := d.map fun e => symbolsOf e.1 68
  ((List.range 544).map fun i => (sym.getD (i % 8) []).getD (i / 8) 0, d.map (·.2))

/-- Received stream bits to flits: each with whether one of its bits lies in an uncorrectable codeword; the fuel bounds the flits. -/
def LineRx.cut (bad : Bool) : Nat → LineRx → LineRx
  | 0, r => r
  | n + 1, r =>
    if r.rest.length < 1184 then r
    else
      LineRx.cut bad n { r with
        rest := r.rest.drop 1184, bad := bad
        flits := r.flits ++ [(BitVec.ofNat 1184 (natOfBits (r.rest.take 1184)), r.bad)] }

/-- What the receiver of the lanes keeps after a codeword. -/
def LineRx.passed (r : LineRx) (lanes : List (List Nat)) : LineRx :=
  let stuffed := (List.range 8).map fun n =>
    (if r.fillerDue then 0 else r.stuffed.getD n 0) + ((lanes.getD n []).length - (r.clean n (lanes.getD n [])).length)
  { r with
    scram := (r.word lanes).2, split := none
    count := (if 8192 ≤ r.count then 0 else r.count) + 1
    extra := stuffed.any fun s => decide (256 ≤ s)
    stuffed := stuffed
    runs := (List.range 8).map fun n => runsSeen (r.runs.getD n (0, 0)) (lanes.getD n []) }

/-- A codeword is received on the eight lanes: how many of its symbols were wrong, none where it is uncorrectable, and the flits it completes (16 R399). -/
def LineRx.take (r : LineRx) (lanes : List (List Nat)) : Option Nat × LineRx :=
  let w := (r.word lanes).1
  let c := rsDecode w
  let bits := symbolBits ((match c with | some x => x.1 | none => w).take 514)
  (c.map (·.2), LineRx.cut c.isNone 5 { r.passed lanes with rest := r.rest ++ bits, bad := (r.bad && !r.rest.isEmpty) || c.isNone })

/-- The receiver starts anew with the first codeword, at a flit's first bit (log entry 102). -/
def LineRx.start (r : LineRx) : LineRx := { LineRx.reset with scram := r.scram }

end Sys2Proof.Machine
end

