-- ==== Sys2Proof/Machine/Badosa.lean ====
section
/-! DEFINITION. The Badosa links (16): packets and their routes (R410, R413-R416), the transmitter with its retry buffer (R411, R412), admission and
loss (R408, R421), training (R405-R407), the line's markers and codewords (R399-R401), power states (R409), link transit (R415), and the link
commands (08 R215). -/

namespace Sys2Proof.Machine

/-! ## Packets (16 R410) -/

def LPkt.vc (p : LPkt) : Nat := fld p.hdr 87 2
def LPkt.flits (p : LPkt) : Nat := fld p.hdr 81 2 + 1
def LPkt.kind (p : LPkt) : Nat := fld p.hdr 78 3
def LPkt.dest (p : LPkt) : BitVec 18 := BitVec.ofNat 18 (fld p.hdr 60 18)
def LPkt.src (p : LPkt) : BitVec 18 := BitVec.ofNat 18 (fld p.hdr 42 18)
def LPkt.tag (p : LPkt) : BitVec 16 := BitVec.ofNat 16 (fld p.hdr 26 16)
def LPkt.coll (p : LPkt) : Nat := fld p.hdr 18 8
def LPkt.offset (p : LPkt) : Nat := fld p.hdr 0 18

def kRWRITE : Nat := 0
def kRPUSH : Nat := 1
def kRACK : Nat := 2
def kCDATA : Nat := 3

/-- Class of a packet: 1 for RACK. -/
def LPkt.cls (p : LPkt) : Nat := b2n (p.kind == kRACK)

/-- A packet of its fields, with no dateline bit set. -/
def mkLPkt (kind : Nat) (dest src : BitVec 18) (tag : BitVec 16) (coll offset : Nat) (pay : List (BitVec 1024)) : LPkt :=
  ⟨BitVec.ofNat 128 ((((pay.length - 1) % 4) <<< 81) + (kind <<< 78) + (dest.toNat <<< 60) + (src.toNat <<< 42) + (tag.toNat <<< 26) +
    ((coll % 256) <<< 18) + offset % 2 ^ 18), pay⟩

/-- A flit of a TYPE, with its check: SEQ, an acknowledgement, returned credits, the packet fields and a payload. -/
def mkLinkFlit (ty seq : Nat) (ack : Option (BitVec 12)) (cr : Nat × Nat) (hdr : BitVec 128) (pay : BitVec 1024) : BitVec 1184 :=
  let h := (ty <<< 124) + ((seq % 4096) <<< 112) + ((ack.getD 0).toNat <<< 100) + (b2n ack.isSome <<< 99) + (cr.1 <<< 97) + (cr.2 <<< 89) + fld hdr 0 89
  let body := leBytes 16 h ++ leBytes 128 pay.toNat
  BitVec.ofNat 1184 (leNat (body ++ leBytes 4 (crc32c body).toNat))

/-! ## Routes (16 R413-R416) -/

/-- Coordinate of dimension i of an address: W, X, Y, Z. -/
def coord (a : BitVec 18) (i : Nat) : Nat :=
  match i with
  | 0 => fld a 14 4 | 1 => fld a 10 4 | 2 => fld a 5 5 | _ => fld a 0 5

/-- Size of a dimension. -/
def dimSize (s : Nat × Nat × Nat × Nat) (i : Nat) : Nat :=
  match i with
  | 0 => s.1 + 1 | 1 => s.2.1 + 1 | 2 => s.2.2.1 + 1 | _ => s.2.2.2 + 1

/-- An address lies within a shape. -/
def inShape (s : Nat × Nat × Nat × Nat) (a : BitVec 18) : Bool := (List.range 4).all fun i => decide (coord a i < dimSize s i)

/-- The hop in a direction from address a crosses the wrap link of its dimension. -/
def wrapHop (s : Nat × Nat × Nat × Nat) (a : BitVec 18) (dir : Nat) : Bool :=
  if dir % 2 = 0 then coord a (dir / 2) == 0 else coord a (dir / 2) + 1 == dimSize s (dir / 2)

/-- The neighbour of an address in a direction, as its four coordinates. -/
def neighbourCoord (s : Nat × Nat × Nat × Nat) (a : BitVec 18) (dir i : Nat) : Nat :=
  let n := dimSize s i
  if i ≠ dir / 2 then coord a i else if dir % 2 = 0 then (coord a i + n - 1) % n else (coord a i + 1) % n

/-- The directions a packet for an address may take next: negative hops before positive ones; a wrap link only once no lower dimension of the
phase has a hop left (16 R415). -/
def dirsTo (s : Nat × Nat × Nat × Nat) (own dest : BitVec 18) : List Nat :=
  let h := fun (i : Nat) => ringHops (dimSize s i) (coord own i) (coord dest i)
  let neg := (List.range 4).filter fun i => (h i).1 != 0
  let dims := if neg.isEmpty then (List.range 4).filter (fun i => (h i).2 != 0) else neg
  let dirs := dims.map fun i => 2 * i + b2n neg.isEmpty
  dirs.filter fun x => !(wrapHop s own x && dims.any (fun j => decide (j < x / 2)))

/-- Where a packet goes next. -/
inductive Way where
  | here
  | port (n : Nat)
  | unreachable
  deriving DecidableEq, Repr

/-- The packet as it crosses port n: its dateline bit, and its virtual channel (16 R411, R415). -/
def Device.crossPort (d : Device) (n : Nat) (p : LPkt) : LPkt :=
  let dim := n / 4
  let wraps := match d.bad.shape, d.bad.addr with
    | some s, some a => wrapHop s a (n / 2)
    | _, _ => false
  let h := if wraps then setFld p.hdr (86 - dim) 1 1 else p.hdr
  { p with hdr := setFld h 87 2 (2 * p.cls + fld h (86 - dim) 1) }

/-- Free credits of a packet at port n. -/
def Device.linkCredits (d : Device) (n : Nat) (p : LPkt) : Nat := Sparse.get 0 (d.link n).credits (d.crossPort n p).vc

/-- The enabled ports in RUN of a direction. -/
def Device.portsUp (d : Device) (dir : Nat) : List Nat := [2 * dir, 2 * dir + 1].filter fun n => d.linkOn n && (d.link n).inRun

/-- The port with the most free credits; the lower number on a tie (16 R415). -/
def Device.bestPort (d : Device) (p : LPkt) : List Nat → Option Nat
  | [] => none
  | n :: r =>
    match Device.bestPort d p r with
    | none => some n
    | some m => if d.linkCredits n p < d.linkCredits m p then some m else some n

/-- The way of a packet from this device. -/
def Device.wayOf (d : Device) (p : LPkt) : Way :=
  match d.bad.addr, d.bad.shape with
  | some a, some s =>
    if p.dest = a then .here
    else if inShape s p.dest then
      match d.bestPort p ((dirsTo s a p.dest).flatMap d.portsUp) with
      | some n => .port n
      | none => .unreachable
    else .unreachable
  | _, _ => .unreachable

/-! ## Transmitter (16 R411, R412) -/

/-- A flit goes out, with an acknowledgement and credits where they are owed. -/
def Device.emit (d : Device) (n ty seq : Nat) (hdr : BitVec 128) (pay : BitVec 1024) : BitVec 1184 × Device :=
  let l := d.link n
  let cr := match l.crOwed with
    | [] => (0, 0)
    | (v, k) :: _ => (v, min 255 k)
  let f := mkLinkFlit ty seq (if l.ackOwed then some (l.rxSeq - 1) else none) cr hdr pay
  (f, d.setLink n { l with
    sent := .flit f :: l.sent, tx := l.tx.push f, ackOwed := false
    crOwed := Sparse.put 0 l.crOwed cr.1 (Sparse.get 0 l.crOwed cr.1 - cr.2) })

/-- A DATA flit goes out and is kept. -/
def Device.emitData (d : Device) (n : Nat) (hdr : BitVec 128) (pay : BitVec 1024) : Device :=
  let r := d.emit n 1 (d.link n).txSeq.toNat hdr pay
  r.2.modLink n fun l => { l with retry := l.retry ++ [r.1], txSeq := l.txSeq + 1 }

/-- What is left of a packet once its next flit is sent; it keeps its place until the last one is. -/
def LPkt.afterFlit (p : LPkt) : List LPkt := if p.pay.length ≤ 1 then [] else [{ p with pay := p.pay.drop 1 }]

/-- The first packet with a credit for its next flit that no earlier packet of its virtual channel waits before, and the queue without that flit. -/
def Device.pickTx (d : Device) (n : Nat) : List Nat → List LPkt → List LPkt → Option (LPkt × List LPkt)
  | _, _, [] => none
  | blocked, before, p :: r =>
    let v := (d.crossPort n p).vc
    if !has blocked v && decide (0 < Sparse.get 0 (d.link n).credits v) then some (p, before ++ p.afterFlit ++ r)
    else Device.pickTx d n (v :: blocked) (before ++ [p]) r

/-- The transmitter sends: a flit at a time as credits and the retry buffer allow, then what is owed to the partner; the fuel bounds the flits. -/
def Device.pumpLoop (n : Nat) : Nat → Device → Device
  | 0, d => d
  | f + 1, d =>
    let l := d.link n
    match d.pickTx n [] [] l.txq with
    | some (p, rest) =>
      if l.retry.length < 1024 then
        let q := d.crossPort n p
        let d := d.setLink n { l with txq := rest, credits := Sparse.put 0 l.credits q.vc (Sparse.get 0 l.credits q.vc - 1) }
        Device.pumpLoop n f (d.emitData n q.hdr (q.pay.headD 0))
      else if l.ackOwed || !l.crOwed.isEmpty then Device.pumpLoop n f (d.emit n 0 0 0 0).2
      else d
    | none => if l.ackOwed || !l.crOwed.isEmpty then Device.pumpLoop n f (d.emit n 0 0 0 0).2 else d

/-- A port in RUN and L-RUN sends what it has. -/
def Device.pump (d : Device) (n : Nat) : Device :=
  let l := d.link n
  if l.st = .run ∧ l.txPow = .run then Device.pumpLoop n ((l.txq.map (·.pay.length)).sum + l.txq.length + (l.crOwed.map (·.2)).sum / 255 + 8) d else d

/-- The kept flits from the oldest on go out again (16 R412). -/
def Device.resendAll (d : Device) (n : Nat) : Device :=
  let l := d.link n
  l.retry.foldl (fun d f => (d.emit n 1 (fld f 112 12) (BitVec.ofNat 128 (fld f 0 89)) (BitVec.ofNat 1024 (fld f 128 1024))).2) d

/-! ## Sending a packet (16 R415, R416) -/

/-- The port of a link engine on the package network. -/
def linkPort (n : Nat) : PortId := ⟨linkRouter n, 1⟩

/-- A link-transit message (16 R415). -/
def mkTransit (panic : Bool) (kind : Nat) (src dst : PortId) (tsf : Nat) (pay : BitVec 1024) : Packet :=
  ⟨mkHdr tCTRL panic 1 dst src ((kind <<< 32) + tsf), [pay]⟩

/-- Engine n hands a packet to egress port e: directly on its own die, otherwise by a TREQ, which carries the link header of a DATA flit (16 R410, R415). -/
def Device.handOver (d : Device) (n e : Nat) (p : LPkt) (inRx : Bool) : Device :=
  if e / 2 = n / 2 then (d.modLink e fun l => { l with txq := l.txq ++ [p] }).pump e
  else
    let l := d.link n
    let tx := l.nextTx
    let d := d.setLink n { l with transit := l.transit ++ [(tx, p, e, inRx)], nextTx := tx + 1 }
    d.send (linkPort n) (mkTransit l.panic 0 (linkPort n) (linkPort e) (tx.toNat <<< 16) (BitVec.ofNat 1024 ((1 <<< 124) + fld p.hdr 0 89)))

/-- A RACK for a packet, from engine n: the status in OFFSET. One that cannot be routed is counted in LK_LOST (16 R416). -/
def Device.sendRack (d : Device) (n : Nat) (p : LPkt) (st : Status) : Device :=
  let own := d.bad.addr.getD 0
  let r := mkLPkt kRACK p.src own p.tag p.coll st.code [0]
  match d.wayOf r with
  | .here => d.modLink n fun l => { l with rxq := l.rxq ++ [(false, r)] }
  | .port e => d.handOver n e r false
  | .unreachable => d.modLink n fun l => { l with lostRacks := l.lostRacks.incReg }

/-! ## Collectives that fail (16 R420, R421) -/

def Device.coll (d : Device) (c : Nat) : Option Coll := Sparse.find d.bad.colls c
def Device.setColl (d : Device) (c : Nat) (x : Coll) : Device := { d with bad := { d.bad with colls := Sparse.ins d.bad.colls c x } }

/-- Entries on their way to DSTQ are pushed, as far as the queue has room. -/
def Device.flushColl (c : Nat) : Nat → Device → Device
  | 0, d => d
  | f + 1, d =>
    match d.coll c with
    | none => d
    | some x =>
      match x.out with
      | [] => d
      | e :: r =>
        match d.pushNow x.dstq e with
        | some d' => Device.flushColl c f (d'.setColl c { x with out := r })
        | none => d

/-- A collective is FAILED: a token with the status goes to DSTQ (16 R420). -/
def Device.collFail (d : Device) (c : Nat) (st : Status) : Device :=
  match d.coll c with
  | none => d
  | some x =>
    if x.failed then d
    else Device.flushColl c 300 (d.setColl c { x with failed := true, unacked := [], resend := [], out := x.out ++ [tokenOf (0x80000000 + st.code)] })

/-- A packet fails on the way from engine n: its origin gets the status, a local one directly, a remote one by RACK (16 R421). A RACK has no
sender that waits for one. -/
def Device.failPacket (d : Device) (n : Nat) (p : LPkt) (st : Status) : Device :=
  if p.kind = kRACK then d
  else if some p.src = d.bad.addr then d.collFail p.coll st
  else d.sendRack n p st

/-- A packet is routed from engine n (16 R415, R416). -/
def Device.routeFrom (d : Device) (n : Nat) (p : LPkt) : Device :=
  match d.wayOf p with
  | .here => d.modLink n fun l => { l with rxq := l.rxq ++ [(false, p)] }
  | .port e => d.handOver n e p false
  | .unreachable =>
    if p.kind = kRACK then d.modLink n fun l => { l with lostRacks := l.lostRacks.incReg } else d.failPacket n p .routeUnreachable

/-! ## Receive buffer (16 R411, 10 R272) -/

/-- PANIC is asserted above 2,304 flits, released below 1,536, and otherwise kept. -/
def Link.watch (l : Link) : Link :=
  let n := (l.rxOcc.map (·.2)).sum
  { l with panic := if 2304 < n then true else if n < 1536 then false else l.panic }

/-- A packet leaves the receive buffer: its credits are owed to the partner. -/
def Device.freeRx (d : Device) (n : Nat) (p : LPkt) : Device :=
  (d.modLink n fun l =>
    ({ l with
      rxOcc := Sparse.put 0 l.rxOcc p.vc (Sparse.get 0 l.rxOcc p.vc - p.flits)
      crOwed := if l.inRun then Sparse.put 0 l.crOwed p.vc (Sparse.get 0 l.crOwed p.vc + p.flits) else l.crOwed } : Link).watch).pump n

/-- A packet has been received whole at port n; one for this device of a reserved kind is dropped. -/
def Device.arrived (d : Device) (n : Nat) (p : LPkt) : Device :=
  match d.wayOf p with
  | .here => if 3 < p.kind then d.freeRx n p else d.modLink n fun l => { l with rxq := l.rxq ++ [(true, p)] }
  | .port e => if e / 2 = n / 2 then (d.freeRx n p).handOver n e p false else d.handOver n e p true
  | .unreachable =>
    let d := d.freeRx n p
    if p.kind = kRACK then d.modLink n fun l => { l with lostRacks := l.lostRacks.incReg } else d.sendRack n p .routeUnreachable

/-! ## States of a port (16 R405, R408, R421) -/

/-- The device is READY. -/
def Device.isReady (d : Device) : Bool := decide (d.rst.st = .ready)

/-- A port enters DETECT. -/
def Device.toDetect (d : Device) (n : Nat) : Device :=
  d.modLink n fun l => { l with
    st := .detect, lanes := 0, partnerRdy := false, fromDry := false, retrain := false, txPow := .run, rxPow := .run
    taps := if l.st = .disabled then [0, -8, 48, -8, 0] else l.taps }

/-- ACQUIRE: every lane is to be acquired again. -/
def Device.toAcquire (d : Device) (n : Nat) : Device := d.modLink n fun l => { l with st := .acquire, lanes := 0, partnerRdy := false }

/-- ALIGN. -/
def Device.toAlign (d : Device) (n : Nat) : Device :=
  d.modLink n fun l => { l with st := .align, markers := 0, skewOk := false, codewords := 0, tx := l.tx.start, rx := l.rx.start }

/-- EQUALIZE, from preset P4; a return from L-DRY keeps the taps and goes on with ALIGN (16 R407, R409). -/
def Device.toEqualize (d : Device) (n : Nat) : Device :=
  if (d.link n).fromDry then d.toAlign n
  else d.modLink n fun l => { l with
    st := .equalize, taps := [0, -8, 48, -8, 0], iter := 0, acnt := 0, astat := 0, ask := 0, rcnt := 0, answered := true }

/-- What a link-control flit says: a number for its kind, and its argument. A wake is no flit. -/
def LSent.control : LSent → Option (Nat × Nat)
  | .nak seq => some (0, seq.toNat)
  | .damp => some (1, 0)
  | .down => some (2, 0)
  | .param a v port dir => some (3, a.toNat + (b2n v <<< 18) + (dir <<< 19) + (port <<< 22))
  | _ => none

/-- Something goes on the wire: a control message as an LCTL flit, whose payload the spec does not lay out (16 R408-R412; log entry 102). -/
def Link.wire (l : Link) (x : LSent) : Link :=
  { l with
    sent := x :: l.sent
    tx := match x.control with
      | some (k, a) => l.tx.push (mkLinkFlit 2 0 none (0, 0) 0 (Config.lctlPayload k a))
      | none => l.tx }

def Device.wire (d : Device) (n : Nat) (x : LSent) : Device := d.modLink n fun l => l.wire x

/-- PARAM: the own parameters are sent (16 R408). -/
def Device.toParam (d : Device) (n : Nat) : Device :=
  (d.modLink n fun l => { l with st := .param }).wire n (.param (d.bad.addr.getD 0) d.bad.addr.isSome n (n / 2))

/-- A port in RUN is lost (16 R421): what it has sent fails, what it has not sent is routed again, and it returns to DETECT. -/
def Device.linkLoss (d : Device) (n cause : Nat) (disable : Bool) : Device :=
  let l := d.link n
  let begun := l.txq.filter fun p => decide (p.pay.length < p.flits)
  let failed := ((l.retry.map (fld · 0 83) ++ begun.map fun p => fld p.hdr 0 83).map fun h => (⟨BitVec.ofNat 128 h, []⟩ : LPkt)).eraseDups
  let part := l.rxPart.foldl (fun (o : Sparse Nat) e => Sparse.put 0 o e.1 (Sparse.get 0 o e.1 - e.2.pay.length)) l.rxOcc
  let d := (d.setLink n ({ l with
    rxPart := [], rxOcc := part, retry := [], resent := 0, txq := [], credits := [], crOwed := [], ackOwed := false, nakSent := false
    txSeq := 0, rxSeq := 0, lastDown := cause } : Link).watch).toDetect n
  let d := if disable then d.modLink n fun l => { l with st := .disabled } else d
  let d := failed.foldl (fun d p => d.failPacket n p .linkDown) d
  let d := (l.txq.filter fun p => !decide (p.pay.length < p.flits)).foldl (fun d p => d.routeFrom n p) d
  d.raise 0x20 (BitVec.ofNat 64 n) 0

/-- A port that traffic may use, or that is retraining with its retry buffer kept. -/
def Link.live (l : Link) : Bool := l.inRun || l.retrain

/-- A loss, if the port is in RUN. -/
def Device.loseIfUp (d : Device) (n cause : Nat) : Device := if (d.link n).live then d.linkLoss n cause false else d

/-- The port is MISCABLED under the shape and the parameters exchanged (16 R408). -/
def Device.badCable (d : Device) (n : Nat) : Bool :=
  let l := d.link n
  match d.bad.addr, d.bad.shape with
  | some a, some s =>
    l.pvalid && (l.pdir.toNat != (if n / 2 % 2 = 0 then n / 2 + 1 else n / 2 - 1) ||
      (List.range 4).any fun i => coord l.partner i != neighbourCoord s a (n / 2) i)
  | _, _ => false

/-- A port in ADMIT is admitted (16 R408): credits for its receive buffer are granted. One that retrained keeps its credits and sends on from the
oldest flit not acknowledged (16 R412). -/
def Device.admitPort (d : Device) (n : Nat) : Device :=
  let l := d.link n
  if l.st = .admitted ∧ !l.miscabled ∧ d.isReady then
    let d := d.setLink n { l with
      st := .run, retrain := false
      crOwed := if l.retrain then l.crOwed
        else (List.range 4).foldl (fun m v => Sparse.put 0 m v (768 - Sparse.get 0 l.rxOcc v)) [] }
    let d := d.raise 0x21 (pack [(n, 0), (l.partner.toNat, 32)]) 0
    ((if l.retrain then d.resendAll n else d).pump n)
  else d

/-- The enabled ports. -/
def Device.portsOn (d : Device) : List Nat := (List.range nPorts).filter d.linkOn

/-- Ports at ADMIT are admitted in the order BL0 to BL15 (14 R378, 16 R408). -/
def Device.admitAll (d : Device) : Device := d.portsOn.foldl Device.admitPort d

/-- A disabled port starts to train (16 R405, 14 R379). -/
def Device.startTrain (d : Device) (n : Nat) : Device := if (d.link n).st = .disabled then d.toDetect n else d

/-! ## Training frames (16 R406, R407) -/

/-- The presets. -/
def ffePreset (i : Nat) : List Int :=
  match i with
  | 0 => [0, 0, 64, 0, 0] | 1 => [0, 0, 56, -8, 0] | 2 => [0, 0, 48, -16, 0] | 3 => [0, -4, 48, -12, 0]
  | 4 => [0, -8, 48, -8, 0] | 5 => [0, -8, 44, -12, 0] | 6 => [-4, -8, 40, -12, 0] | _ => [-2, -6, 40, -12, -4]

/-- The limits of the taps, and of the sum of their magnitudes. -/
def tapsOk (l : List Int) : Bool :=
  ((l.zip [((-8 : Int), (0 : Int)), (-16, 0), (32, 64), (-24, 0), (-8, 0)]).all fun e => decide (e.2.1 ≤ e.1) && decide (e.1 ≤ e.2.2)) &&
  decide ((l.map Int.natAbs).sum ≤ 64)

/-- A request of the partner for the own transmitter: its answer, and the taps after it. -/
def ffeRequest (taps : List Int) (rtap rop preset : Nat) : Nat × List Int :=
  if rop = 3 then (3, ffePreset preset)
  else if 4 < rtap then (0, taps)
  else
    let t := taps.set rtap (taps.getD rtap 0 + (if rop = 1 then 1 else -1))
    if tapsOk t then (1, t) else (2, taps)

/-- A frame's check and its SYNC hold. The code starts as the signatures of R326 do (log entry 49). -/
def frameOk (f : BitVec 128) : Bool :=
  fld f 96 32 == 0x7E8118E7 && fld f 0 16 == ((leBytes 14 (fld f 16 112)).reverse.foldl sigByte 0xFFFF)

/-- The frame that port l sends on a lane (16 R406). -/
def Link.frame (l : Link) (lane : Nat) : BitVec 128 :=
  let h := (0x7E8118E7 <<< 96) + (l.st.code <<< 93) + ((lane % 8) <<< 90) + (b2n (l.st != .detect && l.lanes == 0xFF) <<< 89) + (fld l.ask 0 3 <<< 86) +
    (fld l.ask 3 2 <<< 84) + (fld l.ask 5 3 <<< 81) + (l.rcnt.toNat <<< 77) + (l.astat.toNat <<< 75) + (l.acnt.toNat <<< 71)
  BitVec.ofNat 128 (h + (leBytes 14 (h >>> 16)).reverse.foldl sigByte 0xFFFF)

/-- The symbols of a frame: level 3 for a bit of 1, level 0 for a bit of 0, bit 127 first. -/
def frameSymbols (f : BitVec 128) : List Nat := (List.range 128).map fun i => if bitAt f (127 - i) then 3 else 0

/-- The idle flit: it carries nothing, and no field of it acts at the receiver (16 R410, R411). -/
def idleFlit : BitVec 1184 := mkLinkFlit 0 0 none (0, 0) 0 0

/-- What the eight lanes of a port carry for the next while (16 R405, R406, R409): training frames, one codeword of full coding, or electrical idle where the
port is DISABLED or its transmitter has gone idle with nothing left to send. -/
def Link.drive (l : Link) : Link :=
  let quiet := { l with tx := { l.tx with out := [] } }
  match l.st with
  | .disabled => quiet
  | .detect | .acquire | .equalize => { l with tx := { l.tx with out := (List.range 8).map fun n => frameSymbols (l.frame n) } }
  | .align | .param | .admitted | .run =>
    if l.txPow = .run || l.tx.flits.any (· != idleFlit) then { l with tx := l.tx.send idleFlit } else quiet

/-- Every enabled port drives its lanes. -/
def Device.driveLinks (d : Device) : Device :=
  ((List.range nPorts).filter d.linkOn).foldl (fun d n => d.modLink n Link.drive) d

/-- The own receiver's side of a frame: an answer to its last request ends that iteration, and what it asks for next is its next request; nothing is HOLD. -/
def Link.takeAnswer (l : Link) (f : BitVec 128) (want : BitVec 8) : Link :=
  let answered := l.answered || (fld f 75 2 != 0 && fld f 71 4 == l.rcnt.toNat)
  if !answered then l
  else if fld want 3 2 = 0 then { l with answered := true, ask := 0 }
  else { l with answered := false, ask := want, rcnt := l.rcnt + 1 }

/-- A frame in EQUALIZE: a new request is carried out and answered; once both receivers send HOLD, or after 512 iterations, ALIGN follows. -/
def Device.equalize (d : Device) (n : Nat) (f : BitVec 128) (want : BitVec 8) : Device :=
  let l := (d.link n).takeAnswer f want
  let hold := l.answered && l.ask == 0
  let rop := fld f 84 2
  let rcnt := fld f 77 4
  let new := rop ≠ 0 ∧ (l.astat = 0 ∨ rcnt ≠ l.acnt.toNat)
  let l := if new then
      let r := ffeRequest l.taps (fld f 86 3) rop (fld f 81 3)
      { l with taps := r.2, astat := BitVec.ofNat 2 r.1, acnt := BitVec.ofNat 4 rcnt, iter := l.iter + 1 }
    else l
  let d := d.setLink n l
  if (rop = 0 ∧ hold) ∨ 512 ≤ l.iter.toNat then d.toAlign n else d

/-- TRAINING_FRAME: a frame is received on a lane; want is what the own receiver asks for next: RTAP, ROP and RPRESET (16 R405-R407). -/
def trainingFrame (n lane : Nat) (f : BitVec 128) (want : BitVec 8) (d : Device) : Device :=
  let l := d.link n
  if !d.linkOn n || !frameOk f || decide (8 ≤ lane) || fld f 90 3 != lane then d
  else
    let lanes : Byte := BitVec.ofNat 8 (l.lanes.toNat ||| 2 ^ lane)
    match l.st with
    | .detect => d.setLink n { l with lanes := lanes }
    | .acquire =>
      let d := d.setLink n { l with lanes := lanes, partnerRdy := bitAt f 89 }
      if lanes = 0xFF ∧ bitAt f 89 then d.toEqualize n else d
    | .equalize => d.equalize n f want
    | _ => d

def execTrainingFrame (n lane : Nat) (f : BitVec 128) (want : BitVec 8) (s : State) : Host.Outcome State Fault Refusal :=
  runUnit (decide (n < nPorts)) (trainingFrame n lane f want) s

/-- DETECT_DWELL: frames have come on all 8 lanes for 10 µs (16 R405). -/
def detectDwell (n : Nat) (d : Device) : Device :=
  let l := d.link n
  if l.st = .detect ∧ l.lanes = 0xFF then d.toAcquire n else d

def execDetectDwell (n : Nat) (s : State) : Host.Outcome State Fault Refusal := runUnit (decide (n < nPorts)) (detectDwell n) s

/-- LINK_STATE_TIMEOUT (16 R405): a retrain or a return from L-DRY that fails is a loss (16 R409, R421). -/
def linkStateTimeout (n : Nat) (d : Device) : Device :=
  let l := d.link n
  let back := fun (d : Device) => if l.live then d.linkLoss n 2 false else d.toDetect n
  match l.st with
  | .acquire => back d
  | .equalize => d.toAlign n
  | .align => back d
  | .param => back d
  | _ => d

def execLinkStateTimeout (n : Nat) (s : State) : Host.Outcome State Fault Refusal := runUnit (decide (n < nPorts)) (linkStateTimeout n) s

/-! ## Line coding (16 R399-R401, R405) -/

/-- The coding of R399 runs. -/
def Train.coded : Train → Bool
  | .align => true
  | .param => true
  | .admitted => true
  | .run => true
  | _ => false

/-- ALIGN ends: 16 consecutive markers on every lane, deskew, and enough clean codewords (16 R405, R409). -/
def Device.alignDone (d : Device) (n : Nat) : Device :=
  let l := d.link n
  if l.st = .align ∧ 16 ≤ l.markers ∧ l.skewOk then
    if l.fromDry then
      (if 4096 ≤ l.codewords then (d.setLink n { l with st := .run, fromDry := false, txPow := .run, rxPow := .run }).pump n else d)
    else if 65536 ≤ l.codewords then d.toParam n
    else d
  else d

/-- LINK_MARKER: the alignment markers found on the eight lanes, the largest skew between two of them in symbols, and how many symbols since the last codeword
boundary came before them (16 R401). The scrambler of lane m is loaded with 0x55555550 + m at their end (16 R400). -/
def linkMarker (n : Nat) (marks : List (BitVec 512)) (skew pos : Nat) (d : Device) : Device :=
  let l := d.link n
  if l.st.coded then
    let seqs := (List.range 8).map fun m => markerSeqOf m (marks.getD m 0)
    let s := (seqs.headD none).getD 0
    let all := seqs.all (· == some s)
    let next := l.markers == 0 || s == l.markerSeq + 1
    (d.setLink n { l with
      markers := if all then (if next then l.markers + 1 else 1) else 0
      markerSeq := if all then s else l.markerSeq, skewOk := all && decide (skew ≤ 3584)
      rx := { l.rx with split := some (min pos 660) } }).alignDone n
  else d

def execLinkMarker (n : Nat) (marks : List (BitVec 512)) (at_ : MarkerPlace) (s : State) : Host.Outcome State Fault Refusal :=
  runUnit (decide (n < nPorts)) (linkMarker n marks at_.skew at_.pos) s

/-- A codeword is counted by what its decoding found, and in ALIGN adds to those with none uncorrectable (16 R399, R405). -/
def Device.countCodeword (d : Device) (n : Nat) (res : Option Nat) : Device :=
  let d := match res with
    | some 0 => d
    | some _ => d.bump 0x50 n 1
    | none => d.bump 0x51 n 1
  if (d.link n).st = .align then (d.modLink n fun l => { l with codewords := if res.isSome then l.codewords + 1 else 0 }).alignDone n else d

/-- FEC_CODEWORD_RECEIVE: the symbols that the eight lanes brought since the last codeword: stuff symbols, marker and filler block are removed, up to 15 symbol
errors are corrected, and the flits that the codeword completes are kept for the link layer (16 R399-R403). -/
def fecCodewordReceive (n : Nat) (lanes : List (List Nat)) (d : Device) : Device :=
  let l := d.link n
  if l.st.coded then
    let r := l.rx.take lanes
    (d.setLink n { l with rx := r.2 }).countCodeword n r.1
  else d

def execFecCodewordReceive (n : Nat) (lanes : List (List Nat)) (s : State) : Host.Outcome State Fault Refusal :=
  runUnit (decide (n < nPorts)) (fecCodewordReceive n lanes) s

/-- LINK_MARKER_LOSS (16 R421). -/
def linkMarkerLoss (n : Nat) (d : Device) : Device := d.loseIfUp n 1

def execLinkMarkerLoss (n : Nat) (s : State) : Host.Outcome State Fault Refusal := runUnit (decide (n < nPorts)) (linkMarkerLoss n) s

/-- LINK_PARAM: the partner's parameters (16 R408). -/
def linkParam (n : Nat) (addr : BitVec 18) (valid : Bool) (dir : BitVec 3) (d : Device) : Device :=
  if (d.link n).st = .param then
    let d := d.modLink n fun l => { l with st := .admitted, partner := addr, pvalid := valid, pdir := dir }
    (d.modLink n fun l => { l with miscabled := d.badCable n }).admitPort n
  else d

def execLinkParam (n : Nat) (addr : BitVec 18) (valid : Bool) (dir : BitVec 3) (s : State) : Host.Outcome State Fault Refusal :=
  runUnit (decide (n < nPorts)) (linkParam n addr valid dir) s

/-! ## Receiving flits (16 R410-R412) -/

/-- SEQ a is not before b, in a window of half the numbers. -/
def seqDone (ack seq : BitVec 12) : Bool := decide ((ack - seq).toNat < 2048)

/-- What every whole flit brings: an acknowledgement, and credits. -/
def Link.takeReturns (l : Link) (f : BitVec 1184) : Link :=
  let left := if bitAt f 99 then l.retry.filter (fun r => !seqDone (BitVec.ofNat 12 (fld f 100 12)) (BitVec.ofNat 12 (fld r 112 12))) else l.retry
  { l with
    retry := left, resent := if left.length < l.retry.length then 0 else l.resent
    credits := Sparse.put 0 l.credits (fld f 97 2) (Sparse.get 0 l.credits (fld f 97 2) + fld f 89 8) }

/-- A flit is discarded, and a NAK names the SEQ expected; until that flit comes no other NAK is sent. -/
def Device.discardFlit (d : Device) (n : Nat) : Device :=
  let l := d.link n
  if l.nakSent then d else d.setLink n ({ l with nakSent := true }.wire (.nak l.rxSeq))

/-- A DATA flit in order: it joins its packet, and a whole packet goes on. -/
def Device.takeData (d : Device) (n : Nat) (f : BitVec 1184) : Device :=
  let l := d.link n
  let hdr : BitVec 128 := BitVec.ofNat 128 (fld f 0 89)
  let pay : BitVec 1024 := BitVec.ofNat 1024 (fld f 128 1024)
  let v := fld f 87 2
  let p : LPkt := match Sparse.find l.rxPart v with
    | some q => { q with pay := q.pay ++ [pay] }
    | none => ⟨hdr, [pay]⟩
  let l := ({ l with
    rxSeq := l.rxSeq + 1, nakSent := false, ackOwed := true, rxOcc := Sparse.put 0 l.rxOcc v (Sparse.get 0 l.rxOcc v + 1) } : Link).watch
  if p.pay.length < p.flits then (d.setLink n { l with rxPart := Sparse.ins l.rxPart v p }).pump n
  else ((d.setLink n { l with rxPart := Sparse.del l.rxPart v }).arrived n p).pump n

/-- A whole flit; damaged says that it overlaps an uncorrectable codeword (16 R399, R412). -/
def Device.takeFlit (d : Device) (n : Nat) (f : BitVec 1184) (damaged : Bool) : Device :=
  let l := d.link n
  if l.st ≠ .run ∧ l.st ≠ .admitted then d
  else if damaged || fld f 1152 32 != (crc32c (leBytes 144 (fld f 0 1152))).toNat then d.discardFlit n
  else if 2 < fld f 124 4 then d
  else
    let d := d.setLink n (l.takeReturns f)
    if fld f 124 4 = 1 then (if fld f 112 12 = l.rxSeq.toNat then d.takeData n f else (d.discardFlit n).pump n) else d.pump n

/-- LINK_DATA_FLIT: the link layer takes a flit, damaged where it overlaps an uncorrectable codeword: the oldest one that the port's codewords have completed. -/
def linkDataFlit (n : Nat) (flit : BitVec 1184) (damaged : Bool) (d : Device) : Device :=
  let l := d.link n
  match l.rx.flits with
  | [] => d
  | x :: r => if x = (flit, damaged) then (d.setLink n { l with rx := { l.rx with flits := r } }).takeFlit n flit damaged else d

def execLinkDataFlit (n : Nat) (flit : BitVec 1184) (damaged : Bool) (s : State) : Host.Outcome State Fault Refusal :=
  runUnit (decide (n < nPorts)) (linkDataFlit n flit damaged) s

/-- LINK_NAK: the partner names the flit it expects; sending resumes there. After the sixteenth resend in a row of one flit the port retrains from
ACQUIRE with its retry buffer kept (16 R412). -/
def linkNak (n : Nat) (seq : BitVec 12) (d : Device) : Device :=
  let l := d.link n
  if l.st ≠ .run then d
  else
    let left := l.retry.filter fun r => seqDone (BitVec.ofNat 12 (fld r 112 12)) seq
    if left.isEmpty then d
    else
      let k := if left.length < l.retry.length then 1 else l.resent + 1
      let d := ((d.setLink n { l with retry := left, resent := k }).resendAll n).bump 0x52 n 1
      if 16 ≤ k then (d.modLink n fun l => { l with retrain := true, resent := 0 }).toAcquire n else d

def execLinkNak (n : Nat) (seq : BitVec 12) (s : State) : Host.Outcome State Fault Refusal := runUnit (decide (n < nPorts)) (linkNak n seq) s

/-- LINK_DOWN_NOTICE: the partner sends LCTL DOWN (16 R421). -/
def linkDownNotice (n : Nat) (d : Device) : Device := d.loseIfUp n 3

def execLinkDownNotice (n : Nat) (s : State) : Host.Outcome State Fault Refusal := runUnit (decide (n < nPorts)) (linkDownNotice n) s

/-- LINK_ELECTRICAL_IDLE: the lanes go idle without a DAMP notice (16 R421). -/
def linkElectricalIdle (n : Nat) (d : Device) : Device := if (d.link n).rxPow = .run then d.loseIfUp n 4 else d

def execLinkElectricalIdle (n : Nat) (s : State) : Host.Outcome State Fault Refusal := runUnit (decide (n < nPorts)) (linkElectricalIdle n) s

/-! ## Power states (16 R409) -/

/-- The own direction has nothing to send, nothing owed and nothing unacknowledged. -/
def Link.quietTx (l : Link) : Bool := l.txq.isEmpty && !l.ackOwed && l.crOwed.isEmpty && l.retry.isEmpty

/-- LINK_IDLE_TIMEOUT: a direction has been idle for 2 µs; the partner's goes idle by its own DAMP notice. -/
def linkIdleTimeout (n : Nat) (own : Bool) (d : Device) : Device :=
  let l := d.link n
  if l.st ≠ .run then d
  else if own then (if l.allowed && decide (l.txPow = .run) && l.quietTx then (d.setLink n { l with txPow := .damp }).wire n .damp else d)
  else if l.rxPow = .run then d.setLink n { l with rxPow := .damp } else d

def execLinkIdleTimeout (n : Nat) (own : Bool) (s : State) : Host.Outcome State Fault Refusal :=
  runUnit (decide (n < nPorts)) (linkIdleTimeout n own) s

/-- LINK_DRY_TIMEOUT: both directions have been in L-DAMP for 500 µs; with the partner's agreement they enter L-DRY. Traffic wins. -/
def linkDryTimeout (n : Nat) (agreed : Bool) (d : Device) : Device :=
  let l := d.link n
  if l.st = .run ∧ l.allowed ∧ l.txPow = .damp ∧ l.rxPow = .damp ∧ agreed ∧ l.quietTx then
    d.setLink n { l with txPow := .dry, rxPow := .dry }
  else d

def execLinkDryTimeout (n : Nat) (agreed : Bool) (s : State) : Host.Outcome State Fault Refusal :=
  runUnit (decide (n < nPorts)) (linkDryTimeout n agreed) s

/-- A direction comes back from L-DAMP; both come back from L-DRY through ACQUIRE, with the taps kept. -/
def Device.wakeLink (d : Device) (n : Nat) (own ok : Bool) : Device :=
  let l := d.link n
  if l.st ≠ .run then d
  else if l.txPow = .dry then
    (if ok then ((if own then d.wire n .wake else d).modLink n fun l => { l with fromDry := true }).toAcquire n else d.linkLoss n 2 false)
  else if own then (if l.txPow = .damp then (d.setLink n { l with txPow := .run }).pump n else d)
  else if l.rxPow = .damp then d.setLink n { l with rxPow := .run } else d

/-- LINK_WAKE: traffic of the own side or the partner's wake; ok says that clock recovery is regained. -/
def linkWake (n : Nat) (own ok : Bool) (d : Device) : Device := d.wakeLink n own ok

def execLinkWake (n : Nat) (own ok : Bool) (s : State) : Host.Outcome State Fault Refusal := runUnit (decide (n < nPorts)) (linkWake n own ok) s

/-! ## Link transit (16 R415) -/

/-- The first transit message of a kind at engine n, taken. -/
def Device.takeCtrl (d : Device) (n kind : Nat) : Option (Packet × Device) :=
  match takeFirst (fun e => e.1 == kind) (d.link n).ctrl with
  | none => none
  | some (e, rest) => some (e.2, d.modLink n fun l => { l with ctrl := rest })

/-- The lowest free slot of a transmit buffer. -/
def freeSlot (l : List TSlot) : Option Nat := (List.range 768).find? fun i => !l.any (fun s => s.slot == i)

/-- TREQ: engine n reserves a slot for the whole packet and grants it; with none free the request waits. -/
def treq (n : Nat) (d : Device) : Device :=
  match freeSlot (d.link n).slots, d.takeCtrl n 0 with
  | some i, some (p, d) =>
    let hdr : BitVec 128 := BitVec.ofNat 128 (fld (p.pay.headD 0) 0 89)
    let d := d.modLink n fun l => { l with slots := l.slots ++ [⟨i, hdr, []⟩] }
    d.send (linkPort n) (mkTransit (d.link n).panic 1 (linkPort n) (srcPort p.hdr) ((fld p.hdr 16 16 <<< 16) + (i <<< 6)) 0)
  | _, _ => d

def execTreq (n : Nat) (s : State) : Host.Outcome State Fault Refusal := runUnit (decide (n < nPorts)) (treq n) s

/-- TGRANT: the packet's payloads go to the granted slot, one TDATA each. -/
def tgrant (n : Nat) (d : Device) : Device :=
  match d.takeCtrl n 1 with
  | none => d
  | some (g, d) =>
    let tx := fld g.hdr 16 16
    match (d.link n).transit.find? (fun e => e.1.toNat == tx) with
    | none => d
    | some (_, p, e, inRx) =>
      let d := d.modLink n fun l => { l with transit := l.transit.filter fun x => x.1.toNat != tx }
      let d := p.pay.zipIdx.foldl (fun d x =>
        d.send (linkPort n) (mkTransit (d.link n).panic 2 (linkPort n) (linkPort e) ((fld g.hdr 6 10 <<< 22) + (x.2 <<< 20)) x.1)) d
      if inRx then d.freeRx n p else d

def execTgrant (n : Nat) (s : State) : Host.Outcome State Fault Refusal := runUnit (decide (n < nPorts)) (tgrant n) s

/-- TDATA: with its last flit the packet is sent; on a port that has left RUN it is routed again (16 R415, R421). -/
def tdata (n : Nat) (d : Device) : Device :=
  match d.takeCtrl n 2 with
  | none => d
  | some (p, d) =>
    match (d.link n).slots.find? (fun s => s.slot == fld p.hdr 22 10) with
    | none => d
    | some s =>
      let s' := { s with got := Sparse.ins s.got (fld p.hdr 20 2) (p.pay.headD 0) }
      let k : LPkt := ⟨s.hdr, s'.got.map (·.2)⟩
      if k.pay.length < k.flits then d.modLink n fun l => { l with slots := l.slots.map fun x => if x.slot = s.slot then s' else x }
      else
        let d := d.modLink n fun l => { l with slots := l.slots.filter fun x => x.slot != s.slot }
        if (d.link n).live then (d.modLink n fun l => { l with txq := l.txq ++ [k] }).pump n else d.routeFrom n k

def execTdata (n : Nat) (s : State) : Host.Outcome State Fault Refusal := runUnit (decide (n < nPorts)) (tdata n) s

/-! ## Link commands (08 R215) -/

def lcOp (c : Cmd) : Nat := fld (c.pw 2) 0 3
def lcPorts (c : Cmd) : List Nat := (List.range nPorts).filter fun n => bitAt (c.pw 1) n
def lcMasks (_ : Cmd) : List Word := [bits [(0, 16)], bits [(0, 3)]]

/-- The checks of LINK_CTL: every named port is enabled. -/
def linkCtlBad (c : Cmd) (d : Device) : Option Nat := firstBad [((lcPorts c).any (fun n => !d.linkOn n), 8)]

/-- LINK_CTL: the named ports carry out an operation where they can; where one cannot, the status is LINK_DOWN (log entry 50). -/
def linkCtl (can : Link → Bool) (act : Device → Nat → Device) (c : Cmd) (d : Device) : Device :=
  let l := lcPorts c
  let ns := l.filter fun n => can (d.link n)
  (ns.foldl act d).finish c (cpl (if ns.length = l.length then .success else .linkDown) (BitVec.ofNat 64 (ns.foldl (fun a n => a + 2 ^ n) 0)) 0 0)

/-- A port stops: one in RUN tells its partner and is lost (16 R405, R421). -/
def Device.disablePort (d : Device) (n : Nat) : Device :=
  if (d.link n).live then (d.wire n .down).linkLoss n 5 true else (d.toDetect n).modLink n fun l => { l with st := .disabled }

/-- LINK_CTL, OP 0. -/
def execLinkDisable (q g : Nat) (s : State) : Host.Outcome State Fault Refusal :=
  runCmd 0x40 (fun c => lcOp c == 0) lcMasks linkCtlBad (linkCtl (fun _ => true) Device.disablePort) q g s

/-- LINK_CTL, OP 1. -/
def execLinkEnableTrain (q g : Nat) (s : State) : Host.Outcome State Fault Refusal :=
  runCmd 0x40 (fun c => lcOp c == 1) lcMasks linkCtlBad (linkCtl (fun _ => true) Device.startTrain) q g s

/-- The port goes to DETECT from wherever it is; one in RUN is lost. -/
def Device.retrainPort (d : Device) (n : Nat) : Device :=
  if (d.link n).live then (d.wire n .down).linkLoss n 5 false else d.toDetect n

/-- LINK_CTL, OP 2. -/
def execLinkRetrain (q g : Nat) (s : State) : Host.Outcome State Fault Refusal :=
  runCmd 0x40 (fun c => lcOp c == 2) lcMasks linkCtlBad (linkCtl (fun _ => true) Device.retrainPort) q g s

/-- LINK_CTL, OP 3 (16 R409). -/
def execLinkAllowLowPower (q g : Nat) (s : State) : Host.Outcome State Fault Refusal :=
  runCmd 0x40 (fun c => lcOp c == 3) lcMasks linkCtlBad (linkCtl (fun l => decide (l.st ≠ .disabled)) fun d n => d.modLink n fun l => { l with allowed := true }) q g s

/-- LINK_CTL, OP 4 (16 R409): a port in a lower state comes back. -/
def execLinkHoldRun (q g : Nat) (s : State) : Host.Outcome State Fault Refusal :=
  runCmd 0x40 (fun c => lcOp c == 4) lcMasks linkCtlBad
    (linkCtl (fun l => decide (l.st ≠ .disabled)) fun d n => (d.modLink n fun l => { l with allowed := false }).wakeLink n true true) q g s

def linkStatusBody (c : Cmd) (d : Device) : Device :=
  let n := fld (c.pw 1) 0 4
  let l := d.link n
  d.finish c (cpl .success (pack [(l.st.code, 0), (l.lanes.toNat, 8), (l.partner.toNat, 32)]) (d.counter 0x50 n).word (d.counter 0x51 n).word)

/-- LINK_STATUS. -/
def execLinkStatus (q g : Nat) (s : State) : Host.Outcome State Fault Refusal :=
  runCmd 0x41 anyKind (fun _ => [bits [(0, 4)]]) (fun c d => firstBad [(!d.linkOn (fld (c.pw 1) 0 4), 8)]) linkStatusBody q g s

/-- Every port is checked again: one that is no longer MISCABLED is admitted, one that has become so leaves RUN (16 R408). -/
def Device.recheckPort (d : Device) (n : Nat) : Device :=
  let l := d.link n
  let bad := d.badCable n
  if l.live then (if bad then (d.setLink n { l with miscabled := true }).linkLoss n 6 false else d)
  else if l.st = .admitted then (d.setLink n { l with miscabled := bad }).admitPort n
  else d

def routeSetBody (c : Cmd) (d : Device) : Device :=
  let own : BitVec 18 := BitVec.ofNat 18 (fld (c.pw 2) 0 18)
  if fld (c.pw 2) 32 16 ≠ 1 then d.finish c (cplStruct 8 0)
  else if !d.bad.colls.isEmpty then d.finish c (cplOf .busy)
  else
    match d.addrRead true (c.pw 1) 8 with
    | (.success, l, d) =>
      let w : Word := BitVec.ofNat 64 (leNat l)
      let s := (fld w 0 4, fld w 4 4, fld w 8 5, fld w 13 5)
      if fld w 56 8 ≠ 1 ∨ fld w 18 38 ≠ 0 then d.finish c (cplStruct 8 0)
      else if !inShape s own then d.finish c (cplBad 16)
      else
        let d := { d with bad := { d.bad with shape := some s, addr := some own } }
        (d.portsOn.foldl Device.recheckPort d).finish c (cplOf .success)
    | (st, _, d) => d.finish c (cplAns st 8)

/-- ROUTE_SET (16 R413, R414). -/
def execRouteSet (q g : Nat) (s : State) : Host.Outcome State Fault Refusal :=
  runCmd 0x42 anyKind (fun c => [addrBits (c.pw 1), bits [(0, 18), (32, 16)]]) noBad routeSetBody q g s

end Sys2Proof.Machine
end

