-- ==== Sys2Proof/Machine/Coll.lean ====
section
/-! DEFINITION. Collectives over the Badosa links (16 R417-R420): COLLECTIVE_SETUP, the engines' sending, and the packets they receive. -/

namespace Sys2Proof.Machine

/-! ## COLLECTIVE_SETUP (16 R417) -/

/-- The descriptor's fields are well-formed: kinds, formats, sizes, reserved bytes. -/
def collForm (l : List Byte) : Bool :=
  let kind := leAt l 0 1
  let fmt := leAt l 1 1
  let op := leAt l 2 1
  let n := leAt l 3 1
  let seg := leAt l 32 4
  decide (kind ≤ 3) && zeros l 5 3 && zeros l 30 2 && zeros l 36 4 && zeros l 48 16 &&
  (if kind = 2 then (fmt == 3 || fmt == 7 || fmt == 8) && decide (op ≤ 2) else fmt == 0 && op == 0) &&
  decide (2 ≤ n) && decide (n ≤ 64) && (kind != 1 || n == 2) && decide (leAt l 4 1 < n) && seg % 128 == 0 && seg != 0

/-- The descriptor of a tear-down holds nothing in its reserved bytes, FMT and OP (16 R417). -/
def tearForm (l : List Byte) : Bool := leAt l 1 1 == 0 && leAt l 2 1 == 0 && zeros l 5 3 && zeros l 30 2 && zeros l 36 4 && zeros l 48 16

/-- The members of a list, or the first entry with a reserved bit set. -/
def membersOf (l : List Byte) (n : Nat) : Except Nat (List (BitVec 18)) :=
  let w := (List.range n).map fun i => leAt l (4 * i) 4
  match firstBadIdx (fun x => decide (2 ^ 18 ≤ x)) w with
  | some i => .error i
  | none => .ok (w.map (BitVec.ofNat 18))

/-- The window, the member list and the queues of a descriptor. -/
def Device.collPlaces (d : Device) (l : List Byte) : Option (Nat × Nat × Nat) :=
  let kind := leAt l 0 1
  let send := kind == 1
  let recv := send && leAt l 4 1 == 1
  let win := leAt l 8 8
  let wlen := leAt l 16 8
  let seg := leAt l 32 4
  let mem := leAt l 40 8
  let winOk := !send || (wlen % seg == 0 && wlen != 0 && decide (wlen ≤ 0x2000000))
  let baseOk := !recv || (win % 512 == 0 && decide (win < 2 ^ 44) && d.dramRange win wlen)
  let memOk := mem % 64 == 0 && decide (mem < 2 ^ 44) && d.dramRange mem (4 * leAt l 3 1)
  let q := fun (used : Bool) (at_ : Nat) =>
    if used then (if leAt l at_ 2 < 16384 then d.physQueue (leAt l at_ 2) else none) else some 0
  if winOk && baseOk && memOk then
    match q (!recv) 24, q true 26, q (send && !recv) 28 with
    | some a, some b, some c => some (a, b, c)
    | _, _, _ => none
  else none

/-- The port whose engine serves a collective: the first one on the route to the successor (16 R417). -/
def Device.collPort (d : Device) (dest : BitVec 18) : Except Status Nat :=
  match d.bad.addr, d.bad.shape with
  | some a, some s =>
    if !inShape s dest then .error .routeUnreachable
    else
      match dirsTo s a dest with
      | [] => .error .routeUnreachable
      | dir :: _ =>
        match d.portsUp dir with
        | [] => .error .linkDown
        | n :: _ => .ok n
  | _, _ => .error .routeUnreachable

/-- Collectives other than number c that an engine serves. -/
def Device.collsAt (d : Device) (c n : Nat) : Nat := (d.bad.colls.filter (fun (e : Nat × Coll) => e.1 != c && e.2.port == n)).length

def collectiveSetupBody (c : Cmd) (d : Device) : Device :=
  let num := fld (c.pw 2) 0 8
  match d.addrRead true (c.pw 1) 64 with
  | (.success, l, d) =>
    if leAt l 0 1 = 0 then
      if !tearForm l then d.finish c (cplStruct 9 0)
      else ({ d with bad := { d.bad with colls := Sparse.del d.bad.colls num } }).finish c (cplOf .success)
    else if !collForm l then d.finish c (cplStruct 9 0)
    else
      match d.collPlaces l with
      | none => d.finish c (cplStruct 9 0)
      | some (src, dst, free) =>
        match d.agentRead (leAt l 40 8) (4 * leAt l 3 1) with
        | (.success, ml, d) =>
          (match membersOf ml (leAt l 3 1) with
           | .error i => d.finish c (cplStruct 9 i)
           | .ok ms =>
             match d.collPort (ms.getD ((leAt l 4 1 + 1) % leAt l 3 1) 0) with
             | .error st => d.finish c (cplOf st)
             | .ok n =>
               if 16 ≤ d.collsAt num n then d.finish c (cplOf .noResource)
               else
                 (d.setColl num {
                   kind := leAt l 0 1, fmt := leAt l 1 1, op := leAt l 2 1, n := leAt l 3 1, pos := leAt l 4 1
                   window := leAt l 8 8, wlen := leAt l 16 8, seg := leAt l 32 4, srcq := src, dstq := dst, freeq := free
                   members := ms, port := n, failed := false, entry := none, credit := false, pushed := false, slot := 0
                   sentTo := 0, got := [], unacked := [], resend := [], nextTag := 0, out := [] }).finish c (cplOf .success))
        | (st, _, d) => d.finish c (cplAns st 8)
  | (st, _, d) => d.finish c (cplAns st 8)

/-- COLLECTIVE_SETUP. -/
def execCollectiveSetup (q g : Nat) (s : State) : Host.Outcome State Fault Refusal :=
  runCmd 0x43 anyKind (fun c => [addrBits (c.pw 1), bits [(0, 8)]]) (fun c _ => firstBad [(decide (63 < fld (c.pw 2) 0 8), 16)]) collectiveSetupBody q g s

/-! ## Sending (16 R418, R419) -/

/-- n bytes of a handle's buffer, read as one act (log entry 18). -/
def Device.bufRead (d : Device) (a n : Nat) : Status × List Byte × Device :=
  match placeOf a with
  | .tile t off =>
    if !d.tileOn t then (.invalidParam, [], d)
    else if (d.tile t).badIn off n then (.memoryUncorrectable, [], d)
    else (.success, (upFrom off n).map (d.tileByte t), d)
  | _ => d.agentRead a n

/-- Bytes a collective sends of its entry: a SEND the handle's buffer, a ring N - 1 segments. -/
def Coll.total (x : Coll) : Nat :=
  if x.kind = 1 then (match x.entry with | some e => if entryKind e = 1 then 0 else (handleBuf e).2 | none => 0) else (x.n - 1) * x.seg

/-- The segment a ring sends in step j, counted from 1 (16 R419). -/
def Coll.segOf (x : Coll) (j : Nat) : Nat := if x.kind = 2 then (x.pos + x.n - j) % x.n else (x.pos + 1 + x.n - j) % x.n

/-- The step in which a segment arrives; 0 for the one that never does. -/
def Coll.stepOf (x : Coll) (s : Nat) : Nat := if x.kind = 2 then (x.pos + 2 * x.n - 1 - s) % x.n else (x.pos + x.n - s) % x.n

/-- The next piece: its place in the buffer, its offset for the packet, and its length; none while it may not go yet. -/
def Coll.piece (x : Coll) (e : Word) : Option (Nat × Nat × Nat) :=
  let b := x.sentTo
  if x.total ≤ b then none
  else if x.kind = 1 then
    (if x.credit then some ((handleBuf e).1 + b, x.slot * x.seg + b, min 512 (x.total - b)) else none)
  else
    let j := b / x.seg + 1
    let off := x.segOf j * x.seg + b % x.seg
    let len := min 512 (x.seg - b % x.seg)
    let ready := j == 1 || (upFrom ((b - x.seg) / 128) (len / 128)).all fun u => has x.got u
    if ready then some ((handleBuf e).1 + off, off, len) else none

/-- A tag no packet of the collective waits under. -/
def freeTag16 (l : List (BitVec 16 × LPkt)) (t : BitVec 16) : Nat → BitVec 16
  | 0 => t
  | n + 1 => if l.any (fun e => e.1 == t) then freeTag16 l (t + 1) n else t

/-- The member after this one. -/
def Coll.successor (x : Coll) : BitVec 18 := x.members.getD ((x.pos + 1) % x.n) 0

/-- A packet of collective c goes out and waits for its RACK. -/
def Device.sendColl (d : Device) (c : Nat) (x : Coll) (kind off : Nat) (pay : List (BitVec 1024)) : Device :=
  let t := freeTag16 x.unacked x.nextTag 65536
  let p := mkLPkt kind x.successor (d.bad.addr.getD 0) t c (off / 128) pay
  let d := d.setColl c { x with unacked := x.unacked ++ [(t, p)], nextTag := t + 1 }
  match d.wayOf p with
  | .port e => d.handOver x.port e p false
  | .here => d.modLink x.port fun l => { l with rxq := l.rxq ++ [(false, p)] }
  | .unreachable => d.collFail c .routeUnreachable

/-- Every piece that may go goes, in ascending order (16 R419). -/
def Device.sendPieces (c : Nat) : Nat → Device → Device
  | 0, d => d
  | f + 1, d =>
    match d.coll c with
    | none => d
    | some x =>
      if x.failed then d
      else
        match x.entry with
        | none => d
        | some e =>
          match x.piece e with
          | none => d
          | some (a, off, len) =>
            match d.bufRead a len with
            | (.success, l, d) =>
              Device.sendPieces c f
                (d.sendColl c { x with sentTo := x.sentTo + len } (if x.kind = 2 then kCDATA else kRWRITE) off
                  (flitsOf (l ++ List.replicate ((128 - len % 128) % 128) 0)))
            | (st, _, d) => d.collFail c st

/-- The entry is done with: a handle goes to DSTQ. -/
def Coll.done (x : Coll) (back : List Word) : Coll :=
  { x with entry := none, credit := false, pushed := false, sentTo := 0, got := [], out := x.out ++ back }

/-- What follows once everything sent is acknowledged: a SEND's RPUSH, or the end of the entry (16 R418, R419). -/
def Device.collEnd (d : Device) (c : Nat) : Device :=
  match d.coll c with
  | none => d
  | some x =>
    match x.entry with
    | none => d
    | some e =>
      if x.failed || !x.unacked.isEmpty || !x.resend.isEmpty || decide (x.sentTo < x.total) then d
      else if x.kind = 1 then
        (if x.pushed then
           d.setColl c (if entryKind e = 1 then x.done [] else { x.done [e] with slot := (x.slot + 1) % (x.wlen / x.seg) })
         else if entryKind e = 1 || x.credit then d.sendColl c { x with pushed := true } kRPUSH 0 [BitVec.ofNat 1024 e.toNat]
         else d)
      else if x.got.length * 128 = x.total then d.setColl c (x.done [e])
      else d

/-- A collective goes on as far as it can. -/
def Device.collGo (d : Device) (c : Nat) : Device :=
  let n := ((d.coll c).map (fun x => x.total / 128)).getD 0
  Device.flushColl c 300 ((Device.sendPieces c (n + 1) d).collEnd c)

/-- An entry taken from SRCQ that the collective can serve: a SEND's token or handle of at most SEG bytes; a ring's DRAM handle (log entry 51). -/
def Coll.fits (x : Coll) (e : Word) : Bool :=
  if x.kind = 1 then entryKind e == 1 || decide ((handleBuf e).2 ≤ x.seg) else entryKind e == 3

/-- COLLECTIVE_SRC_POP: the engine takes the next entry of SRCQ, and for a SEND's handle an entry of FREEQ (16 R418, R419). -/
def collectiveSrcPop (c : Nat) (d : Device) : Device :=
  match d.coll c with
  | none => d
  | some x =>
    if x.failed ∨ (x.kind = 1 ∧ x.pos = 1) then Device.flushColl c 300 d
    else
      let d := match x.entry with
        | some _ => d
        | none =>
          match d.popNow x.srcq with
          | none => d
          | some (e, d) =>
            let d := d.setColl c { x with entry := some e }
            if x.fits e then d else d.collFail c .invalidParam
      let d := match d.coll c with
        | none => d
        | some x =>
          match x.entry with
          | none => d
          | some e =>
            if x.kind = 1 ∧ !x.credit ∧ !x.failed ∧ entryKind e ≠ 1 then
              match d.popNow x.freeq with
              | none => d
              | some (_, d) => d.setColl c { x with credit := true }
            else d
      d.collGo c

def execCollectiveSrcPop (c : Nat) (s : State) : Host.Outcome State Fault Refusal := runUnitC (decide (c < 64)) (collectiveSrcPop c) s

/-! ## Receiving (16 R417-R420) -/

/-- The oldest packet of a kind's class that waits at engine n, if it is of that kind, taken. -/
def Device.takeRx (d : Device) (n kind : Nat) : Option (LPkt × Device) :=
  let l := d.link n
  match takeFirst (fun (e : Bool × LPkt) => (e.2.kind == kRACK) == (kind == kRACK)) l.rxq with
  | some ((inRx, p), rest) =>
    if p.kind = kind then
      let d := d.setLink n { l with rxq := rest }
      some (p, if inRx then d.freeRx n p else d)
    else none
  | none => none

/-- A packet taken at engine n meets its collective: one that is not set up answers NOT_READY, one that has FAILED serves nothing more. -/
def Device.onColl (d : Device) (n kind : Nat) (f : LPkt → Coll → Device → Device) : Device :=
  match d.takeRx n kind with
  | none => d
  | some (p, d) =>
    match d.coll p.coll with
    | none => d.sendRack n p .notReady
    | some x => if x.failed then d else f p x d

/-- One element combined with the local one: a saturating integer operation, or a floating one with one rounding (16 R419, 02 R40). -/
def collElem (fmt op : Nat) (a b : Nat) : Nat :=
  if fmt = 3 then
    (narrowInt 32 true (match op with | 0 => sext 32 a + sext 32 b | 1 => max (sext 32 a) (sext 32 b) | _ => min (sext 32 a) (sext 32 b))).1
  else
    let x := (floatFmt fmt).decode a
    let y := (floatFmt fmt).decode b
    let r := match op with | 0 => x.addX y | 1 => (fmaxmin true x y).1 | _ => (fmaxmin false x y).1
    if fmt = 8 then r.rnd32.code32.toNat else (narrow fmtBF16 false r).1

/-- Received bytes combined with local ones. -/
def collCombine (fmt op : Nat) (new old : List Byte) : List Byte :=
  let w := if fmt = 7 then 2 else 4
  (List.range (new.length / w)).flatMap fun i => leBytes w (collElem fmt op (leAt new (w * i) w) (leAt old (w * i) w))

/-- A piece of a ring arrives (16 R419). One whose place has not been freed since the entry before waits: NOT_READY. -/
def ringPiece (n : Nat) (p : LPkt) (x : Coll) (d : Device) : Device :=
  let off := 128 * p.offset
  let len := 128 * p.flits
  let s := off / x.seg
  let j := x.stepOf s
  let u := upFrom (((j - 1) * x.seg + off % x.seg) / 128) p.flits
  match x.entry with
  | none => d.sendRack n p .notReady
  | some e =>
    if x.n ≤ s ∨ j = 0 ∨ x.seg < off % x.seg + len then d.sendRack n p .invalidParam
    else if u.any (has x.got) then d.sendRack n p .notReady
    else
      let a := (handleBuf e).1 + off
      let data := bytesOf p.pay
      let r := if x.kind = 2 then
          (match d.agentRead a len with
           | (.success, l, d) => d.agentWrite a (collCombine x.fmt x.op data l)
           | (st, _, d) => (st, d))
        else d.agentWrite a data
      match r with
      | (.success, d) => ((d.setColl p.coll { x with got := u.foldl (fun l k => insNat k l) x.got }).sendRack n p .success).collGo p.coll
      | (st, d) => d.sendRack n p st

/-- RWRITE: into a SEND receiver's window, or a piece of an ALL_GATHER. -/
def rwrite (n : Nat) (d : Device) : Device :=
  d.onColl n kRWRITE fun p x d =>
    if x.kind = 3 then ringPiece n p x d
    else if x.kind = 1 ∧ x.pos = 1 ∧ 128 * p.offset + 128 * p.flits ≤ x.wlen then
      let r := d.agentWrite (x.window + 128 * p.offset) (bytesOf p.pay)
      r.2.sendRack n p r.1
    else d.sendRack n p .invalidParam

def execRwrite (n : Nat) (s : State) : Host.Outcome State Fault Refusal := runUnitC (decide (n < nPorts)) (rwrite n) s

/-- CDATA: a piece of a REDUCE_SCATTER. -/
def cdata (n : Nat) (d : Device) : Device :=
  d.onColl n kCDATA fun p x d => if x.kind = 2 then ringPiece n p x d else d.sendRack n p .invalidParam

def execCdata (n : Nat) (s : State) : Host.Outcome State Fault Refusal := runUnitC (decide (n < nPorts)) (cdata n) s

/-- The DRAM handle that names the receiver's slot and the length (16 R418). GEN is open, and so is a length that no handle can hold (log entry 51). -/
def Device.slotHandle (d : Device) (x : Coll) (e : Word) : Word × Device :=
  let len := (handleBuf e).2 / 64
  let r := d.fresh 16
  let q := r.2.fresh 13
  let l := if len ≤ 8191 then len else q.1.toNat
  (pack [(3, 62), ((x.window + x.slot * x.seg) / 64, 29), (l, 16), (r.1.toNat, 0)], if len ≤ 8191 then r.2 else q.2)

/-- RPUSH: a token, or the handle of a filled slot, is pushed to DSTQ; with no room there the sender is answered NOT_READY. -/
def rpush (n : Nat) (d : Device) : Device :=
  d.onColl n kRPUSH fun p x d =>
    let e : Word := BitVec.ofNat 64 ((p.pay.headD 0).toNat % 2 ^ 64)
    if x.kind ≠ 1 ∨ x.pos ≠ 1 ∨ !validEntry e then d.sendRack n p .invalidParam
    else if validToken e then
      match d.pushNow x.dstq e with
      | some d => d.sendRack n p .success
      | none => d.sendRack n p .notReady
    else
      let h := d.slotHandle x e
      match h.2.pushNow x.dstq h.1 with
      | some d => (d.setColl p.coll { x with slot := (x.slot + 1) % (x.wlen / x.seg) }).sendRack n p .success
      | none => d.sendRack n p .notReady

def execRpush (n : Nat) (s : State) : Host.Outcome State Fault Refusal := runUnit (decide (n < nPorts)) (rpush n) s

/-- RACK: the packet with its tag is acknowledged, is to be resent, or fails its collective (16 R417, R420). -/
def rack (n : Nat) (d : Device) : Device :=
  match d.takeRx n kRACK with
  | none => d
  | some (p, d) =>
    match d.coll p.coll with
    | none => d
    | some x =>
      match x.unacked.find? (fun e => e.1 == p.tag) with
      | none => d
      | some (t, k) =>
        let y := { x with unacked := x.unacked.filter (fun e => e.1 != t) }
        let st := Status.ofCode (fld p.hdr 0 8)
        if x.failed then d
        else if st = .success then (d.setColl p.coll y).collGo p.coll
        else if st = .notReady then d.setColl p.coll { y with resend := y.resend ++ [k] }
        else (d.setColl p.coll y).collFail p.coll st

def execRack (n : Nat) (s : State) : Host.Outcome State Fault Refusal := runUnitC (decide (n < nPorts)) (rack n) s

/-- RACK_RESEND_TIMER: 10 µs after NOT_READY the packets go out again (16 R417). -/
def rackResendTimer (c : Nat) (d : Device) : Device :=
  match d.coll c with
  | none => d
  | some x =>
    let d := d.setColl c { x with resend := [], unacked := x.unacked ++ x.resend.map fun p => (p.tag, p) }
    x.resend.foldl (fun d p =>
      match d.wayOf p with
      | .port e => d.handOver x.port e p false
      | .here => d.modLink x.port fun l => { l with rxq := l.rxq ++ [(false, p)] }
      | .unreachable => d.collFail c .routeUnreachable) d

def execRackResendTimer (c : Nat) (s : State) : Host.Outcome State Fault Refusal := runUnit (decide (c < 64)) (rackResendTimer c) s

/-- COLLECTIVE_RACK_TIMEOUT: no RACK has come within 10 ms (16 R420). -/
def collectiveRackTimeout (c : Nat) (d : Device) : Device :=
  match d.coll c with
  | none => d
  | some x => if x.unacked.isEmpty then d else d.collFail c .timeout

def execCollectiveRackTimeout (c : Nat) (s : State) : Host.Outcome State Fault Refusal := runUnit (decide (c < 64)) (collectiveRackTimeout c) s

end Sys2Proof.Machine
end

