-- ==== Sys2Proof/Machine/FabConfig.lean ====
section
/-! DEFINITION. The configuration controllers (12): frames and their signatures, images and their checks, full and partial loads, start-up,
PATCH_CLEAR, CAPTURE, READBACK, scrubbing, and GPIO_CTL (11 R301). -/

namespace Sys2Proof.Machine

/-! ## Frames (12 R302-R306) -/

def faDie (a : Nat) : Nat := a / 2 ^ 29 % 8
def faType (a : Nat) : Nat := a / 2 ^ 27 % 4
def faPatch (a : Nat) : Nat := a / 2 ^ 23 % 16
def faIndex (a : Nat) : Nat := a % 2 ^ 23

/-- Frames of a type in a region: a patch or the static region (12 R303). -/
def frameCount (type : Nat) (static : Bool) : Nat :=
  match type with
  | 0 => if static then 10008 else 5008
  | 1 => if static then 4608 else 2880
  | 2 => if static then 63 else 32
  | _ => 0

/-- The region a frame address names; none for a reserved PATCH value. -/
def faRegion (a : Nat) : Option Nat :=
  if faPatch a = 15 then some (9 * faDie a + 8) else if faPatch a < 8 then some (9 * faDie a + faPatch a) else none

/-- The address of a frame of region g. -/
def faOf (g type i : Nat) : Nat := (g / 9) * 2 ^ 29 + type * 2 ^ 27 + (if g % 9 = 8 then 15 else g % 9) * 2 ^ 23 + i

/-- The frame lies in a range of R303. -/
def faOk (a : Nat) : Bool := decide (faType a < 3) && (faRegion a).isSome && decide (faIndex a < frameCount (faType a) (faPatch a == 15))

/-- The 512 bytes of a frame as they stand. -/
def Device.frame (d : Device) (a : Nat) : List Byte := d.fab.cfg.read (512 * a) 512

/-- A frame written. -/
def Device.setFrame (d : Device) (a : Nat) (l : List Byte) : Device := { d with fab := { d.fab with cfg := d.fab.cfg.write (512 * a) l } }

/-- Every frame of a region becomes zero. -/
def Device.clearFrames (d : Device) (g : Nat) : Device :=
  { d with fab := { d.fab with cfg := d.fab.cfg.filter fun (e : Nat × Byte) => decide (faRegion (e.1 / 512) ≠ some g) } }

/-! ## Signatures of frames (12 R326) -/

/-- Columns of tufts of a region, and the first bit in its column's stream of frame m of the column (12 R304). -/
def tuftsIn (g : Nat) : Nat := 160 * (if g % 9 = 8 then 200 else 100)

/-- The tuft and the bit in it of bit b of type-0 frame i; none in the region frames. -/
def tuftBit (g i b : Nat) : Option (Nat × Nat) :=
  if i < tuftsIn g / 160 * 50 then
    let s := 4096 * (i % 50) + b
    some (160 * (i / 50) + s / 1280, s % 1280)
  else none

/-- Bit b of frame i is masked: it is a TABLE bit of a cell that the image sets to shift-register mode. -/
def Region.masked (x : Region) (g i b : Nat) : Bool :=
  match tuftBit g i b with
  | some (n, t) => decide (t < 128) && bitAt (Sparse.get 0 x.masks n) (t / 16)
  | none => false

/-- The bytes of frame i with masked bits taken from another frame's bytes. -/
def Region.merge (x : Region) (g i : Nat) (new keep : List Byte) : List Byte :=
  ((new.zip keep).zipIdx).map fun e =>
    BitVec.ofNat 8 ((List.range 8).foldl (fun a j =>
      a + b2n (bitAt (if x.masked g i (8 * e.2 + j) then e.1.2 else e.1.1) j) * 2 ^ j) 0)

/-- The masked signature of frame i with these bytes. -/
def Region.signature (x : Region) (g i : Nat) (l : List Byte) : BitVec 16 :=
  BitVec.ofNat 16 ((x.merge g i l (List.replicate 512 0)).foldl sigByte 0xFFFF)

/-- The mask bits and golden signatures of a region, from its type-0 frames. Which cells a frame sets to shift-register mode is in bits whose
places no rule states (log entry 3). -/
def Region.sign (x : Region) (g : Nat) (frames : Nat → List Byte) : Region :=
  let n := frameCount 0 (g % 9 == 8)
  let m := (List.range n).foldl (fun (m : Sparse Byte) i =>
    ((List.range 4096).filterMap (fun b => (tuftBit g i b).map (·.1))).eraseDups.foldl (fun m t =>
      Sparse.put 0 m t (Sparse.get 0 m t ||| Config.srCells (frames i) t)) m) []
  let y := { x with masks := m }
  { y with golden := (List.range n).foldl (fun s i => Sparse.put 0 s i (y.signature g i (frames i))) [] }

/-! ## Images (12 R307-R312) -/

def hdrEnc (h : List Byte) : Bool := bitAt (h.getD 7 0) 0
def hdrReadback (h : List Byte) : Bool := bitAt (h.getD 7 0) 1
def hdrCapture (h : List Byte) : Bool := bitAt (h.getD 7 0) 2
def hdrSig (h : List Byte) : Nat := leAt h 0x24 4

/-- Section entry i: OFFSET, LENGTH, DIE byte, DIGEST. -/
def secOffset (h : List Byte) (i : Nat) : Nat := leAt h (0x40 + 48 * i) 4
def secLen (h : List Byte) (i : Nat) : Nat := leAt h (0x44 + 48 * i) 4
def secDie (h : List Byte) (i : Nat) : Nat := leAt h (0x48 + 48 * i) 1 % 8
def secValid (h : List Byte) (i : Nat) : Bool := decide (128 ≤ leAt h (0x48 + 48 * i) 1)
def secDigest (h : List Byte) (i : Nat) : List Byte := (h.drop (0x50 + 48 * i)).take 32

/-- Valid entries. -/
def secValids (h : List Byte) : List Nat := (List.range 8).filter (secValid h)

/-- Two byte ranges do not overlap. -/
def apartRanges (a n b m : Nat) : Bool := decide (a + n ≤ b) || decide (b + m ≤ a)

/-- The header and the placement of the sections (12 R307, R308), for an image of KIND kind within len bytes. -/
def imageForm (kind : Nat) (h : List Byte) (len : Nat) : Bool :=
  let v := secValids h
  let sig := hdrSig h
  leAt h 0 4 == 0xAE17F1B0 && leAt h 4 2 == 1 && leAt h 6 1 == kind && decide (leAt h 7 1 < 8) && zeros h 0x28 24 && zeros h 0x1C0 64 &&
  (if hdrEnc h then leAt h 0x23 1 == 0 else zeros h 0x18 12) &&
  sig % 64 == 0 && decide (0x200 ≤ sig) && decide (sig + 1280 ≤ len) &&
  (List.range 8).all (fun i => leAt h (0x48 + 48 * i) 1 / 8 % 16 == 0 && zeros h (0x49 + 48 * i) 7) &&
  v.all (fun i => secOffset h i % 64 == 0 && secLen h i % 4 == 0 && decide (0x200 ≤ secOffset h i) &&
    decide (secOffset h i + secLen h i ≤ len) && apartRanges (secOffset h i) (secLen h i) sig 1280) &&
  v.all (fun i => v.all fun j => i == j || (secDie h i != secDie h j && apartRanges (secOffset h i) (secLen h i) (secOffset h j) (secLen h j)))

/-- Words of a section's start: SYNC, PLACE, FRAME_COUNT, FCLK, reserved. -/
def secWord (l : List Byte) (i : Nat) : Nat := leAt l (4 * i) 4

/-- The FCLK field of region number n (8: the static region). -/
def fclkOf (w n : Nat) : Nat := w / 4 ^ n % 4

/-- Region numbers on the die that a section starts. -/
def startsOf (w : Nat) : List Nat := (List.range 9).filter fun n => fclkOf w n != 0

/-- The first words of a section for die k agree with R309 and R311; target 15 or the one patch. -/
def Device.secStart (d : Device) (k target : Nat) (enc : Bool) (len : Nat) (l : List Byte) : Bool :=
  let place := secWord l 1
  let w := secWord l 3
  secWord l 0 == 0xAE175C0F && place == k * 2 ^ 29 + target * 2 ^ 23 && decide (1 ≤ secWord l 2) && decide (w < 2 ^ 18) && secWord l 4 == 0 &&
  len == 4 * (5 + 129 * secWord l 2 + (if enc then 4 else 0) + 2) &&
  (startsOf w).all (fun n => d.regionOn (9 * k + n)) &&
  (if target = 15 then fclkOf w 8 != 0 else (startsOf w).all (fun n => n == target))

/-- Bytes of an image, from DRAM or the boot flash. -/
def Device.srcRead (d : Device) (flash : Bool) (a n : Nat) : Status × List Byte × Device :=
  if flash then (.success, d.flashRead a n, d) else d.agentRead a n

/-- The load in progress on region g. -/
def Device.regionLoad (d : Device) (g : Nat) : Option Load :=
  d.fab.loads.find? fun l => l.die == g / 9 && (decide (l.kind = .full) || decide (l.region = some g))

/-- The tag of the command in progress on region g, a load or a CAPTURE that waits for its patch to wake; 0 where firmware loads the base image
(12 R320, 08 R200). -/
def Device.regionHolder (d : Device) (g : Nat) : Option (BitVec 16) :=
  match d.regionLoad g with
  | some l => some ((l.cmd.map fun c => holderTag c.1 c.2).getD 0)
  | none => (d.fab.captures.find? (fun c => c.2.2 == g)).map fun c => holderTag c.1 c.2.1

/-- A fabric command is in progress on region g (12 R320). -/
def Device.regionBusy (d : Device) (g : Nat) : Bool := (d.regionHolder g).isSome

/-- REGION_BUSY with that tag in DETAIL (08 R200). -/
def Device.cplRegion (d : Device) (g : Nat) : Cpl := { cplOf .regionBusy with detail := (d.regionHolder g).getD 0 }

/-- For each die its section's entry, where the section's first words agree with R309 and R311 (12 R312). -/
def Device.checkSections (flash : Bool) (a target : Nat) (h : List Byte) : List Nat → Device → Except Cpl (List (Nat × Nat)) × Device
  | [], d => (.ok [], d)
  | k :: r, d =>
    match (secValids h).find? (fun i => secDie h i == k) with
    | none => (.error (cplStruct 7 0), d)
    | some i =>
      match d.srcRead flash (a + secOffset h i) 20 with
      | (.success, l, d) =>
        if d.secStart k target (hdrEnc h) (secLen h i) l then
          match Device.checkSections flash a target h r d with
          | (.ok t, d) => (.ok ((k, i) :: t), d)
          | e => e
        else (.error (cplStruct 7 0), d)
      | (st, _, d) => (.error (cplAns st 8), d)

/-- The checks of R312 up to the version, for KIND kind and the dies (or the patch) named: the header, and for each die the entry that describes
its section. -/
def Device.checkImage (d : Device) (kind : Nat) (flash : Bool) (a len : Nat) (dies : List Nat) (target : Nat) :
    Except Cpl (List Byte × List (Nat × Nat)) × Device :=
  if len < 0x200 then (.error (cplStruct 7 0), d)
  else
    match d.srcRead flash a 0x200 with
    | (.success, h, d) =>
      if !imageForm kind h len || (kind == 1 && (secValids h).length != 1) then (.error (cplStruct 7 0), d)
      else
        match Device.checkSections flash a target h dies d with
        | (.error p, d) => (.error p, d)
        | (.ok ents, d) =>
          if hdrEnc h && d.fuses.ownerAes.isEmpty then (.error (cplOf .authFailed), d)
          else
            match d.srcRead flash (a + hdrSig h) 1280 with
            | (.success, sig, d) =>
              if !d.contentKeys.any (fun key => sigOk key lblImg h sig) then (.error (cplOf .signatureInvalid), d)
              else if leAt h 8 8 < d.svc then (.error (cplOf .rollback), d)
              else (.ok (h, ents), d)
            | (st, _, d) => (.error (cplAns st 8), d)
    | (st, _, d) => (.error (cplAns st 8), d)

/-! ## Clearing -/

/-- A region as its clear leaves it: period and pause stay, and so do the values of the isolation cells; everything the image gave is gone (12 R313, R315). -/
def Region.cleared (x : Region) (st : RegState) : Region :=
  { x with
    st := st, fclk := 0, enc := false, readbackOk := false, captureOk := false, captured := false, unverified := false, passing := false
    passDue := false, frame := 0, reread := false, golden := [], masks := [], source := none, first := 0, iv := [], digest := [], lock := false
    gsr := true, writesOn := false, ffs := [] }

/-- The pads of a static region lose their options (11 R301). -/
def Device.dropPads (d : Device) (g : Nat) : Device :=
  if g % 9 = 8 then { d with fab := { d.fab with pads := d.fab.pads.filter fun (e : Nat × PadOpt) => e.1 / 8 != g / 9 } } else d

/-- The clear of a region begins: isolation engages, scrubbing and the DLL stop. -/
def Device.beginClear (d : Device) (g : Nat) : Device :=
  if d.regionOn g then ((d.isolate g).modRegion g (fun x => x.cleared .clearing)).dropPads g else d

/-- The regions of die k. -/
def dieRegions (k : Nat) : List Nat := upFrom (9 * k) 9

/-- The regions a load works on. -/
def Load.regions (l : Load) : List Nat :=
  match l.region with
  | some g => [g]
  | none => dieRegions l.die

def Device.setLoads (d : Device) (l : List Load) : Device := { d with fab := { d.fab with loads := l } }

/-- A load replaced, or taken off. -/
def Device.putLoad (d : Device) (old : Load) (new : Option Load) : Device :=
  d.setLoads (d.fab.loads.filterMap fun x => if x = old then new else some x)

/-- A FABRIC_LOAD's completion (12 R314): the masks of dies started and failed; the status of the lowest-numbered die that failed. -/
def FabCmd.answer (c : FabCmd) : Cpl :=
  let mask := fun (l : List Nat) => l.foldl (fun a k => a + 2 ^ k) 0
  let r0 := pack [(mask c.started, 0), (mask (c.failed.map (·.1)), 8)]
  match c.failed with
  | [] => cpl .success r0 0 0
  | x :: l =>
    let f := l.foldl (fun a y => if y.1 < a.1 then y else a) x
    { cpl f.2 r0 0 0 with detail := if f.2 = .invalidParam then 0x8007 else 0 }

/-- Die k of a FABRIC_LOAD has started or failed; with the last one the command completes. -/
def Device.dieDone (d : Device) (cmd : Option (Nat × Nat)) (k : Nat) (fail : Option Status) : Device :=
  match d.fab.cmds.find? (fun c => decide (c.cmd = cmd) && has c.left k) with
  | none => d
  | some c =>
    let c' := { c with
      left := delNat k c.left
      started := if fail.isNone then insNat k c.started else c.started
      failed := match fail with | some st => c.failed ++ [(k, st)] | none => c.failed }
    if c'.left.isEmpty then
      let d := { d with fab := { d.fab with cmds := d.fab.cmds.filter (fun x => x != c) } }
      match cmd with
      | some (q, g) => d.completeAfter q g c'.answer
      | none => d
    else { d with fab := { d.fab with cmds := d.fab.cmds.map fun x => if x = c then c' else x } }

/-- A load has ended: a die of a FABRIC_LOAD, or a command on one patch. -/
def Device.loadDone (d : Device) (l : Load) (fail : Option Status) : Device :=
  let d := d.putLoad l none
  match l.kind with
  | .full => d.dieDone l.cmd l.die fail
  | _ =>
    match l.cmd with
    | none => d
    | some (q, g) =>
      match fail with
      | none => d.completeAfter q g (cplOf .success)
      | some .invalidParam => d.completeAfter q g (cplStruct 7 0)
      | some st => d.completeAfter q g (cplOf st)

/-- A load fails (12 R313, R318, R319): in the verification pass the patch is left as it was; otherwise what the load has cleared is cleared again. -/
def Device.loadFail (d : Device) (l : Load) (st : Status) : Device :=
  if l.phase = .verifying then d.loadDone l (some st)
  else l.regions.foldl Device.beginClear (d.putLoad l (some { l with phase := .clearing, failing := some st }))

/-! ## FABRIC_LOAD, PATCH_LOAD, PATCH_CLEAR -/

/-- The dies of a FABRIC_LOAD begin: keepers and isolation engage, and each die's clear runs (12 R313). -/
def Device.fabricBegin (d : Device) (cmd : Option (Nat × Nat)) (flash : Bool) (a : Nat) (h : List Byte) (ents : List (Nat × Nat)) : Device :=
  let d := ents.foldl (fun d (e : Nat × Nat) =>
    let d := d.latchPads (upFrom (8 * e.1) 8)
    let d := (dieRegions e.1).foldl Device.beginClear d
    d.setLoads (d.fab.loads ++ [{
      cmd := cmd, kind := .full, die := e.1, flash := flash, sect := a + secOffset h e.2, len := secLen h e.2, hdr := h, entry := e.2
      phase := .clearing, taken := [], steps := [], started := [], failing := none }])) d
  { d with fab := { d.fab with cmds := d.fab.cmds ++ [⟨cmd, ents.map (·.1), [], []⟩] } }

/-- The parameters shared by FABRIC_LOAD and PATCH_LOAD. -/
def fabMasks (p3 : Word) (c : Cmd) : List Word := [addrBits (c.pw 1) &&& bits [(0, 44)], bits [(0, 32)], p3]

def fabricLoadBody (c : Cmd) (d : Device) : Device :=
  let a := intAddr (c.pw 1)
  let dies := (List.range nDies).filter fun k => (fld (c.pw 3) 0 8).testBit k
  match d.checkImage 0 false a (fld (c.pw 2) 0 32) dies 15 with
  | (.error p, d) => d.finish c p
  | (.ok (h, ents), d) =>
    match (dies.flatMap dieRegions).find? d.regionBusy with
    | some g => d.finish c (d.cplRegion g)
    | none =>
      if dies.isEmpty then d.finish c (cplOf .success)
      else (d.fabricBegin (some (c.q, c.tag.toNat)) false a h ents).running c

/-- An image lies at a multiple of 64 (12 R307). -/
def imageAt (c : Cmd) : Option Nat := firstBad [(intAddr (c.pw 1) % 64 != 0, 8)]

/-- FABRIC_LOAD (12 R312-R314). -/
def execFabricLoad (q g : Nat) (s : State) : Host.Outcome State Fault Refusal :=
  runCmd 0x30 anyKind (fabMasks (bits [(0, 8)])) (fun c _ => imageAt c) fabricLoadBody q g s

/-- The base image that firmware loads after READY (14 R379); an image that fails a check loads nothing. -/
def Device.baseLoad (d : Device) : Device :=
  let a := d.boot.fabBase.toNat
  let dies := (List.range nDies).filter fun k => bitAt d.boot.fabDies k
  if a = 0 ∨ dies.isEmpty then d
  else
    match d.checkImage 0 true a (0x10000000 - a) dies 15 with
    | (.error _, d) => d
    | (.ok (h, ents), d) => d.fabricBegin none true a h ents

/-- The region a PT operand names (08 R214), or the byte that is wrong with it. -/
def ptRegion (w : Word) : Except Nat Nat :=
  if bitAt w 6 then (if fld w 0 6 = 0 then .ok (9 * fld w 7 3 + 8) else .error 24)
  else if bitAt w 7 then .error 24
  else if fld w 8 2 ≠ 0 then .error 25
  else .ok (patchRegion (fld w 0 6))

/-- The region of a PT operand. -/
def ptG (w : Word) : Nat :=
  match ptRegion w with
  | .ok g => g
  | .error _ => 0

/-- The byte that is wrong with a PT operand: it names a region that the part has, and only a patch where static is refused. -/
def Device.ptBad (d : Device) (static : Bool) (w : Word) : Option Nat :=
  match ptRegion w with
  | .error off => some off
  | .ok g => if !d.regionOn g || (!static && g % 9 == 8) then some 24 else none

/-- Patch number of a patch's region. -/
def regionPatch (g : Nat) : Nat := 8 * (g / 9) + g % 9

def patchLoadBody (c : Cmd) (d : Device) : Device :=
  let a := intAddr (c.pw 1)
  let g := ptG (c.pw 3)
  match d.checkImage 1 false a (fld (c.pw 2) 0 32) [g / 9] (g % 9) with
  | (.error p, d) => d.finish c p
  | (.ok (h, ents), d) =>
    if d.regionBusy g then d.finish c (d.cplRegion g)
    else
      let i := ((ents.head?).map (·.2)).getD 0
      (d.setLoads (d.fab.loads ++ [{
        cmd := some (c.q, c.tag.toNat), kind := .patch (regionPatch g), die := g / 9, flash := false, sect := a + secOffset h i
        len := secLen h i, hdr := h, entry := i, phase := .verifying, taken := [], steps := [], started := [], failing := none }])).running c

/-- PATCH_LOAD (12 R318, R319). -/
def execPatchLoad (q g : Nat) (s : State) : Host.Outcome State Fault Refusal :=
  runCmd 0x31 anyKind (fabMasks (bits [(0, 10)])) (fun c d => minOff (imageAt c) (d.ptBad false (c.pw 3))) patchLoadBody q g s

def patchClearBody (c : Cmd) (d : Device) : Device :=
  let g := ptG (c.pw 3)
  if d.regionBusy g then d.finish c (d.cplRegion g)
  else
    let d := d.beginClear g
    (d.setLoads (d.fab.loads ++ [{
      cmd := some (c.q, c.tag.toNat), kind := .clear (regionPatch g), die := g / 9, flash := false, sect := 0, len := 0, hdr := [], entry := 0
      phase := .clearing, taken := [], steps := [], started := [], failing := none }])).running c

/-- PATCH_CLEAR (12 R321). -/
def execPatchClear (q g : Nat) (s : State) : Host.Outcome State Fault Refusal :=
  runCmd 0x32 anyKind (fun _ => [0, 0, bits [(0, 10)]]) (fun c d => d.ptBad false (c.pw 3)) patchClearBody q g s

/-! ## Events of a load -/

/-- The load of die k that is taken up next, of those in a phase of a set. -/
def Device.loadAt (d : Device) (k : Nat) (p : LoadPhase → Bool) : Option Load := d.fab.loads.find? (fun l => l.die == k && p l.phase)

/-- CONFIG_CLEAR_DONE: the 50 µs clear of a die or patch of die k ends (12 R313, R319, R321). -/
def configClearDone (k : Nat) (d : Device) : Device :=
  match d.loadAt k (fun p => decide (p = .clearing)) with
  | none => d
  | some l =>
    let gs := l.regions.filter d.regionOn
    let d := gs.foldl Device.clearFrames d
    let d := gs.foldl (fun d g => d.modRegion g fun x => { x with st := .blank }) d
    match l.failing with
    | some st => d.loadDone l (some st)
    | none =>
      match l.kind with
      | .clear p =>
        (d.measure 8 k 0 [] (BitVec.ofNat 64 p) (Config.shake256 (List.replicate 64 0) 64) l.cmd).loadDone l none
      | _ => gs.foldl (fun d g => d.modRegion g fun x => { x with st := .writing }) (d.putLoad l (some { l with phase := .writing, taken := [] }))

def execConfigClearDone (k : Nat) (s : State) : Host.Outcome State Fault Refusal := runUnit (decide (k < nDies)) (configClearDone k) s

/-- The bytes of a table that are not 0. -/
def byteTable (n : Nat) (f : Nat → Byte) : Sparse Byte := (List.range n).filterMap fun i => if f i = 0 then none else some (i, f i)

/-- The flip-flops sampled into the capture frames: what user logic holds is a free value (log entry 41); bits past the last tuft are 0. -/
def Device.captureFrames (g : Nat) : Nat → Device → Device
  | 0, d => d
  | j + 1, d =>
    let d := Device.captureFrames g j d
    let live := min 512 (tuftsIn g - 512 * j)
    let r := d.fresh 4096
    r.2.setFrame (faOf g 2 j) (leBytes 512 (r.1.toNat % 2 ^ (8 * live)))

/-- CAPTURE takes effect (12 R306, R323): the capture frames hold S of every flip-flop. -/
def Device.capture (d : Device) (g : Nat) : Device :=
  let d := Device.captureFrames g (frameCount 2 (g % 9 == 8)) d
  d.modRegion g fun x => { x with captured := true, ffs := byteTable (tuftsIn g) fun n => d.fab.cfg.byte (512 * faOf g 2 0 + n) }

/-- CAPTURE's completion: the time of the capture edge. -/
def Device.cplCapture (d : Device) (g : Nat) : Cpl := cpl .success (d.time (g / 9)) 0 0

/-- A patch's domain is in RUN: a load that waited for it goes on with the clear, and a CAPTURE is carried out (12 R319, R323). -/
def Device.patchAwake (d : Device) (p : Nat) : Device :=
  let g := patchRegion p
  match d.fab.loads.find? (fun l => decide (l.kind = .patch p) && decide (l.phase = .waking)), d.fab.captures.find? (fun c => c.2.2 == g) with
  | some l, _ => (d.putLoad l (some { l with phase := .clearing })).beginClear g
  | none, some (q, t, _) =>
    let d := { d with fab := { d.fab with captures := d.fab.captures.filter fun c => c.2.2 != g } }
    (d.capture g).complete q t (d.cplCapture g)
  | none, none => d

/-- Bytes a load takes next from its section: a word, or a frame record (12 R309). -/
def Load.unit (l : Load) : Nat := if 20 ≤ l.taken.length ∧ (l.taken.length - 20) / 516 < secWord l.taken 2 then 516 else 4

/-- The number of type-0 records of the regions a section starts, below region number n. -/
def typeZero (w n : Nat) : Nat := (((startsOf w).filter (fun m => decide (m < n))).map (fun m => frameCount 0 (m == 8))).sum

/-- What is wrong with record i with frame address a, after the record before it with address last (12 R303, R311; log entry 45): a type-0 frame stands
where FCLK says, type-1 frames follow, all in regions the section starts. -/
def recordFault (k w i a : Nat) (last : Option Nat) : Option Status :=
  let n := if faPatch a = 15 then 8 else faPatch a
  if !faOk a || faDie a != k || decide (2 ≤ faType a) || fclkOf w n == 0 then some .frameOutOfRegion
  else if (last.map (fun b => decide (a ≤ b))).getD false then some .invalidParam
  else if faType a = 0 then (if i = typeZero w n + faIndex a then none else some .frameOutOfRegion)
  else if typeZero w 9 ≤ i then none
  else some .frameOutOfRegion

/-- A start-up word (12 R316): its three steps, or nothing where it is malformed. -/
def startupSteps (w : Nat) : Option (List Nat) :=
  let l := [w / 4096 % 4, w / 1024 % 4, w / 256 % 4]
  if w / 65536 = 0x5E7A ∧ w / 16384 % 4 = 0 ∧ w % 256 ≠ 0 ∧ has l 1 ∧ has l 2 ∧ has l 3 then some l else none

/-- The IV of a section of die k (12 R310). -/
def sectionIv (h : List Byte) (k : Nat) : List Byte := ((h.drop 0x18).take 11) ++ [BitVec.ofNat 8 k]

/-- Data of record i as the fabric gets them: decrypted when the image is encrypted. -/
def plainFrame (key iv : List Byte) (enc : Bool) (i : Nat) (l : List Byte) : List Byte :=
  if enc then (l.zipIdx).map fun e => e.1 ^^^ Config.gcmStream key iv (512 * i + e.2) else l

/-- Record i of a section's bytes: its frame address and data. -/
def recordAddr (l : List Byte) (i : Nat) : Nat := leAt l (20 + 516 * i) 4
def recordData (l : List Byte) (i : Nat) : List Byte := (l.drop (24 + 516 * i)).take 512

/-- The checks after the CRC word (12 R313 step 5): the CRC, the digest, the tag. -/
def sectionFault (key : List Byte) (h : List Byte) (entry k : Nat) (l : List Byte) : Option Status :=
  let n := l.length
  let f := secWord l 2
  if (crc32c (l.take (n - 4))).toNat ≠ leAt l (n - 4) 4 then some .configCrc
  else if Config.shake256 l 32 ≠ secDigest h entry then some .signatureInvalid
  else if hdrEnc h then
    let aad := l.take 20 ++ (List.range f).flatMap fun i => (l.drop (20 + 516 * i)).take 4
    let ct := (List.range f).flatMap (recordData l)
    if Config.gcmTag key (sectionIv h k) aad ct ≠ (l.drop (n - 24)).take 16 then some .authFailed else none
  else none

/-- The 160 bytes of tuft n of a region (12 R304). -/
def Device.tuftBytes (d : Device) (g n : Nat) : List Byte := d.fab.cfg.read (512 * faOf g 0 (50 * (n / 160)) + 160 * (n % 160)) 160

/-- The verification pass of a patch's load has ended with every check passed: the patch is isolated, no longer scrubbed, brought to RUN, and cleared
(12 R319). -/
def Device.verifyDone (d : Device) (l : Load) (p : Nat) : Device :=
  let g := patchRegion p
  if d.dom (domPatch p) = .run then (d.putLoad l (some { l with phase := .clearing, taken := [] })).beginClear g
  else
    let d := (d.isolate g).modRegion g fun x => { x with st := .clearing, passing := false, passDue := false, reread := false }
    (d.putLoad l (some { l with phase := .waking, taken := [] })).wakeDom (domPatch p)

/-- A started region as its load leaves it: global set/reset holds every flip-flop at GSRLEVEL (12 R313, R315, R326, R327). -/
def Device.written (d : Device) (l : Load) (w n : Nat) : Device :=
  let g := 9 * l.die + n
  d.modRegion g fun x =>
    { x with
      st := .starting, fclk := BitVec.ofNat 2 (fclkOf w n), enc := hdrEnc l.hdr, readbackOk := hdrReadback l.hdr, captureOk := hdrCapture l.hdr
      source := some (l.flash, l.sect, l.len), first := typeZero w n, iv := sectionIv l.hdr l.die, digest := secDigest l.hdr l.entry
      ffs := byteTable (tuftsIn g) fun n => Config.gsrLevels (d.tuftBytes g n) }.sign g
      (fun i => d.frame (faOf g 0 i))

/-- A pass has ended with every check passed: after the verification pass the patch is isolated and cleared, after the writing pass the DLLs of
the started regions are set (12 R313, R319). -/
def Device.passDone (d : Device) (l : Load) : Device :=
  if l.phase = .verifying then
    match l.kind with
    | .patch p => d.verifyDone l p
    | _ => d
  else
    let w := secWord l.taken 3
    let steps := (startupSteps (leAt l.taken (l.taken.length - 8) 4)).getD []
    let ns := startsOf w
    let d := d.putLoad l (some { l with phase := .starting, steps := steps, started := ns.map (fun n => 9 * l.die + n) })
    let d := (l.regions.filter fun g => !has ns (g % 9)).foldl (fun d g => if d.regionOn g then d.modRegion g fun x => { x with st := .blank } else d) d
    ns.foldl (fun d n => d.written l w n) d

/-- TARGET of a load's section (12 R309). -/
def Load.target (l : Load) : Nat :=
  match l.kind with
  | .patch p => p % 8
  | _ => 15

/-- One item of a load's section arrives: checked, and in the writing pass written (12 R313, R318). The first words are checked in every pass, for the
buffer may have changed since the header was checked (R319). -/
def Device.takeItem (d : Device) (l : Load) (item : List Byte) : Device :=
  let pos := l.taken.length
  let f := secWord l.taken 2
  let l' := { l with taken := l.taken ++ item }
  let d := d.putLoad l (some l')
  if item.length = 516 then
    let i := (pos - 20) / 516
    let a := leAt item 0 4
    let w := secWord l.taken 3
    match recordFault l.die w i a (if i = 0 then none else some (recordAddr l.taken (i - 1))) with
    | some st => d.loadFail l' st
    | none =>
      if i + 1 = f ∧ (i + 1 < typeZero w 9) then d.loadFail l' .frameOutOfRegion
      else if l.phase = .verifying then d
      else d.setFrame a (plainFrame d.fuses.ownerAes (sectionIv l.hdr l.die) (hdrEnc l.hdr) i (item.drop 4))
  else if pos + 4 = 20 then
    (if d.secStart l.die l.target (hdrEnc l.hdr) l.len l'.taken then d else d.loadFail l' .invalidParam)
  else if pos + 8 = l.len then
    (if (startupSteps (leNat item)).isNone then d.loadFail l' .invalidParam else d)
  else if pos + 4 = l.len then
    match sectionFault d.fuses.ownerAes l.hdr l.entry l.die l'.taken with
    | some st => d.loadFail l' st
    | none => d.passDone l'
  else d

/-- CONFIG_FRAME: the next word or frame record of a load of die k arrives; the loads of a die take turns (12 R313, R320). -/
def configFrame (k : Nat) (d : Device) : Device :=
  match d.loadAt k (fun p => decide (p = .verifying) || decide (p = .writing)) with
  | none => d
  | some l =>
    let d := d.setLoads (d.fab.loads.filter (fun x => x != l) ++ [l])
    match d.srcRead l.flash (l.sect + l.taken.length) l.unit with
    | (.success, item, d) => d.takeItem l item
    | (st, _, d) => d.loadFail l st

def execConfigFrame (k : Nat) (s : State) : Host.Outcome State Fault Refusal := runUnitC (decide (k < nDies)) (configFrame k) s

/-- The bytes of a region's eight region frames (12 R304). -/
def Device.regionFrames (d : Device) (g : Nat) : List Byte := d.fab.cfg.read (512 * faOf g 0 (50 * (tuftsIn g / 160))) 4096

/-- The isolation cells of a patch follow its static region's image: a cell at HOLD keeps what it holds (11 R289; log entry 118). -/
def Region.isoSet (x : Region) (keep level : BitVec 257) : Region :=
  let y := { x with isoHold := keep, isoLevel := level }
  if x.isolated then y.hold ((x.border &&& keep) ||| (level &&& ~~~ keep)) else y

/-- The static region of die k has released its outputs: its pads take their options, its keepers release, and its image's isolation values are in force
(11 R289, R299, R301). -/
def Device.staticOut (d : Device) (k : Nat) : Device :=
  let l := d.regionFrames (9 * k + 8)
  let d := (List.range 8).foldl (fun d n => d.modRegion (9 * k + n) fun x => x.isoSet (Config.isoHold l n) (Config.isoLevel l n)) d
  { d with fab := { d.fab with
    keepers := d.fab.keepers.filter fun (e : Nat × Bool × Bool × PadOpt) => e.1 / 8 != k
    pads := (List.range 8).foldl (fun m i => Sparse.put padDefault m (8 * k + i) (Config.padOption l i)) d.fab.pads } }

/-- A started region takes a start-up step (12 R316, R298). TGT_TIMEOUT lies in region frames whose layout no rule states (log entry 3); the level that user
logic drives on SLEEP_OK is a free value (log entry 41). -/
def Device.regionStep (step : Nat) (d : Device) (g : Nat) : Device :=
  match step with
  | 1 =>
    let r := d.fresh 1
    let d := r.2.modRegion g fun x => { x with isolated := false, sleepOk := r.1 == 1 }
    let l := d.regionFrames g
    let d := (regionPorts g).zipIdx.foldl (fun d e =>
      d.setFport e.1 { d.fport e.1 with tgtTimeout := BitVec.ofNat 10 (1 + Config.portTimeout l e.2 % 1000) }) d
    if g % 9 = 8 then d.staticOut (g / 9) else d
  | 2 => d.modRegion g fun x => { x with gsr := false }
  | _ => d.modRegion g fun x => { x with writesOn := true }

/-- STARTUP_STEP: the next start-up step of a load of die k, on which every started region's DLL is locked (12 R317); at the last one its regions
are ACTIVE, the measurement is recorded, and the load completes (12 R314, R319). -/
def startupStep (k : Nat) (d : Device) : Device :=
  match d.fab.loads.find? (fun l => l.die == k && decide (l.phase = .starting) && l.started.all (fun g => (d.region g).lock)) with
  | none => d
  | some l =>
    match l.steps with
    | [] => d
    | s :: rest =>
      let d := l.started.foldl (Device.regionStep s) d
      if rest.isEmpty then
        let d := l.started.foldl (fun d g => d.modRegion g fun x => { x with st := .active, passes := 0, seenPasses := 0, frame := 0 }) d
        let digest := Config.shake256 l.hdr 64
        let d := match l.kind with
          | .patch p => d.measure 7 k (b2n (hdrEnc l.hdr)) l.hdr (BitVec.ofNat 64 p) digest l.cmd
          | _ => d.measure 6 k (b2n (hdrEnc l.hdr)) l.hdr 0 digest l.cmd
        d.loadDone l none
      else d.putLoad l (some { l with steps := rest })

def execStartupStep (k : Nat) (s : State) : Host.Outcome State Fault Refusal := runUnit (decide (k < nDies)) (startupStep k) s

/-- DLL_LOCK_TIMEOUT: the DLL of started region g has not locked within 1 ms (12 R313). -/
def dllLockTimeout (g : Nat) (d : Device) : Device :=
  match d.fab.loads.find? (fun l => decide (l.phase = .starting) && has l.started g) with
  | some l => if (d.region g).lock then d else d.loadFail l .notReady
  | none => d

def execDllLockTimeout (g : Nat) (s : State) : Host.Outcome State Fault Refusal := runUnit (decide (g < 72)) (dllLockTimeout g) s

/-! ## CAPTURE and READBACK (12 R306, R322-R324) -/

/-- An encrypted region denies an operation unless a debug session is open (12 R324). -/
def Device.denied (d : Device) (g : Nat) (allowed : Region → Bool) : Bool :=
  (d.region g).enc && !allowed (d.region g) && d.sec.session == 0

def captureBody (c : Cmd) (d : Device) : Device :=
  let g := ptG (c.pw 3)
  if d.regionBusy g then d.finish c (d.cplRegion g)
  else if (d.region g).st ≠ .active then d.finish c (cplOf .notReady)
  else if d.denied g (·.captureOk) then d.finish c (cplBad 24)
  -- a patch in DAMP is woken first; the command is carried out once it is in RUN
  else if g % 9 ≠ 8 ∧ d.dom (domPatch (regionPatch g)) ≠ .run then
    ({ d with fab := { d.fab with captures := d.fab.captures ++ [(c.q, c.tag.toNat, g)] } }.running c).wakeDom (domPatch (regionPatch g))
  else (d.capture g).finish c (d.cplCapture g)

/-- CAPTURE (12 R323). -/
def execCapture (q g : Nat) (s : State) : Host.Outcome State Fault Refusal :=
  runCmd 0x33 anyKind (fun _ => [0, 0, bits [(0, 10)]]) (fun c d => d.ptBad true (c.pw 3)) captureBody q g s

/-- One frame as a readback returns it (12 R322): where logic runs, shift-register bits and RAM contents are what user logic made of them, free
values that the frame holds from then on (log entry 41). -/
def Device.readFrame (d : Device) (g type i : Nat) : List Byte × Device :=
  let x := d.region g
  let a := faOf g type i
  let l := d.frame a
  if type = 2 ∨ !x.writesOn then (l, d)
  else
    let r := d.fresh 4096
    let f := leBytes 512 r.1.toNat
    let l' := if type = 1 then f else x.merge g i l f
    (l', r.2.setFrame a l')

/-- Frames i, i + 1, … of a type of region g. -/
def Device.readFrames (g type i : Nat) : Nat → Device → List Byte × Device
  | 0, d => ([], d)
  | n + 1, d =>
    let r := d.readFrame g type i
    let q := Device.readFrames g type (i + 1) n r.2
    (r.1 ++ q.1, q.2)

/-- What is wrong with READBACK's frame address or frame count (12 R322). -/
def Device.readbackBad (d : Device) (c : Cmd) : Option Nat :=
  let a := fld (c.pw 2) 0 32
  let g := (faRegion a).getD 0
  firstBad [((faRegion a).isNone || !d.regionOn g || !faOk a, 16),
    (decide (frameCount (faType a) (g % 9 == 8) < faIndex a + fld (c.pw 3) 0 23), 24)]

def readbackBody (c : Cmd) (d : Device) : Device :=
  let a := fld (c.pw 2) 0 32
  let n := fld (c.pw 3) 0 23
  let g := (faRegion a).getD 0
  if d.regionBusy g then d.finish c (d.cplRegion g)
  else if faType a < 2 && d.denied g (·.readbackOk) then d.finish c (cplBad 16)
  else
    let r := Device.readFrames g (faType a) (faIndex a) n d
    r.2.output c 8 (c.pw 1) r.1 (cpl .success (BitVec.ofNat 64 n) 0 0)

/-- READBACK (12 R322). -/
def execReadback (q g : Nat) (s : State) : Host.Outcome State Fault Refusal :=
  runCmd 0x34 anyKind (fun c => [addrBits (c.pw 1), bits [(0, 32)], bits [(0, 23)]]) (fun c d => d.readbackBad c) readbackBody q g s

/-! ## SCRUB_CTL (12 R332) -/

/-- The pass counter as RESULT0. -/
def Region.passCpl (x : Region) (st : Status) : Cpl := cpl st (BitVec.ofNat 64 x.passes.toNat) 0 0

/-- The checks of a scrubbing command lie in its effect, for its RESULT0 is the pass counter in every case (12 R332). -/
def scrubMasks (_ : Cmd) : List Word := List.replicate 7 allBits
def scrubOp (c : Cmd) : Nat := fld (c.pw 1) 0 2

/-- What is wrong with its parameters: reserved bits, PT, and for OP 0 the period. -/
def Device.scrubBad (d : Device) (c : Cmd) : Option Nat :=
  let n := fld (c.pw 2) 0 14
  minOff (reservedAt c [bits [(0, 2)], bits [(0, 14)], bits [(0, 10)]])
    (minOff (firstBad [(scrubOp c == 0 && (decide (n < 10) || decide (10000 < n)), 16)]) (d.ptBad true (c.pw 3)))

/-- The scrubbing command acts on a region that is there and not busy. -/
def scrubBody (act : Nat → Cmd → Device → Device) (c : Cmd) (d : Device) : Device :=
  let g := ptG (c.pw 3)
  let r0 := ((d.region g).passCpl .success).r0
  match d.scrubBad c with
  | some off => d.finish c { cplBad off with r0 := r0 }
  | none => if d.regionBusy g then d.finish c { d.cplRegion g with r0 := r0 } else act g c d

def setPeriod (g : Nat) (c : Cmd) (d : Device) : Device :=
  let n := fld (c.pw 2) 0 14
  let x := d.region g
  let y := { x with nextPeriod := BitVec.ofNat 14 n, period := if x.passing then x.period else BitVec.ofNat 14 n }
  (d.setRegion g y).finish c (y.passCpl .success)

/-- SCRUB_CTL, OP 0: the period applies from the next pass. -/
def execScrubSetPeriod (q g : Nat) (s : State) : Host.Outcome State Fault Refusal :=
  runCmd 0x35 (fun c => scrubOp c == 0) scrubMasks noBad (scrubBody setPeriod) q g s

/-- The scrubber checks a region: it is ACTIVE, not paused, not UNVERIFIED. -/
def Region.scrubbed (x : Region) : Bool := decide (x.st = .active) && !x.paused && !x.unverified

/-- A region as an event names it (08 R222). -/
def regionName (g : Nat) : Word := if g % 9 = 8 then pack [(1, 6), (g / 9, 7)] else pack [(regionPatch g, 0)]

/-- A region becomes UNVERIFIED (12 R329, R330). -/
def Device.unverify (d : Device) (g : Nat) : Device :=
  (d.modRegion g fun x => { x with unverified := true, passing := false, passDue := false, reread := false }).raise 0x19 (regionName g) 0

/-- Unit number of region g for SCRUB_REPAIRS (08 R221). -/
def scrubUnit (g : Nat) : Nat := if g % 9 = 8 then 64 + g / 9 else regionPatch g

/-- The pass goes on with the next frame; with the last one the pass counter advances (12 R328). -/
def Device.nextFrame (d : Device) (g : Nat) : Device :=
  d.modRegion g fun x =>
    if x.frame + 1 < frameCount 0 (g % 9 == 8) then { x with frame := x.frame + 1, reread := false }
    else { x with frame := 0, reread := false, passes := x.passes + 1, passing := x.passDue, passDue := false, period := x.nextPeriod }

/-- A damaged frame is repaired from its record, or its region becomes UNVERIFIED (12 R329). -/
def Device.repairFrame (d : Device) (g : Nat) : Device :=
  let x := d.region g
  let i := x.frame
  let a := faOf g 0 i
  match x.source with
  | none => d.unverify g
  | some (flash, src, _) =>
    match d.srcRead flash (src + 24 + 516 * (x.first + i)) 512 with
    | (.success, l, d) =>
      let data := plainFrame d.fuses.ownerAes x.iv x.enc (x.first + i) l
      if x.signature g i data = Sparse.get 0 x.golden i then
        (((d.setFrame a (x.merge g i data (d.frame a))).bump 0x40 (scrubUnit g) 1).raise 0x18 (BitVec.ofNat 64 a) 0).nextFrame g
      else d.unverify g
    | (_, _, d) => d.unverify g

/-- One read of the region's next frame: it matches, is read once more, or is repaired (12 R329). -/
def Device.frameStep (d : Device) (g : Nat) : Device :=
  let x := d.region g
  if x.signature g x.frame (d.frame (faOf g 0 x.frame)) = Sparse.get 0 x.golden x.frame then d.nextFrame g
  else if !x.reread then d.modRegion g fun y => { y with reread := true }
  else d.repairFrame g

/-- The scrubber pauses once the frame it has begun to check is done (12 R332). -/
def scrubPause (g : Nat) (c : Cmd) (d : Device) : Device :=
  let x := d.region g
  let d := if x.scrubbed && x.passing && x.reread then d.frameStep g else d
  let d := d.modRegion g fun x => { x with paused := true }
  d.finish c ((d.region g).passCpl .success)

/-- SCRUB_CTL, OP 1. -/
def execScrubPause (q g : Nat) (s : State) : Host.Outcome State Fault Refusal :=
  runCmd 0x35 (fun c => scrubOp c == 1) scrubMasks noBad (scrubBody scrubPause) q g s

def scrubResume (g : Nat) (c : Cmd) (d : Device) : Device :=
  (d.modRegion g fun x => { x with paused := false }).finish c ((d.region g).passCpl .success)

/-- SCRUB_CTL, OP 2. -/
def execScrubResume (q g : Nat) (s : State) : Host.Outcome State Fault Refusal :=
  runCmd 0x35 (fun c => scrubOp c == 2) scrubMasks noBad (scrubBody scrubResume) q g s

def scrubRebuild (g : Nat) (c : Cmd) (d : Device) : Device :=
  let x := d.region g
  match x.st, x.source with
  | .active, some (flash, a, n) =>
    match d.srcRead flash a n with
    | (.success, l, d) =>
      if (crc32c (l.take (n - 4))).toNat ≠ leAt l (n - 4) 4 ∨ Config.shake256 l 32 ≠ x.digest then
        (d.modRegion g fun y => { y with unverified := true, passing := false, passDue := false, reread := false }).finish c (x.passCpl .signatureInvalid)
      else
        let y := ({ x with unverified := false }).sign g fun i =>
          plainFrame d.fuses.ownerAes x.iv x.enc (x.first + i) (recordData l (x.first + i))
        (d.setRegion g y).finish c (y.passCpl .success)
    | (st, _, d) => d.finish c (x.passCpl st)
  | _, _ => d.finish c { cplBad 24 with r0 := (x.passCpl .success).r0 }

/-- SCRUB_CTL, OP 3: signatures and masks are computed again from the repair source. -/
def execScrubRebuild (q g : Nat) (s : State) : Host.Outcome State Fault Refusal :=
  runCmd 0x35 (fun c => scrubOp c == 3) scrubMasks noBad (scrubBody scrubRebuild) q g s

/-! ## Scrubbing (12 R325-R331) -/

/-- SCRUB_PASS_START: a period of region g begins; a pass still running goes on, and the next one follows it (12 R328). -/
def scrubPassStart (g : Nat) (d : Device) : Device :=
  let x := d.region g
  if !x.scrubbed then d
  else if x.passing then d.setRegion g { x with passDue := true }
  else d.setRegion g { x with passing := true, frame := 0, reread := false, period := x.nextPeriod }

def execScrubPassStart (g : Nat) (s : State) : Host.Outcome State Fault Refusal := runUnit (decide (g < 72)) (scrubPassStart g) s

/-- The frame with some of its bits at new values. -/
def upsetBits (l : List Byte) (u : List (Nat × Bool)) : List Byte :=
  u.foldl (fun l e => l.set (e.1 / 8) (BitVec.ofNat 8 (setFld (l.getD (e.1 / 8) 0) (e.1 % 8) 1 (b2n e.2)).toNat)) l

/-- SCRUB_FRAME_READ: the scrubber reads the region's next frame, whose bits u have been upset since it was read last, and its signature-RAM
word (12 R329, R330). -/
def scrubFrameRead (g : Nat) (u : List (Nat × Bool)) (sig : SigRead) (d : Device) : Device :=
  let x := d.region g
  if !x.scrubbed || !x.passing then d
  else
    let a := faOf g 0 x.frame
    let d := d.setFrame a (upsetBits (d.frame a) u)
    if sig = .uncorrectable then d.unverify g else d.frameStep g

def execScrubFrameRead (g : Nat) (u : List (Nat × Bool)) (sig : SigRead) (s : State) : Host.Outcome State Fault Refusal :=
  runUnitC (decide (g < 72)) (scrubFrameRead g u sig) s

/-- The scrubber's state is reset: its pass counter, and its pass, which starts again at frame 0 (12 R331). -/
def Region.scrubReset (x : Region) : Region :=
  { x with
    passes := 0, seenPasses := 0, frame := 0, reread := false, passDue := false
    passing := decide (x.st = .active) && !x.unverified }

/-- SCRUB_WATCHDOG: 4 × PERIOD + 10 ms have passed since the watchdog looked at region g last; a pass counter that has not advanced is a stall, after which the
scrubber of the die starts every region's pass again (12 R331). -/
def scrubWatchdog (g : Nat) (d : Device) : Device :=
  let x := d.region g
  let k := g / 9
  if !d.regionOn g || !x.scrubbed then d
  else if x.passes ≠ x.seenPasses then d.setRegion g { x with seenPasses := x.passes }
  else
    let d := { d with fab := { d.fab with stalled := insNat k d.fab.stalled } }
    (((dieRegions k).filter d.regionOn).foldl (fun d g => d.modRegion g Region.scrubReset) d).raise 0x1A (BitVec.ofNat 64 k) 0

def execScrubWatchdog (g : Nat) (s : State) : Host.Outcome State Fault Refusal := runUnit (decide (g < 72)) (scrubWatchdog g) s

/-! ## GPIO_CTL (11 R301) -/

/-- The level of each pin: that of a keeper that drives; otherwise what user logic or the outside makes of it, a free value (log entry 41). -/
def Device.samplePins (d : Device) : Device :=
  let r := d.fresh 64
  let w := r.2.fab.keepers.foldl (fun (w : Word) e => if e.2.1 then setFld w e.1 1 (b2n e.2.2.1) else w) r.1
  { r.2 with fab := { r.2.fab with pins := w } }

def gpioOp (c : Cmd) : Bool := bitAt (c.pw 2) 0
def gpioMasks (_ : Cmd) : List Word := [allBits, bits [(0, 1)]]

def gpioReadBody (c : Cmd) (d : Device) : Device :=
  let d := d.samplePins
  d.finish c (cpl .success d.fab.pins 0 0)

/-- GPIO_CTL, OP 0. -/
def execGpioRead (q g : Nat) (s : State) : Host.Outcome State Fault Refusal :=
  runCmd 0x36 (fun c => !gpioOp c) gpioMasks noBad gpioReadBody q g s

def gpioReleaseBody (c : Cmd) (d : Device) : Device :=
  let d := { d with fab := { d.fab with keepers := d.fab.keepers.filter fun (e : Nat × Bool × Bool × PadOpt) => !bitAt (c.pw 1) e.1 } }
  let d := d.samplePins
  d.finish c (cpl .success d.fab.pins 0 0)

/-- GPIO_CTL, OP 1: the named pins follow started logic, or are high-impedance. -/
def execGpioReleaseKeepers (q g : Nat) (s : State) : Host.Outcome State Fault Refusal :=
  runCmd 0x36 gpioOp gpioMasks noBad gpioReleaseBody q g s

end Sys2Proof.Machine
end

