-- ==== Sys2Proof/Machine/MemCtl.lean ====
section
/-! DEFINITION. The events of a memory controller: requests, writes, the scheduler's commands, read data, parity, refresh, temperature,
retraining and patrol scrub (10 R255-R275). -/

namespace Sys2Proof.Machine

/-- The port of controller m. -/
def mcPort (m : Nat) : PortId := ⟨mcRouter m, 0⟩

/-- The divided clocks of controller m's die run: its root PLL has lock (13 R336). -/
def Device.clocked (d : Device) (m : Nat) : Bool := has d.pwr.pll (m / 24)

/-- An event of controller m happens only while its clocks run (13 R336). -/
def whenClocked (m : Nat) (f : Device → Device) (d : Device) : Device := whenever (d.clocked m) d (f d)

/-- The codewords of a range of bytes. -/
def codewords (a n : Nat) : List Nat := upFrom (a / 64) ((a + n - 1) / 64 + 1 - a / 64)

/-- Requests in a channel's read queue: the codewords of one READ count as one (log entry 20). -/
def Channel.queued (c : Channel) : Nat := (c.readq.map (·.kind)).eraseDups.length

/-! ## Requests -/

/-- A READ enters the read queues of its channels (10 R255). -/
def Device.queueRead (d : Device) (m : Nat) (k : Packet) : Device :=
  let x := d.mc m
  let cs := codewords k.readAddr k.readLen
  let x := { x with
    nextId := x.nextId + 1
    asm := x.asm ++ [{ id := x.nextId, pkt := k, left := cs.length, data := [], status := .success }] }
  d.setMc m (cs.foldl (fun y c =>
    let p := (d.cwLoc c).chan
    let ch := y.chan p
    y.setChan p { ch with readq := ch.readq ++ [⟨c, .net (x.nextId - 1), k.panic, false⟩], batch := ch.batch && decide (48 ≤ ch.wbuf.length) && !k.panic }) x)

/-- Whether every channel of a READ has room for it. -/
def Device.readRoom (d : Device) (m : Nat) (k : Packet) : Bool :=
  (codewords k.readAddr k.readLen).all fun c => decide (((d.mc m).chan (d.cwLoc c).chan).queued < 64)

/-- A READ reaches controller m (10 R255, R269). -/
def mcReadRequest (m : Nat) (d : Device) : Device :=
  match takeFirst (fun k => k.type == tREAD) (d.inboxOf (mcPort m)) with
  | none => d
  | some (k, rest) =>
    match (d.mc m).st with
    | .frozen => (d.setInbox (mcPort m) rest).answerFrozen m k
    | .run => whenever (d.readRoom m k) d ((d.setInbox (mcPort m) rest).queueRead m k)
    | _ => d

def execMcReadRequest (m : Nat) (s : State) : Host.Outcome State Fault Refusal := runUnit (decide (m < nMcs)) (whenClocked m (mcReadRequest m)) s

/-- Write buffer entries of a packet: one per codeword it touches (10 R257). -/
def writeEntries (m : Nat) (k : Packet) : List WriteEntry :=
  let a := k.writeAddr (m / 24)
  let l := k.wdata.zip k.wmask
  (chunksOf 64 8 l).zipIdx.filterMap fun e =>
    let mask := BitVec.ofNat 64 ((e.1.zipIdx.filter (fun b => b.1.2)).foldl (fun x b => x + 2 ^ b.2) 0)
    if mask = 0 then none else some ⟨a / 64 + e.2, e.1.map (·.1), mask, false⟩

/-- Free entries suffice for a packet. -/
def Device.writeRoom (d : Device) (m : Nat) (k : Packet) : Bool :=
  let es := writeEntries m k
  (List.range 4).all fun c =>
    decide (((d.mc m).chan c).wbuf.length + (es.filter (fun e => (d.cwLoc e.addr).chan == c)).length ≤ 64)

/-- The entries of a packet are accepted and the packet is acknowledged (10 R257). -/
def Device.acceptWrite (d : Device) (m : Nat) (k : Packet) : Device :=
  let d' := (writeEntries m k).foldl (fun d e =>
    let c := (d.cwLoc e.addr).chan
    d.modMc m fun x => x.setChan c { x.chan c with
      wbuf := (x.chan c).wbuf ++ [e]
      backs := (x.chan c).backs.filter fun o => o.addr != e.addr }) d
  d'.send (mcPort m) (mkWrAck k.hdr (mcPort m) 0)

/-- The write that takes entries next: the oldest with PANIC, else the oldest (10 R257, R273); and the others. -/
def nextWrite (l : List Packet) : Option (Packet × List Packet) := (takeFirst Packet.panic l).or (takeFirst (fun _ => true) l)

/-- A WRITE or WRITEM reaches controller m; one with PANIC goes ahead of those without that wait (10 R257, R269, R273). -/
def mcWriteRequest (m : Nat) (d : Device) : Device :=
  match takeFirst (fun k => k.type == tWRITE || k.type == tWRITEM) (d.inboxOf (mcPort m)) with
  | none => d
  | some (k, rest) =>
    let d' := d.setInbox (mcPort m) rest
    match (d.mc m).st with
    | .frozen => d'.answerFrozen m k
    | .run =>
      if (d.mc m).waitW.all (fun w => k.panic && !w.panic) && d.writeRoom m k then d'.acceptWrite m k
      else d'.modMc m fun x => { x with waitW := x.waitW ++ [k] }
    | _ => d

def execMcWriteRequest (m : Nat) (s : State) : Host.Outcome State Fault Refusal := runUnit (decide (m < nMcs)) (whenClocked m (mcWriteRequest m)) s

/-- Entries became free: the write that is next is accepted (10 R257). -/
def writeEntryAccept (m : Nat) (d : Device) : Device :=
  match nextWrite (d.mc m).waitW with
  | none => d
  | some (k, rest) =>
    whenever ((d.mc m).st == .run && d.writeRoom m k) d ((d.modMc m fun x => { x with waitW := rest }).acceptWrite m k)

def execWriteEntryAccept (m : Nat) (s : State) : Host.Outcome State Fault Refusal := runUnit (decide (m < nMcs)) (whenClocked m (writeEntryAccept m)) s

/-! ## The scheduler -/

/-- What a channel does next. -/
inductive NextCmd where
  | refresh
  | train
  | write (i : Nat)
  | read (i : Nat)
  | pullIn
  | idle
  deriving DecidableEq, Repr

/-- A read that the check of R258 holds back. -/
def Channel.held (c : Channel) (r : ReadReq) : Bool := c.wbuf.any (fun e => e.addr == r.addr)

/-- Indices of the entries that may drain now: the oldest of each codeword, unless its merging read is under way. -/
def Channel.drainable (c : Channel) : List Nat :=
  (c.wbuf.zipIdx.filter fun e =>
    !(c.wbuf.take e.2).any (fun o => o.addr == e.1.addr) && !c.issued.any (fun r => r.addr == e.1.addr && decide (r.kind = .merge))).map (·.2)

/-- A write that waits in the input needs entries of channel ci (10 R257). -/
def Device.needs (d : Device) (m ci : Nat) (k : Packet) : Nat := ((writeEntries m k).filter fun e => (d.cwLoc e.addr).chan == ci).length

/-- A PANIC request waits on channel ci: a read in its queue, or a write in the controller's input that needs entries of it (10 R273). -/
def Device.panicWaits (d : Device) (m ci : Nat) : Bool :=
  ((d.mc m).chan ci).readq.any (·.panic) || (d.mc m).waitW.any fun k => k.panic && decide (0 < d.needs m ci k)

/-- The buffer is full: no entry is free, or too few for the write that is next (10 R257, R259; log entry 21). -/
def Device.bufferFull (d : Device) (m ci : Nat) : Bool :=
  let n := ((d.mc m).chan ci).wbuf.length
  decide (64 ≤ n) || (match nextWrite (d.mc m).waitW with | some (k, _) => decide (64 < n + d.needs m ci k) | none => false)

/-- The first index of a list that satisfies f. -/
def firstIdx {α : Type} (f : α → Bool) (l : List α) : Option Nat := (l.zipIdx.find? (fun e => f e.1)).map (·.2)

/-- A request waits for bank b. -/
def Device.bankWaits (d : Device) (c : Channel) (b : Nat) : Bool :=
  c.readq.any (fun r => (d.cwLoc r.addr).bank == b) || c.wbuf.any (fun e => (d.cwLoc e.addr).bank == b)

/-- The codeword's row is open. -/
def Device.rowHit (d : Device) (c : Channel) (a : Nat) : Bool :=
  let p := d.cwLoc a
  Sparse.get 0 c.openRow p.bank == p.row + 1

/-- An access to codeword a would close a row that a queued read still targets (10 R255). -/
def Device.closesWanted (d : Device) (c : Channel) (a : Nat) : Bool :=
  let p := d.cwLoc a
  let o := Sparse.get 0 c.openRow p.bank
  o != 0 && o != p.row + 1 && c.readq.any fun r => (d.cwLoc r.addr).bank == p.bank && (d.cwLoc r.addr).row + 1 == o

/-- A batch runs, or starts (10 R259). -/
def Channel.batching (c : Channel) (panic : Bool) : Bool := !panic && (c.batch || decide (48 ≤ c.wbuf.length) || c.readq.isEmpty)

/-- The entry a batch drains next: of those that close no row still wanted, one that hits an open row, then the oldest (10 R255, R259). -/
def Device.batchEntry (d : Device) (c : Channel) : Option Nat :=
  let addr (i : Nat) : Nat := (c.wbuf.map (·.addr)).getD i 0
  let l := c.drainable.filter fun i => !d.closesWanted c (addr i)
  (l.find? fun i => d.rowHit c (addr i)).or l.head?

/-- The order of R255, with R258, R259, R261, R263 and R273 (log entries 21, 22). -/
def Device.nextCmd (d : Device) (m ci : Nat) : NextCmd :=
  let x := d.mc m
  let c := x.chan ci
  let panic := d.panicWaits m ci
  if c.closed then .idle
  else if x.st = .frozen then (if c.due = 0 then .idle else .refresh)
  else if x.st ≠ .run then .idle
  else if 9 ≤ c.due then .refresh
  else
    let forced := c.drainable.find? (fun i => c.readq.any (fun r => r.addr == ((c.wbuf.map (·.addr)).getD i 0)))
    let full := if d.bufferFull m ci then c.drainable.head? else none
    match forced.or full with
    | some i => .write i
    | none =>
      match firstIdx (fun r => (r.panic || r.aged) && !c.held r) c.readq with
      | some i => .read i
      | none =>
        if c.retrainDue && !panic && !(List.range 4).any (fun j => (x.chan j).closed) then .train
        else if 0 < c.due && !d.bankWaits c c.refBank.toNat then .refresh
        else
          match if c.batching panic then d.batchEntry c else none with
          | some i => .write i
          | none =>
            let ok := fun (r : ReadReq) => !c.held r && decide (r.kind ≠ .scrub)
            match (firstIdx (fun r => ok r && d.rowHit c r.addr) c.readq).or (firstIdx ok c.readq) with
            | some i => .read i
            | none =>
              match (firstIdx (fun r => !c.held r && d.rowHit c r.addr) c.readq).or (firstIdx (fun r => !c.held r) c.readq) with
              | some i => .read i
              | none =>
                if 0 < c.due then .refresh
                else if c.early < 8 && !panic && c.readq.isEmpty && c.wbuf.isEmpty then .pullIn else .idle

/-- Corrected codewords enter the buffer as entries become free (10 R266). -/
def Channel.fillBacks (c : Channel) : Channel :=
  let n := 64 - c.wbuf.length
  { c with wbuf := c.wbuf ++ c.backs.take n, backs := c.backs.drop n }

/-- The bank's open row set: 0 closed, row + 1 open. -/
def Channel.setRow (c : Channel) (b r : Nat) : Channel := { c with openRow := Sparse.put 0 c.openRow b r }

/-- The codeword's row has another queued request, so that its access goes without auto-precharge (10 R255). -/
def Device.rowWanted (d : Device) (c : Channel) (p : DramLoc) : Bool :=
  let same := fun (a : Nat) => (d.cwLoc a).bank == p.bank && (d.cwLoc a).row == p.row
  decide (1 < (c.readq.filter (fun r => same r.addr)).length + (c.wbuf.filter (fun e => same e.addr)).length)

/-- Activate or precharge for an access to codeword a, if its row is not open. -/
def Device.openFor (d : Device) (m ci a : Nat) : Option Device :=
  let x := d.mc m
  let c := x.chan ci
  let p := d.cwLoc a
  let o := Sparse.get 0 c.openRow p.bank
  let t := d.time (m / 24)
  if o = p.row + 1 then none
  else if o = 0 then
    some (d.setMc m ((x.setChan ci { c.setRow p.bank (p.row + 1) with lastCmd := some (0, a), lastWrite := none }).log t 0 false p))
  else
    some (d.setMc m ((x.setChan ci { c.setRow p.bank 0 with lastCmd := some (3, a), lastWrite := none }).log t 3 false p))

/-- A refresh of the channel's next bank, or its precharge first (10 R260); a frozen controller issues refreshes only, and the row closes with them (10 R268;
log entry 22). -/
def Device.refreshCmd (d : Device) (m ci : Nat) (early : Bool) : Device :=
  let x := d.mc m
  let c := x.chan ci
  let b := c.refBank.toNat
  let t := d.time (m / 24)
  if Sparse.get 0 c.openRow b ≠ 0 ∧ x.st ≠ .frozen then
    d.setMc m ((x.setChan ci { c.setRow b 0 with lastCmd := some (3, 0), lastWrite := none }).log t 3 false ⟨m, ci, b, 0, 0, 0⟩)
  else
    let c' := { c.setRow b 0 with
      due := if early then c.due else c.due - 1
      early := if early then c.early + 1 else c.early
      refBank := c.refBank + 1, redo := false, lastCmd := some (4, 0), lastWrite := none }
    d.setMc m ((x.setChan ci c').log t 4 false ⟨m, ci, b, 0, 0, 0⟩)

/-- The column command of read i. -/
def Device.readCmd (d : Device) (m ci i : Nat) : Device :=
  let x := d.mc m
  let c := x.chan ci
  match c.readq[i]? with
  | none => d
  | some r =>
    match d.openFor m ci r.addr with
    | some d' => d'
    | none =>
      let p := d.cwLoc r.addr
      let ap := !d.rowWanted c p
      let c' := if ap then c.setRow p.bank 0 else c
      let c' := { c' with readq := dropAt c.readq i, issued := c.issued ++ [r], lastCmd := some (1, r.addr), lastWrite := none }
      d.setMc m ((x.setChan ci c').log (d.time (m / 24)) 1 ap p)

/-- Entry i drains: a part of a codeword reads it first (10 R265), a whole one is written. -/
def Device.writeCmd (d : Device) (m ci i : Nat) : Device :=
  let x := d.mc m
  let c := x.chan ci
  match c.wbuf[i]? with
  | none => d
  | some e =>
    match d.openFor m ci e.addr with
    | some d' => d'
    | none =>
      let p := d.cwLoc e.addr
      if e.mask ≠ BitVec.allOnes 64 then
        let c' := { c with batch := c.batching (d.panicWaits m ci) && decide (16 < c.wbuf.length)
                           issued := c.issued ++ [⟨e.addr, .merge, false, false⟩], lastCmd := some (1, e.addr), lastWrite := none }
        d.setMc m ((x.setChan ci c').log (d.time (m / 24)) 1 false p)
      else
        let ap := !d.rowWanted c p
        let c' := if ap then c.setRow p.bank 0 else c
        let c' := { c' with
          wbuf := dropAt c.wbuf i
          batch := c.batching (d.panicWaits m ci) && decide (17 < c.wbuf.length)
          lastCmd := some (2, e.addr), lastWrite := some e }
        (d.setMc m ((x.setChan ci c'.fillBacks).log (d.time (m / 24)) 2 ap p)).applyEntry e

/-- Retraining of a channel begins: all banks are precharged and it closes (10 R263). -/
def Device.trainCmd (d : Device) (m ci : Nat) : Device :=
  let x := d.mc m
  let c' := { x.chan ci with closed := true, openRow := [], lastCmd := some (6, 0), lastWrite := none }
  d.setMc m ((x.setChan ci c').log (d.time (m / 24)) 6 false ⟨m, ci, 0, 0, 0, 0⟩)

/-- Channel c of controller m issues its next command (10 R255). -/
def dramCommandIssue (m c : Nat) (d : Device) : Device :=
  match d.nextCmd m c with
  | .refresh => d.refreshCmd m c false
  | .pullIn => d.refreshCmd m c true
  | .train => d.trainCmd m c
  | .write i => d.writeCmd m c i
  | .read i => d.readCmd m c i
  | .idle => d

def execDramCommandIssue (m c : Nat) (s : State) : Host.Outcome State Fault Refusal :=
  runUnit (decide (m < nMcs) && decide (c < 4)) (whenClocked m (dramCommandIssue m c)) s

/-! ## Read data -/

/-- A network read has one more codeword, of a status; the last one answers it (10 R266). -/
def Device.readPiece (d : Device) (m id c : Nat) (st : Status) (data : List Byte) : Device :=
  let x := d.mc m
  match x.asm.find? (fun a => a.id == id) with
  | none => d
  | some a =>
    let a' := { a with left := a.left - 1, data := a.data.write (64 * c) data, status := if a.status = .success then st else a.status }
    let d := if st = .poison && !x.poisonSeen then
        (d.modMc m fun y => { y with poisonSeen := true }).raise 0x09 (BitVec.ofNat 64 m) (BitVec.ofNat 64 (64 * c))
      else d
    if a'.left = 0 then
      let bytes := if a'.status = .success then a'.data.read a.pkt.readAddr a.pkt.readLen else poisonData a.pkt.readAddr a.pkt.readLen
      (d.modMc m fun y => { y with asm := y.asm.filter (fun b => b.id != id) }).send (mcPort m)
        (mkRdResp a.pkt.hdr (mcPort m) a'.status.code bytes)
    else d.modMc m fun y => { y with asm := y.asm.map fun b => if b.id = id then a' else b }

/-- The corrected codeword goes back through the write buffer, once an entry is free, unless a write to it was accepted meanwhile (10 R266). -/
def Device.writeBack (d : Device) (m ci c : Nat) (l : List Byte) : Device :=
  let ch := (d.mc m).chan ci
  if ch.wbuf.any (fun e => e.addr == c) then d
  else d.modMc m fun x => x.setChan ci (Channel.fillBacks { ch with backs := ch.backs ++ [⟨c, l.take 64, BitVec.allOnes 64, bitAt (l.getD 64 0) 0⟩] })

/-- A partial write is merged with what its codeword held (10 R265). -/
def Device.mergeEntry (d : Device) (m ci c : Nat) (old : List Byte) (poison : Bool) : Device :=
  d.modMc m fun x =>
    let ch := x.chan ci
    match firstIdx (fun (e : WriteEntry) => e.addr == c) ch.wbuf with
    | none => x
    | some i =>
      let merged := (ch.wbuf[i]?).map fun e => { e with data := mergeBytes e.mask e.data old, mask := BitVec.allOnes 64, poison := e.poison || poison }
      x.setChan ci { ch with wbuf := match merged with | none => ch.wbuf | some e => ch.wbuf.set i e }

/-- The symbols the DRAM returns: what it holds, with the errors of this read. -/
def withErrors (l : List Byte) (errs : List (Nat × Byte)) : List Byte := errs.foldl (fun l e => l.set e.1 (l.getD e.1 0 ^^^ e.2)) l

/-- The data of the read issued longest ago comes back (10 R264-R266). -/
def dramReadData (m ci : Nat) (errs : List (Nat × Byte)) (d : Device) : Device :=
  match ((d.mc m).chan ci).issued with
  | [] => d
  | r :: rest =>
    let d := d.modMc m fun x => x.setChan ci { x.chan ci with issued := rest }
    match eccCheck (withErrors (d.cwRaw r.addr) errs) with
    | .uncorrectable syn =>
      let d := d.bump 0x32 m 1
      let d := match r.kind with
        | .net id =>
          match (d.mc m).asm.find? (fun a => a.id == id) with
          | none => d
          | some a =>
            let d' := d.modMc m fun x => ({ x with asm := x.asm.filter (fun b => b.id != id) } : MemCtl).mapChan fun c =>
              { c with readq := c.readq.filter fun q => decide (q.kind ≠ .net id) }
            d'.send (mcPort m) (mkRdResp a.pkt.hdr (mcPort m) Status.memoryUncorrectable.code (poisonData a.pkt.readAddr a.pkt.readLen))
        | _ => d
      if (d.mc m).st = .frozen then d else d.freeze m 1 ci (64 * r.addr) syn none false
    | res =>
      let l := match res with | .corrected _ l => l | _ => withErrors (d.cwRaw r.addr) errs
      let poison := bitAt (l.getD 64 0) 0
      let d := match res with
        | .corrected i l =>
          if r.kind = .scrub && poison then d
          else ((d.bump 0x31 m 1).modMc m fun x => { x with symbol := BitVec.ofNat 8 i }).writeBack m ci r.addr l
        | _ => d
      match r.kind with
      | .net id => d.readPiece m id r.addr (if poison then .poison else .success) (l.take 64)
      | .merge => d.mergeEntry m ci r.addr (l.take 64) poison
      | .scrub => d

def execDramReadData (m c : Nat) (errs : List (Nat × Byte)) (s : State) : Host.Outcome State Fault Refusal :=
  runUnit (decide (m < nMcs) && decide (c < 4)) (whenClocked m (dramReadData m c errs)) s

/-! ## Parity, refresh, temperature, training -/

/-- The last command of channel c failed its parity: the DRAM ignored it, and the controller freezes (10 R267, R268). -/
def parityFailure (m ci : Nat) (d : Device) : Device :=
  let c := (d.mc m).chan ci
  match c.lastCmd with
  | none => d
  | some (cmd, a) =>
    if (d.mc m).st = .run then
      -- an ignored read is still waiting for its data; an ignored refresh is still due; after an ignored command no row is counted on
      let back := if cmd = 1 then c.issued.getLast? else none
      let c' := { c with
        readq := (match back with | some r => if r.kind = .merge then [] else [r] | none => []) ++ c.readq
        issued := if cmd = 1 then c.issued.dropLast else c.issued
        due := if cmd = 4 then c.due + 1 else c.due
        refBank := if cmd = 4 then c.refBank - 1 else c.refBank
        openRow := [], lastCmd := none, lastWrite := none }
      let addr := if cmd = 4 ∨ cmd = 6 then 0 else 64 * a
      (d.modMc m fun x => x.setChan ci c').freeze m 2 ci addr 0 c.lastWrite (cmd == 4)
    else d

def execParityFailure (m c : Nat) (s : State) : Host.Outcome State Fault Refusal :=
  runUnit (decide (m < nMcs) && decide (c < 4)) (whenClocked m (parityFailure m c)) s

/-- tREFIpb elapsed (10 R260, R261): a refresh issued early serves the interval, otherwise one more is due. -/
def refreshDue (m ci : Nat) (d : Device) : Device :=
  let x := d.mc m
  let c := x.chan ci
  whenever (x.st == .run || x.st == .frozen) d
    (d.setMc m (x.setChan ci (if 0 < c.early then { c with early := c.early - 1 } else { c with due := c.due + 1 })))

def execRefreshDue (m c : Nat) (s : State) : Host.Outcome State Fault Refusal :=
  runUnit (decide (m < nMcs) && decide (c < 4)) (whenClocked m (refreshDue m c)) s

/-- Some channel is to be retrained, or is being retrained. -/
def MemCtl.retraining (x : MemCtl) : Bool := (List.range 4).any fun c => (x.chan c).retrainDue || (x.chan c).closed

/-- Distance of two readings. -/
def apart (a b : Nat) : Nat := (a - b) + (b - a)

/-- The 1 ms temperature reading (10 R262, R263). A retraining that PANIC has deferred since the reading before runs regardless. -/
def dramTempRead (m : Nat) (temp : Byte) (d : Device) : Device :=
  let x := d.mc m
  if x.st = .off then d
  else
    let x1 := { x with
      temp := temp
      hot := if 86 ≤ temp.toNat then true else if temp.toNat ≤ 83 then false else x.hot }
    let d1 := d.setMc m x1
    if x.st ≠ .run then d1
    else if x.retraining then
      if (List.range 4).any (fun c => (x.chan c).closed) then d1
      else match (List.range 4).find? (fun c => (x.chan c).retrainDue) with
        | some c => d1.trainCmd m c
        | none => d1
    else if 10 ≤ apart temp.toNat x.trainTemp.toNat then
      d1.setMc m ((List.range 4).foldl (fun y c => y.setChan c { y.chan c with retrainDue := true }) x1)
    else d1

def execDramTempRead (m : Nat) (temp : Byte) (s : State) : Host.Outcome State Fault Refusal :=
  runUnit (decide (m < nMcs)) (whenClocked m (dramTempRead m temp)) s

/-- The retraining of channel c ends; with the fourth, the reading is recorded (10 R263). -/
def retrainChannelDone (m ci : Nat) (d : Device) : Device :=
  let x := d.mc m
  if (x.chan ci).closed then
    let y := x.setChan ci { x.chan ci with closed := false, retrainDue := false }
    d.setMc m (if y.retraining then y else { y with trainTemp := y.temp })
  else d

def execRetrainChannelDone (m c : Nat) (s : State) : Host.Outcome State Fault Refusal :=
  runUnit (decide (m < nMcs) && decide (c < 4)) (whenClocked m (retrainChannelDone m c)) s

/-- Read i of channel c has waited 2 µs (10 R274). -/
def agePromote (m ci i : Nat) (d : Device) : Device :=
  d.modMc m fun x =>
    let c := x.chan ci
    x.setChan ci { c with readq := c.readq.zipIdx.map fun e => if e.2 = i then { e.1 with aged := true } else e.1 }

def execAgePromote (m c i : Nat) (s : State) : Host.Outcome State Fault Refusal :=
  runUnit (decide (m < nMcs) && decide (c < 4)) (whenClocked m (agePromote m c i)) s

/-- The next granule of the patrol is to be read (10 R275). -/
def patrolScrubRead (m : Nat) (d : Device) : Device :=
  let x := d.mc m
  let ms := d.mcsOf (m / 24)
  if x.st = .run && d.mcOn m then
    let ci := x.pos.toNat % 4
    let off := unplaceDram ms.length (ms.idxOf m) ci (x.pos.toNat / 4)
    let a := (m / 24 * 0x1000000000 + off) / 64
    let c := x.chan ci
    let y := x.setChan ci { c with readq := c.readq ++ (List.range 4).map fun i => ⟨a + i, .scrub, false, false⟩ }
    d.setMc m { y with
      pos := x.pos + 1
      passes := if x.pos = BitVec.allOnes 23 then x.passes + 1 else x.passes }
  else d

def execPatrolScrubRead (m : Nat) (s : State) : Host.Outcome State Fault Refusal :=
  runUnit (decide (m < nMcs)) (whenClocked m (patrolScrubRead m)) s

end Sys2Proof.Machine
end

