-- ==== Sys2Proof/Machine/Power.lean ====
section
/-! DEFINITION. Power domains (13 R337-R342), the device horizon (13 R341), and tile clock division for power and heat (13 R343-R345). -/

namespace Sys2Proof.Machine

/-! ## The horizon (13 R341) -/

/-- HORIZON_UPDATE (13 R341): the command processor sends H to every die manager, which counts it down. -/
def horizonUpdate (d : Device) : Device := d.sendHorizon

def execHorizonUpdate (s : State) : Host.Outcome State Fault Refusal := run horizonUpdate s

/-- H is at least n ticks. -/
def Device.horizonFrom (d : Device) (n : Nat) : Bool :=
  match d.host.horizon with
  | some h => decide (n ≤ h)
  | none => true

/-! ## Domains (13 R337, R340) -/

/-- The domain's key, and whether there is such a domain. -/
def domKey : DomainId → Nat
  | .frond f => domFrond f
  | .mcGroup k r => domMc (24 * k + 8 * r)
  | .patch p => domPatch p
  | .routerGroup k v => domRouter k v

def domThere : DomainId → Bool
  | .frond f => decide (f < nFronds)
  | .mcGroup k r => decide (k < nDies) && decide (r < 3)
  | .patch p => decide (p < 64)
  | .routerGroup k v => decide (k < nDies) && decide (v < 8)

/-- The die of a domain. -/
def domDie : DomainId → Nat
  | .frond f => f / 24
  | .mcGroup k _ => k
  | .patch p => p / 8
  | .routerGroup k _ => k

/-- The controllers of a group. -/
def groupMcs (k r : Nat) : List Nat := upFrom (24 * k + 8 * r) 8

/-- The routers of a group. -/
def groupRouters (k v : Nat) : List Nat := (List.range 6).map fun u => routerAt k u v

/-- The domain's units are fused off: it is OFF (13 R337). -/
def Device.domOff (d : Device) : DomainId → Bool
  | .frond f => !d.frondOn f
  | .mcGroup k r => (groupMcs k r).all fun m => !d.mcOn m
  | .patch p => !d.patchOn p
  | .routerGroup _ _ => false

/-- The local ports of the units of a domain. -/
def domPorts : DomainId → List PortId
  | .frond f => [⟨frondRouter f, 0⟩]
  | .mcGroup k r => (groupMcs k r).map mcPort
  | .patch p => (regionPorts (patchRegion p)).map portOfKey
  | .routerGroup _ _ => []

/-- A packet for the domain is held, or waits in a receive buffer: one for a controller may wait there for the host's coherence answers (09 R246, 15 R389). -/
def Device.packetWaits (d : Device) (i : DomainId) : Bool :=
  (domPorts i).any fun p => !(d.inboxOf p).isEmpty || (p.lp == 0 && !(d.router p.r).coher.isEmpty) || (List.range 8).any fun v => (Sparse.find (d.router p.r).held (8 * p.lp + v)).isSome

/-- A steal involves frond f (07 R172). -/
def Device.stealing (d : Device) (f : Nat) : Bool :=
  (match (d.frond f).thief with | .asked _ => true | _ => false) || d.fronds.any fun e => decide (e.2.thief = .asked f)

/-- A tile of frond f has an item, or takes part in a broadcast. -/
def Device.frondWorks (d : Device) (f : Nat) : Bool :=
  (upFrom (16 * f) 16).any fun t => (d.tile t).running.isSome || (d.tile t).ended.isSome || decide ((d.tile t).seq.st = .loading)

/-- Controller m holds a request or a buffered write, is training or is frozen. -/
def MemCtl.busy (x : MemCtl) : Bool :=
  decide (x.st = .training) || decide (x.st = .frozen) || x.retraining || !x.waitW.isEmpty || !x.asm.isEmpty ||
  (List.range 4).any fun c => !(x.chan c).readq.isEmpty || !(x.chan c).issued.isEmpty || !(x.chan c).wbuf.isEmpty || !(x.chan c).backs.isEmpty

/-- A request on a port of patch p is outstanding. -/
def Device.portBusy (d : Device) (p : Nat) : Bool :=
  (regionPorts (patchRegion p)).any fun n => !(d.fport n).tq.isEmpty || (d.fport n).iq.any IqEntry.live

/-- A domain is busy (13 R340, 09 R246). Within the last 1 µs moved flits are not kept (log entry 46). -/
def Device.domBusy (d : Device) (i : DomainId) : Bool :=
  d.packetWaits i ||
  (match i with
   | .frond f =>
     let x := d.frond f
     !x.items.isEmpty || !x.reserved.isEmpty || d.frondWorks f || d.stealing f || !x.ops.isEmpty || !x.retries.isEmpty || !x.outst.isEmpty ||
     !x.mcBuf.isEmpty || x.spore.isSome || (upFrom (64 * f) 64).any fun q => !(d.hq q).parked.isEmpty
   | .mcGroup k r => (groupMcs k r).any fun m => (d.mc m).busy
   | .patch p =>
     let g := patchRegion p
     (decide ((d.region g).st = .active) && !(d.region g).sleepOk) || d.portBusy p || d.regionBusy g
   | .routerGroup k v => (groupRouters k v).any fun r =>
     let x := d.router r
     !x.inq.isEmpty || !x.part.isEmpty || !x.held.isEmpty || x.wire.any fun (e : Nat × List (BitVec 1120)) => !e.2.isEmpty)

/-- The state the rule gives a domain that is not busy, limited to those it may take (13 R340, 11 R291). -/
def Device.domTarget (d : Device) (i : DomainId) : Dom :=
  let byT : Dom := if d.horizonFrom (100 * d.pwr.tDry.toNat) then .dry else if d.horizonFrom (100 * d.pwr.tDamp.toNat) then .damp else .run
  match i with
  | .frond _ => byT
  | .mcGroup _ _ => if byT = .damp then .run else byT
  | .patch p => if (d.region (patchRegion p)).st ≠ .active then .dry else if byT = .dry then .damp else byT
  | .routerGroup _ _ => if byT = .dry then .damp else byT

/-- The next known event is too near for a domain in this state: it is woken (13 R342). A patch without logic stays in DRY. -/
def Device.domDue (d : Device) (i : DomainId) (x : Dom) : Bool :=
  match i, x with
  | .patch p, .dry => decide ((d.region (patchRegion p)).st = .active)
  | _, .damp => !d.horizonFrom 11
  | _, .dry => !d.horizonFrom 2001
  | _, _ => false

/-- DOMAIN_EVAL (13 R340, R342): from READY onward the die manager chooses the state of a domain. -/
def domainEval (i : DomainId) (d : Device) : Device :=
  let k := domKey i
  if d.rst.st ≠ .ready ∨ d.domOff i then d
  else if d.domBusy i then d.wakeDom k
  else if d.domDue i (d.dom k) then d.wakeDom k
  else
    match d.dom k, d.domTarget i with
    | .run, .damp => d.setDom k .enterDamp
    | .run, .dry => d.setDom k (.enterDry false)
    | .damp, .dry => d.setDom k (.enterDry true)
    | _, _ => d

def execDomainEval (i : DomainId) (s : State) : Host.Outcome State Fault Refusal := runUnit (domThere i) (domainEval i) s

/-- The controllers of a group enter self-refresh (13 R338); MC_HISTORY records it (10 R277). -/
def Device.groupSleep (d : Device) : DomainId → Device
  | .mcGroup k r => (groupMcs k r).foldl (fun d m =>
      if (d.mc m).st = .run then d.modMc m fun x => { x.logAll (d.time k) 5 with st := .selfRefresh } else d) d
  | _ => d

/-- DOMAIN_ENTRY_DONE (13 R338): nothing is lost in either state. -/
def domainEntryDone (i : DomainId) (d : Device) : Device :=
  let k := domKey i
  match d.dom k with
  | .enterDamp => d.setDom k .damp
  | .enterDry _ => (d.setDom k .dry).groupSleep i
  | _ => d

def execDomainEntryDone (i : DomainId) (s : State) : Host.Outcome State Fault Refusal := runUnit (domThere i) (domainEntryDone i) s

/-- A controller leaves DRY: it exits self-refresh, and retrains if the temperature has moved by 10 °C or more (10 R263, 13 R338). -/
def MemCtl.leaveDry (x : MemCtl) : MemCtl :=
  if x.st ≠ .selfRefresh then x
  else
    let y := { x with st := .run }
    if 10 ≤ apart x.temp.toNat x.trainTemp.toNat then (List.range 4).foldl (fun y c => y.setChan c { y.chan c with retrainDue := true }) y else y

/-- A domain reports RUN: its held packets are released (09 R245), a patch's waiting load goes on (12 R319), a router group moves its flits (09 R247). -/
def Device.domAwake (d : Device) (i : DomainId) : Device :=
  let d := match i with
    | .mcGroup k r => (groupMcs k r).foldl (fun d m => d.modMc m MemCtl.leaveDry) d
    | .patch p => d.patchAwake p
    | .routerGroup k v => (groupRouters k v).foldl Device.forward d
    | .frond _ => d
  (domPorts i).foldl (fun d p => d.releaseHeld p.r p.lp) d

/-- DOMAIN_WAKE_DONE (13 R338, R339). -/
def domainWakeDone (i : DomainId) (d : Device) : Device :=
  let k := domKey i
  match d.dom k with
  | .waking _ => (d.setDom k .run).domAwake i
  | _ => d

def execDomainWakeDone (i : DomainId) (s : State) : Host.Outcome State Fault Refusal := runUnit (domThere i) (domainWakeDone i) s

/-! ## Tile clock division (13 R343-R345) -/

/-- The effective cap in W. -/
def Device.effCap (d : Device) : Nat := if d.pwr.cap = 0 then d.variant.power else d.pwr.cap.toNat

/-- A demand after a window: whether its rise and fall conditions hold; the new demand, the windows in a row that met the fall condition,
and whether it may fall now. -/
def demandRise (dem : Nat) (up : Bool) : Nat := if up then min 4 (dem + 1) else dem

def coolCount (dem n : Nat) (up cool : Bool) : Nat := if !up && cool && decide (2 < dem) then n + 1 else 0

/-- A new divider in force (13 R345): its event, and for a rise the counters of every die. -/
def Device.setDivider (d : Device) (old watts : Nat) : Device :=
  let v := max d.pwr.pDemand d.pwr.hDemand
  let d := { d with pwr := { d.pwr with div := v } }
  if v = old then d
  else
    let d := if old < v then (List.range nDies).foldl (fun d k => d.bump 0x60 k 1) d else d
    d.raise 0x11 (BitVec.ofNat 64 v) (BitVec.ofNat 64 watts)

/-- Junction j of die k at the end of a window: its warning is raised when it first reaches 100 °C, and again only once it has fallen to 95 °C (13 R345). -/
def Device.junction (d : Device) (k j t : Nat) : Device :=
  if 100 ≤ t then
    (if d.pwr.warned.contains (k, j) then d
     else ({ d with pwr := { d.pwr with warned := d.pwr.warned ++ [(k, j)] } }).raise 0x10 (pack [(k, 0), (t % 256, 8)]) 0)
  else if t ≤ 95 then { d with pwr := { d.pwr with warned := d.pwr.warned.filter fun e => e != (k, j) } }
  else d

/-- The junctions of die k in a window: their warnings, and the registers of the hottest (13 R345, R354). -/
def Device.junctions (d : Device) (k : Nat) (ts : List Nat) : Device :=
  let t := ts.foldl max 0
  let d := ts.zipIdx.foldl (fun d e => d.junction k e.2 e.1) d
  { d with pwr := { d.pwr with
    tj := Sparse.put 0 d.pwr.tj k t
    hot := if 105 ≤ t then insNat k d.pwr.hot else delNat k d.pwr.hot
    warn := if 100 ≤ t then insNat k d.pwr.warn else if t ≤ 95 then delNat k d.pwr.warn else d.pwr.warn } }

/-- The two demands at the end of a window (13 R344, R345): the fall of one does not happen beside the rise of the other. -/
def Device.demands (d : Device) (watts : Nat) (tj : List Nat) : Device :=
  let p := d.pwr
  let pUp := decide (d.effCap < watts)
  let hUp := tj.any fun t => decide (105 ≤ t)
  let pCool := coolCount p.pDemand p.pCool pUp (decide (100 * watts * p.pDemand ≤ 95 * d.effCap * (p.pDemand - 1)))
  let hCool := coolCount p.hDemand p.hCool hUp (tj.all fun t => decide (t ≤ 100))
  let pRise := decide (demandRise p.pDemand pUp ≠ p.pDemand)
  let hRise := decide (demandRise p.hDemand hUp ≠ p.hDemand)
  let pFall := decide (10 ≤ pCool) && !hRise
  let hFall := decide (10 ≤ hCool) && !pRise
  { d with pwr := { p with
    pDemand := if pFall then p.pDemand - 1 else demandRise p.pDemand pUp
    hDemand := if hFall then p.hDemand - 1 else demandRise p.hDemand hUp
    pCool := if pFall then 0 else pCool
    hCool := if hFall then 0 else hCool
    watts := watts } }

/-- POWER_WINDOW: a 1 ms window ends, with its average input power and the highest temperature of each junction of each die (13 R343-R345). LD0's die
manager alone sets the divider. -/
def powerWindow (watts : Nat) (tj : List (List Nat)) (d : Device) : Device :=
  if !d.mod.powered || !has d.boot.dms 0 then d
  else
    let old := d.pwr.div
    let d := (List.range nDies).foldl (fun d k => d.junctions k (tj.getD k [])) d
    (d.demands watts (tj.take nDies).flatten).setDivider old watts

def execPowerWindow (watts : Nat) (tj : List (List Nat)) (s : State) : Host.Outcome State Fault Refusal := run (powerWindow watts tj) s

end Sys2Proof.Machine
end

