-- ==== Sys2Proof/Machine/Boot.lean ====
section
/-! DEFINITION. Bring-up: the fuse map (14 R359), firmware verification and recovery (14 R360, 17 R432), network self-test and censuses (R361, R362),
DRAM training and zeroing (R357), self-test (R369, R370), fiddlehead service (R373, R374), diagnostic hold (R376) and closing (R372). -/

namespace Sys2Proof.Machine

/-- Bring-up can proceed: the package is powered and its reset is released (13 R351). -/
def Device.booting (d : Device) : Bool := d.mod.powered && !d.rst.held

def Device.setStep (d : Device) (n : Nat) : Device := { d with boot := { d.boot with step := n } }

/-- The dies whose die manager runs. -/
def Device.runningDies (d : Device) : List Nat := (List.range nDies).filter (has d.boot.dms)

/-- UART console: idle until the die managers run, then firmware progress lines, whose text no rule gives (14 R377; log entry 101). -/
def Device.uartIdle (d : Device) : Bool := d.boot.dms.isEmpty

/-- The controllers of the next die in order train (14 R357). -/
def Device.trainNext (d : Device) : Device :=
  match d.runningDies.find? (fun k => !has d.boot.trained k && !has d.boot.dramFailed k) with
  | some k =>
    if d.boot.warm || d.boot.dramStopped then d
    else (d.mcsOf k).foldl (fun d m => d.modMc m fun x => if x.st = .off then { x with st := .training } else x) d
  | none => d

/-! ## Diagnostic hold (14 R376) -/

/-- The broadcast of the tile firmware ends with the bring-up it belongs to. -/
def Device.dropFirmwareSpore (d : Device) : Device :=
  match d.sched.spore with
  | some x =>
    if x.cmd.isSome then d
    else
      let d := (x.tiles.filter (fun e => e.2 != 0)).foldl (fun d e => d.leaveSpore e.1) (d.setSpore none)
      (d.fronds.map (·.1)).foldl (fun d f => d.modFrond f fun y => { y with spore := none, unicasts := [] }) d
  | none => d

/-- A hold: STATE passes from EARLY or FIDDLEHEAD to DIAG_HOLD, every die manager records the cause, RUNs are settled, and DRAM bring-up carries on where it
may (14 R355, R375, R376). -/
def Device.enterHold (cause : Nat) (d : Device) : Device :=
  if d.rst.st ≠ .early ∧ d.rst.st ≠ .fiddlehead then d
  else
    let stops := decide (cause = 1) || decide (cause = 4) || decide (cause = 6)
    let d := { d with rst := { d.rst with st := .diagHold, holdTiles := d.tilesInService } }
    let d := d.runningDies.foldl (fun d k => d.setBuDie k { d.buDie k with holdCause := cause }) d
    let d := { d with
      boot := { d.boot with step := 13, dramStopped := d.boot.dramStopped || stops }
      cxl := { d.cxl with mediaErr := d.cxl.mediaErr || decide (cause = 4) || decide (cause = 6) } }
    d.abortAll.dropFirmwareSpore.trainNext

/-! ## Fuses and firmware (14 R356, R359, R360) -/

/-- Three lists of numbered values voted, number by number; one that is not listed stands for the value given. -/
def voteBy {α : Type} (vote : α → α → α → α) (dflt : α) (a b c : List (Nat × α)) : List (Nat × α) :=
  let at_ := fun (l : List (Nat × α)) (k : Nat) => ((l.find? (fun e => e.1 == k)).map (·.2)).getD dflt
  (((a ++ b ++ c).map (·.1)).foldl (fun l k => insNat k l) []).map fun k => (k, vote (at_ a k) (at_ b k) (at_ c k))

/-- The majority of each bit of three numbers. -/
def voteNat (a b c : Nat) : Nat := (a &&& b) ||| (a &&& c) ||| (b &&& c)

/-- The majority of each bit of the fuse map's three copies (14 R359). -/
def FuseMap.vote (a b c : FuseMap) : FuseMap := {
  variant := vote3 a.variant b.variant c.variant
  frondEn := (List.range nDies).map fun k => vote3 (a.frondEn.getD k 0) (b.frondEn.getD k 0) (c.frondEn.getD k 0)
  mcEn := (List.range nDies).map fun k => vote3 (a.mcEn.getD k 0) (b.mcEn.getD k 0) (c.mcEn.getD k 0)
  patchEn := vote3 a.patchEn b.patchEn c.patchEn
  linkEn := vote3 a.linkEn b.linkEn c.linkEn
  spareSel := voteBy vote3 0x924924 a.spareSel b.spareSel c.spareSel
  sramRepair := voteBy voteNat 0 a.sramRepair b.sramRepair c.sramRepair
  serial := vote3 a.serial b.serial c.serial
  stepping := vote3 a.stepping b.stepping c.stepping
  crc := vote3 a.crc b.crc c.crc }

/-- Sensing: the voted fields, and whether the stored CRC-32C matches them (14 R359). -/
def Fuses.sense (f : Fuses) : Fuses :=
  match f.copies with
  | [a, b, c] =>
    let m := FuseMap.vote a b c
    { f with
      variant := m.variant, frondEn := m.frondEn, mcEn := m.mcEn, patchEn := m.patchEn, linkEn := m.linkEn
      spareSel := m.spareSel.foldl (fun l e => Sparse.put 0x924924 l e.1 e.2) []
      sramRepair := m.sramRepair.foldl (fun l e => Sparse.put 0 l e.1 e.2) []
      serial := m.serial, stepping := m.stepping, crcOk := crc32c (Config.fuseBytes m) == m.crc }
  | _ => f

/-- FUSE_SENSE: the root PLLs are locked and the fuse map is sensed; a warm start keeps the map (14 R356, R358). Each array takes its SPARE_SEL (03 R74). -/
def fuseSense (d : Device) : Device :=
  if !d.booting || d.boot.warm || d.boot.sensed then d
  else
    ({ d with
      fuses := d.fuses.sense
      pwr := { d.pwr with pll := List.range nDies }
      boot := { d.boot with sensed := true, step := 1 } }).fuseTiles

def execFuseSense (s : State) : Host.Outcome State Fault Refusal := run fuseSense s

/-- Enabled patches of a die (00 R5). -/
def Variant.patchMask (v : Sys2Proof.Variant) : Nat := 2 ^ v.patches - 1

/-- The map passes its check (14 R359). -/
def Device.mapOk (d : Device) : Bool :=
  let v := d.variant
  d.fuses.crcOk && decide (1 ≤ d.fuses.variant.toNat) && decide (d.fuses.variant.toNat ≤ 4) &&
  (List.range nDies).all (fun k => decide ((d.frondsOf k).length = v.fronds) && decide ((d.mcsOf k).length = v.mcs) &&
    decide (fld d.fuses.patchEn (8 * k) 8 = Variant.patchMask v)) &&
  decide (d.fuses.linkEn.toNat = v.links)

/-- The blown bits are a thermometer code (17 R425). -/
def thermometer (w : Word) : Bool := w &&& (w + 1) == 0

/-- The slot a core boots from: the selected one, else the other (17 R432). Each core takes in the slots' bursts itself, and checks what it has taken in:
intact says of each slot that this core has taken in what the flash holds (14 R360). -/
def Device.bootSlot (d : Device) (intact : Bool → Bool) : Option (Bool × List Byte) :=
  let b := d.selected.1
  match d.slotImage b, intact b with
  | .ok img, true => some (b, img)
  | _, _ =>
    match d.slotImage (!b), intact (!b) with
    | .ok img, true => some (!b, img)
    | _, _ => none

/-- What LD0's firmware sets: its FUSE_SVN, and the boot configuration of its body (14 R379, 17 R429). -/
def Device.takeConfig (d : Device) (img : List Byte) : Device :=
  let body := (img.drop 256).take (imgBody img)
  { d with
    sec := { d.sec with fuseSvn := BitVec.ofNat 64 (imgFuseSvn img) }
    boot := { d.boot with
      linkAuto := Config.bootLinkAuto body, fabBase := Config.bootFabricBase body
      fabDies := Config.bootFabricDies body, refclk := Config.bootRefclk body } }

/-- Die k's core starts its die manager from a slot. -/
def Device.coreBoots (d : Device) (k : Nat) (b : Bool) (img : List Byte) : Device :=
  let h := img.take 256
  let d := { d with sec := { d.sec with
    fwOk := insNat k d.sec.fwOk, slotB := if b then insNat k d.sec.slotB else delNat k d.sec.slotB } }
  let d := d.measureBoot 2 k (b2n b) h (Config.shake256 h 64)
  if k = 0 then d.takeConfig img else d

/-- LD0's core serves recovery: STATE passes from RESET to DIAG_HOLD (14 R360, 17 R432). -/
def Device.recover (d : Device) : Device :=
  { d with rst := { d.rst with st := .diagHold, holdTiles := 0 }, sec := { d.sec with recovery := true } }

/-- The die managers run, and STATE becomes EARLY; a fuse map that fails, or a die without firmware, holds the device at once (14 R356, R359, R360). -/
def Device.managersRun (d : Device) : Device :=
  let fw := leNat ((d.flashRead (slotBase (has d.sec.slotB 0) + fwOffset) 256).drop 0x28 |>.take 4)
  let d := { d with
    boot := { d.boot with dms := d.sec.fwOk, step := 3 }
    sec := { d.sec with fwVersion := BitVec.ofNat 32 fw }
    rst := { d.rst with st := .early } }
  if !d.mapOk then d.enterHold 1
  else if d.sec.fwOk.length < nDies then d.enterHold 7
  else d

/-- The digest of the OWNER entry: over the owner key, or 64 zero bytes (17 R435). -/
def Device.ownerDigest (d : Device) : List Byte := Config.shake256 (d.ownerKey.headD (List.replicate 64 0)) 64

/-- SEC_BOOT: the ROM of die k's core reads the security fuses, checks the slots and starts the die manager (17 R425, R426, R432). -/
def secBoot (k : Nat) (intactA intactB : Bool) (d : Device) : Device :=
  if !d.booting || !d.boot.sensed || !(List.range nDies).all (has d.pwr.pll) || decide (2 < d.boot.step) || has d.boot.cores k then d
  else
    let d := { d with fuses := d.fuses.senseSec }
    if d.fuses.secCrcBad || !thermometer d.fuses.svcBits then d.securityReset
    else
    let d := { d with boot := { d.boot with step := 2, cores := insNat k d.boot.cores } }
    let d := if k = 0 then { d with sec := { d.sec with identity := Config.unseals (d.flashRead 0x30000 0x10000) } } else d
    let d := d.measureBoot 1 k 0 [] (Config.shake256 (Config.romBytes k) 64)
    let d := match d.bootSlot (fun b => if b then intactB else intactA) with
      | some (b, img) => d.coreBoots k b img
      | none => if k = 0 then d.recover else d
    let d := if k = 0 then d.measureBoot 3 0 0 [] d.ownerDigest else d
    if d.boot.cores.length = nDies ∧ !d.sec.recovery then d.managersRun else d

def execSecBoot (k : CoreStart) (s : State) : Host.Outcome State Fault Refusal :=
  runUnit (decide (k.die < nDies)) (secBoot k.die k.intactA k.intactB) s

/-! ## Network self-test and census (14 R361, R362) -/

/-- NETWORK_SELFTEST_DONE: a failing link, named by its router and output, holds the device. -/
def networkSelftestDone (failed : List (Nat × Nat)) (d : Device) : Device :=
  if d.booting && decide (d.boot.step = 3) then (if failed.isEmpty then d.setStep 4 else (d.setStep 4).enterHold 3) else d

def execNetworkSelftestDone (failed : List (Nat × Nat)) (s : State) : Host.Outcome State Fault Refusal := run (networkSelftestDone failed) s

/-- A unit is attached at its local port: it is not fused off (01 R18, R19). -/
def Device.attached (d : Device) : UnitAt → Bool
  | .frond f => d.frondOn f
  | .mc m => d.mcOn m
  | .patch p _ => d.patchOn p
  | .link n => d.linkOn n
  | .none => false
  | _ => true

/-- What answers at router r by the fuse map, R16, R17, R18 and R19: the router with its coordinates, its bridge endpoints, and the units attached. -/
def Device.expectedAt (d : Device) (r : Nat) : List Answer :=
  ((List.range 4).filter (isBridge r)).map (fun o => ⟨r, o, .bridge⟩) ++
  ((List.range 2).filter (fun lp => d.attached (unitAt r lp))).map (fun lp => ⟨r, 4 + lp, .unit (unitAt r lp)⟩) ++
  [⟨r, 6, .router (r % 12) (r / 12)⟩]

/-- The routers of a die. -/
def dieRouters (k : Nat) : List Nat := (List.range 384).filter fun r => rtrDie r == k

/-- What does not answer on die k though it is expected, and what answers though it is not (14 R362). -/
def Device.mismatches (d : Device) (k : Nat) (answers : List Answer) : List Answer × List Answer :=
  let want := (dieRouters k).flatMap d.expectedAt
  let got := answers.filter fun a => rtrDie a.r == k
  (want.filter (fun a => !got.elem a), got.filter (fun a => !want.elem a))

/-- The first of some mismatches, by router and then by place (log entry 121). -/
def firstAnswer : List Answer → Option Answer
  | [] => none
  | a :: l =>
    match firstAnswer l with
    | none => some a
    | some b => if b.r < a.r ∨ (b.r = a.r ∧ b.port < a.port) then some b else some a

/-- What the census of a die records (14 R380 CENSUS). -/
def censusDie (b : BuDie) (agree : Bool) (found : List Answer × List Answer) : BuDie :=
  let b := { b with
    missing := BitVec.ofNat 8 (min 255 found.1.length), extra := BitVec.ofNat 8 (min 255 found.2.length)
    passes := if b.passes = 255 then 255 else b.passes + 1, agree := agree }
  match firstAnswer (found.1 ++ found.2) with
  | some a => { b with firstU := BitVec.ofNat 3 (rtrCol a.r), firstV := BitVec.ofNat 3 (rtrRow a.r), firstPort := BitVec.ofNat 3 a.port }
  | none => b

/-- CENSUS: the first one starts the links the boot configuration enables, and DRAM bring-up; the second one leads to closing (14 R362, R374, R378). -/
def census (answers : List Answer) (d : Device) : Device :=
  if !d.booting || (decide (d.boot.step ≠ 4) && decide (d.boot.step ≠ 10)) then d
  else
    let second := decide (d.boot.step = 10)
    let found := (List.range nDies).map fun k => d.mismatches k answers
    let agree := found.all fun x => x.1.isEmpty && x.2.isEmpty
    let d := (List.range nDies).foldl (fun d k => d.setBuDie k (censusDie (d.buDie k) agree (found.getD k ([], [])))) d
    if !agree then d.enterHold (if second then 5 else 2)
    else if second then d.setStep 11
    else
      let ls := d.portsOn.filter fun n => bitAt d.boot.linkAuto n
      (ls.foldl Device.startTrain (d.setStep 5)).trainNext

def execCensus (answers : List Answer) (s : State) : Host.Outcome State Fault Refusal := run (census answers) s

/-! ## Self-test and fiddlehead service (14 R369-R374) -/

/-- The tiles under test on die k. -/
def Device.testTiles (d : Device) (k : Nat) : List Nat := (d.frondsOf k).flatMap d.tilesOf

/-- One discrepancy of die k (14 R370). -/
def Device.discrepancy (d : Device) (k : Nat) : Device := d.setBuDie k { d.buDie k with discrep := (d.buDie k).discrep + 1 }

/-- Tile t fails self-test: it is excluded; a frond left without a tile loses its items (14 R370, 07 R455). -/
def Device.excludeTest (d : Device) (t : Nat) : Device :=
  let f := t / 16
  let d := (d.modTile t fun x => { x with avail := .selftest }).raise 0x30 (BitVec.ofNat 64 t) 1
  if (d.tilesOf f).isEmpty && !(d.frond f).withheld then Device.loseItems f (d.frond f).items.length d else d

/-- Self-test part II has ended on every tile of die k. -/
def Device.partIIOver (d : Device) (k : Nat) : Bool := (d.testTiles k).all fun t => (d.tile t).partII

/-- A part II batch whose tiles have all been tested ends: failed tiles are excluded, the fronds return to service at the divider 4 (14 R374). -/
def Device.endBatch (d : Device) : Device :=
  if d.boot.batch.isEmpty || !(d.boot.batch.flatMap d.tilesOf).all (fun t => (d.tile t).partII) then d
  else
    let b := d.boot.batch
    let bad := d.boot.failedII
    let d := b.foldl (fun d f => d.modFrond f fun y => { y with withheld := false, baseDiv := 4 }) d
    let d := { d with boot := { d.boot with batch := [], failedII := [], toTest := d.boot.toTest.filter fun f => !has b f } }
    bad.foldl (fun d t => (d.excludeTest t).discrepancy (t / 384)) d

/-- Part I has ended on every tile: part II begins, on a cold start with fiddlehead service on LD0 (14 R356, R358, R373). -/
def Device.endPartI (d : Device) : Device :=
  if d.boot.step ≠ 8 ∨ !(List.range nDies).all (fun k => (d.testTiles k).all fun t => (d.tile t).partI) then d
  else if d.boot.warm then d.setStep 9
  else
    let d := (d.frondsOf 0).foldl (fun d f => d.modFrond f fun y => { y with baseDiv := 4 }) d
    { d with rst := { d.rst with st := .fiddlehead }, boot := { d.boot with step := 9, toTest := d.frondsOf 0 } }

/-- Part II has ended everywhere and every die's DRAM serves: the second census begins (14 R374). -/
def Device.endPartII (d : Device) : Device :=
  if d.boot.step = 9 ∧ d.boot.toTest.isEmpty ∧ d.boot.batch.isEmpty ∧ (List.range nDies).all (fun k => has d.boot.serving k && d.partIIOver k) then d.setStep 10
  else d

/-- The parts of self-test that are over end. -/
def Device.advance (d : Device) : Device := d.endPartI.endBatch.endPartII

/-- Self-test confirms the mapping of array i: SPARE_SEL is none of the reserved values, and no physical column is faulty but the one fused as defective
(03 R74). The faulty columns are named by their arrays. -/
def spareConfirmed (sel : BitVec 24) (faulty : List (Nat × Nat)) (i : Nat) : Bool :=
  decide (spareOf sel i ≤ 4) && (faulty.filter fun e => e.1 == i).all fun e => e.2 == spareOf sel i && decide (e.2 < 4)

/-- Part I ends on tile t, with the faulty columns found in its arrays: SPARE_OK is set, and a mapping that is not confirmed excludes the tile; where its frond controller, queues or weight cache fail, all tiles of the frond are excluded (14 R369, R370). -/
def Device.partIDone (d : Device) (t : Nat) (pass : Bool) (faulty : List (Nat × Nat)) (frondOk : Bool) : Device :=
  let x := d.tile t
  let good := (List.range 8).filter (spareConfirmed x.arr.spareSel faulty)
  let d := d.setTile t { x with partI := true, arr := { x.arr with spareOk := BitVec.ofNat 8 (good.foldl (fun a i => a + 2 ^ i) 0) } }
  let d := if pass && decide (good.length = 8) then d else (d.excludeTest t).discrepancy (t / 384)
  if frondOk then d else ((d.tilesOf (t / 16)).foldl Device.excludeTest d).discrepancy (t / 384)

/-- Part II ends on tile t: a tile of LD0 is excluded when its batch ends, another one at once. -/
def Device.partIIDone (d : Device) (t : Nat) (pass : Bool) : Device :=
  let d := d.modTile t fun x => { x with partII := true }
  if pass then d
  else if has d.boot.batch (t / 16) then { d with boot := { d.boot with failedII := insNat t d.boot.failedII } }
  else (d.excludeTest t).discrepancy (t / 384)

/-- SELFTEST_PART_DONE. -/
def selftestPartDone (t : Nat) (pass : Bool) (faulty : List (Nat × Nat)) (frondOk : Bool) (d : Device) : Device :=
  if !d.booting || !d.tileOn t then d
  else if d.boot.step = 8 ∧ !(d.tile t).partI then (d.partIDone t pass faulty frondOk).advance
  else if d.boot.step = 9 ∧ !(d.tile t).partII ∧ (384 ≤ t ∨ d.boot.warm ∨ has d.boot.batch (t / 16)) then (d.partIIDone t pass).advance
  else d

def execSelftestPartDone (t : Nat) (pass : Bool) (faulty : List (Nat × Nat)) (frondOk : Bool) (s : State) : Host.Outcome State Fault Refusal :=
  runUnit (decide (t < nTiles)) (selftestPartDone t pass faulty frondOk) s

/-- PART_II_BATCH: dispatch to the next fronds stops; the batch begins once their tiles are idle (14 R374). -/
def partIIBatch (d : Device) : Device :=
  let d := if d.booting then d.advance else d
  if d.rst.st ≠ .fiddlehead ∨ !d.boot.batch.isEmpty ∨ d.boot.toTest.isEmpty then d
  else
    let fs := d.boot.toTest.take 4
    let d := fs.foldl (fun d f => d.modFrond f fun y => { y with withheld := true }) d
    if fs.any (fun f => d.frondWorks f || !(d.frond f).reserved.isEmpty) then d
    else
      let d := fs.foldl (fun d f => d.modFrond f fun y => { y with baseDiv := 2 }) d
      ({ d with boot := { d.boot with batch := fs } }).advance

def execPartIIBatch (s : State) : Host.Outcome State Fault Refusal := run partIIBatch s

/-! ## DRAM (14 R356-R358, R376) -/

/-- Where the tile firmware is staged: a place in LD0's populated DRAM (14 R356). -/
def Device.stageAddr (d : Device) : Nat := 64 * (Config.stagePlace % (d.variant.dram / 64 - 256))

/-- The tile firmware's broadcast begins (14 R363): 2,048 instructions at 14,336. On a cold start they are staged in LD0's DRAM first (14 R356). -/
def Device.firmwareSpore (d : Device) : Device :=
  let a := slotBase (has d.sec.slotB 0) + fwOffset
  let body := d.flashRead (a + 256) (imgBody (d.flashRead a 256))
  let d := if d.boot.warm then d
    else (d.dramWrite d.stageAddr ((List.range 2048).flatMap fun i => leBytes 8 (Config.tileFirmware body i).toNat)).2
  let x : Spore := {
    cmd := none, image := d.sched.image, base := 14336, body := (List.range 2048).map (Config.tileFirmware body), dies := 0xFF, prog := 0, hdr := []
    setupDone := false, queue := [], asked := [], missing := [], sent := false, tiles := [], loaded := 0, excluded := 0 }
  { d with sched := { d.sched with spore := some x, image := d.sched.image + 1 }, boot := { d.boot with step := 7 } }

/-- Die k serves; with the last one, Memory_Active is set (15 R392). The broadcast follows LD0's DRAM on a cold start, every die's on a warm one. -/
def Device.dieServes (d : Device) (k : Nat) : Device :=
  let d := { d with boot := { d.boot with serving := insNat k d.boot.serving } }
  let all := (List.range nDies).all (has d.boot.serving)
  let d := if all && !d.cxl.mediaErr then { d with cxl := { d.cxl with memActive := true, warming := false } } else d
  let d := if (decide (d.boot.step = 5) || decide (d.boot.step = 6)) && (if d.boot.warm then all else has d.boot.serving 0) then d.firmwareSpore else d
  d.advance

/-- DRAM bring-up runs on die k: in its steps, or carried on through a hold (14 R376). -/
def Device.dramRuns (d : Device) (k : Nat) : Bool :=
  d.booting && has d.boot.dms k && !d.boot.dramStopped && !has d.boot.dramFailed k &&
  ((decide (5 ≤ d.boot.step) && decide (d.boot.step ≤ 9)) || decide (d.rst.st = .diagHold))

/-- A die's training or test fails: it holds the device; during a hold its segment stays in poison (14 R370, R376). -/
def Device.dramFails (d : Device) (k cause : Nat) : Device :=
  if d.rst.st = .diagHold then ({ d with boot := { d.boot with dramFailed := insNat k d.boot.dramFailed } }).trainNext else d.enterHold cause

/-- A controller is trained, or restores its training from the store and leaves self-refresh (10 R263, R276). -/
def MemCtl.trainDone (x : MemCtl) : MemCtl :=
  if x.store then x.leaveDry else { x with st := .run, store := true, trained := 0xF, trainTemp := x.temp }

/-- DRAM_TRAIN_DONE. On a cold start die k is the next in order (14 R357), and its controllers' histories record TRAIN (10 R277). -/
def dramTrainDone (k : Nat) (failed : Bool) (d : Device) : Device :=
  let next := d.runningDies.find? fun j => !has d.boot.trained j && !has d.boot.dramFailed j
  if !d.dramRuns k || has d.boot.trained k || (!d.boot.warm && next != some k) then d
  else if failed then d.dramFails k 6
  else
    let d := (d.mcsOf k).foldl (fun d m => d.modMc m fun x => if d.boot.warm then x.trainDone else x.trainDone.logAll (d.time k) 6) d
    let d := { d with boot := { d.boot with trained := insNat k d.boot.trained } }
    if d.boot.warm then d.dieServes k
    else (if d.boot.step = 5 then d.setStep 6 else d).trainNext

def execDramTrainDone (k : Nat) (failed : Bool) (s : State) : Host.Outcome State Fault Refusal :=
  runUnit (decide (k < nDies)) (dramTrainDone k failed) s

/-- The DRAM of die k holds zeros (14 R357): data by internal address, side bytes by codeword. -/
def Device.zeroDie (d : Device) (k : Nat) : Device :=
  { d with
    dram := d.dram.filter (fun e => e.1 / 0x1000000000 != k)
    side := d.side.filter (fun e => e.1 / 0x100000000 != k) }

/-- DRAM_TEST_DONE: the pattern test and zero fill of die k end, or a controller's spare rows are exhausted (14 R357, R370). -/
def dramTestDone (k : Nat) (exhausted : Bool) (d : Device) : Device :=
  if !d.dramRuns k || d.boot.warm || !has d.boot.trained k || has d.boot.serving k then d
  else if exhausted then d.dramFails k 4
  else (d.zeroDie k).dieServes k

def execDramTestDone (k : Nat) (exhausted : Bool) (s : State) : Host.Outcome State Fault Refusal :=
  runUnit (decide (k < nDies)) (dramTestDone k exhausted) s

/-! ## Closing (14 R372, R375, R378) -/

/-- Instructions 14,336-16,383 of tile t are zero. -/
def Tile.clearFirmware (x : Tile) : Tile :=
  { x with
    imem := x.imem.filter (fun e => decide (e.1 < 14336))
    badWords := x.badWords.filter fun w => decide (w < imemWord 14336) || decide (imemWord 16384 ≤ w) }

/-- A controller that has moved by 10 °C or more retrains (10 R263). -/
def MemCtl.settleTraining (x : MemCtl) : MemCtl :=
  if x.st = .run ∧ 10 ≤ apart x.temp.toNat x.trainTemp.toNat then
    (List.range 4).foldl (fun y c => y.setChan c { y.chan c with retrainDue := true }) x
  else x

/-- CLOSING: its steps, then READY: links at ADMIT are admitted, the base image is loaded, and a cold start blows the version fuses it owes (17 R434). -/
def closing (d : Device) : Device :=
  if !d.booting || d.boot.step ≠ 11 then d
  else
    let d := (d.tiles.map (·.1)).foldl (fun d t => d.modTile t Tile.clearFirmware) d
    let d := (d.frondsOf 0).foldl (fun d f => d.modFrond f fun y => { y with baseDiv := 2 }) d
    let d := (List.range nDies).foldl (fun d k => d.measureMap k none) d
    let d := (d.mcs.map (·.1)).foldl (fun d m => d.modMc m MemCtl.settleTraining) d
    let d := { d with
      boot := { d.boot with step := 12 }
      rst := { d.rst with st := .ready }
      sec := { d.sec with blowing := !d.boot.warm && decide (d.svc < min d.sec.fuseSvn.toNat 64) } }
    d.admitAll.baseLoad

def execClosing (s : State) : Host.Outcome State Fault Refusal := runC closing s

end Sys2Proof.Machine
end

