-- ==== Sys2Proof/Machine/Diag.lean ====
section
/-! DEFINITION. The diagnostic commands: DIAG_READ, MC_THAW, TRACE_CTL and BIST_RUN (08 R217). -/

namespace Sys2Proof.Machine

/-- In fiddlehead service the command names a die other than LD0 (08 R204). -/
def Device.farDie (d : Device) (k : Nat) : Bool := decide (d.rst.st = .fiddlehead) && k != 0

/-! ## DIAG_READ -/

/-- The die whose unit-control block holds the whole range. -/
def unitRange (a n : Nat) : Option Nat :=
  match placeOf a, placeOf (a + n - 1) with
  | .unit k _, .unit j _ => if k = j then some k else none
  | _, _ => none

def diagReadBody (c : Cmd) (d : Device) : Device :=
  let a := fld (c.pw 1) 0 44
  let n := fld (c.pw 2) 0 13
  if ((unitRange a n).map d.farDie).getD false then d.finish c (cplOf .notReady)
  else d.output c 24 (c.pw 3) ((d.ctlReads a (n / 8)).flatMap fun w => leBytes 8 w.toNat) (cpl .success (BitVec.ofNat 64 n) 0 0)

/-- The checks of DIAG_READ: an aligned address, a length of 8 to 4,096 in units of 8, and a range within one die's unit-control block. -/
def diagReadBad (c : Cmd) (_ : Device) : Option Nat :=
  let a := fld (c.pw 1) 0 44
  let n := fld (c.pw 2) 0 13
  let lenBad := decide (n % 8 ≠ 0) || decide (n < 8) || decide (4096 < n)
  firstBad [(a % 8 != 0 || (!lenBad && (unitRange a n).isNone), 8), (lenBad, 16)]

/-- DIAG_READ: registers of the unit-control range, read by firmware (01 R23). -/
def execDiagRead (q g : Nat) (s : State) : Host.Outcome State Fault Refusal :=
  runCmd 0x60 anyKind (fun c => [bits [(0, 44)], bits [(0, 13)], addrBits (c.pw 3)]) diagReadBad diagReadBody q g s

/-! ## MC_THAW -/

def mcThawBody (c : Cmd) (d : Device) : Device :=
  let m := fld (c.pw 1) 0 8
  if d.farDie (m / 24) then d.finish c (cplOf .notReady)
  else (d.thaw m).finish c (cpl .success (BitVec.ofNat 64 (b2n (decide ((d.mc m).st = .frozen)))) 0 0)

/-- MC_THAW (10 R270). -/
def execMcThaw (q g : Nat) (s : State) : Host.Outcome State Fault Refusal := 
  runCmd 0x61 anyKind (fun _ => [bits [(0, 8)]]) (fun c _ => firstBad [(decide (nMcs ≤ fld (c.pw 1) 0 8), 8)]) mcThawBody q g s

/-! ## TRACE_CTL -/

def traceOp (c : Cmd) : Bool := bitAt (c.pw 1) 0

def traceStartBody (c : Cmd) (d : Device) : Device :=
  let n := fld (c.pw 3) 0 40
  if d.host.traceOn then d.finish c (cplOf .busy)
  else if d.farRange (c.pw 2) n then d.finish c (cplOf .notReady)
  else ({ d with host := { d.host with traceOn := true, traceBuf := c.pw 2, traceLen := n, traceMask := c.pw 4 } }).finish c (cplOf .success)

/-- The buffer of a trace lies in populated DRAM. -/
def traceBad (c : Cmd) (d : Device) : Option Nat := firstBad [(!d.dramRange (intAddr (c.pw 2)) (fld (c.pw 3) 0 40), 16)]

/-- TRACE_CTL, OP 1. -/
def execTraceStart (q g : Nat) (s : State) : Host.Outcome State Fault Refusal :=
  runCmd 0x62 traceOp (fun _ => [bits [(0, 1)], bits [(0, 44)], bits [(0, 40)], allBits]) traceBad traceStartBody q g s

/-- n free bytes: what a trace records, whose format and rate no rule states (log entry 2). -/
def Device.freeBytes (d : Device) : Nat → List Byte × Device
  | 0 => ([], d)
  | n + 1 =>
    let r := d.fresh 8
    let t := Device.freeBytes r.2 n
    (r.1 :: t.1, t.2)

/-- What the trace has written since its start: at most LENGTH bytes from the buffer's first on. -/
def Device.traceOut (d : Device) : Nat × Device :=
  let r := d.fresh 64
  let n := r.1.toNat % (d.host.traceLen + 1)
  let l := Device.freeBytes r.2 n
  (n, (l.2.agentWrite (intAddr d.host.traceBuf) l.1).2)

def traceStopBody (c : Cmd) (d : Device) : Device :=
  if d.host.traceOn then
    let r := d.traceOut
    ({ r.2 with host := { r.2.host with traceOn := false } }).finish c (cpl .success (BitVec.ofNat 64 r.1) 0 0)
  else d.finish c (cplOf .success)

/-- TRACE_CTL, OP 0. -/
def execTraceStop (q g : Nat) (s : State) : Host.Outcome State Fault Refusal :=
  runCmd 0x62 (fun c => !traceOp c) (fun _ => [bits [(0, 1)], bits [(0, 44)], bits [(0, 40)], allBits]) noBad traceStopBody q g s

/-! ## BIST_RUN -/

/-- The units of a TARGET, and the die of one: tiles by number, controllers by number, regions as the counters of R221 number them. -/
def Device.bistUnits (d : Device) (target : Nat) : List Nat :=
  if target = 0 then (List.range nFronds).flatMap d.tilesOf
  else if target = 1 then (List.range nMcs).filter d.mcOn
  else (List.range 64).filter d.patchOn ++ upFrom 64 8

def bistDie (target u : Nat) : Nat :=
  if target = 0 then u / 384 else if target = 1 then u / 24 else if u < 64 then u / 8 else u - 64

/-- The region a fabric unit number names. -/
def bistRegion (u : Nat) : Nat := if u < 64 then patchRegion u else 9 * (u - 64) + 8

/-- A unit in use by an active RUN, or by a broadcast or a fabric operation (log entry 52): what DETAIL says of the command that holds it (08 R200). -/
def Device.bistHolder (d : Device) (target u : Nat) : Option (BitVec 16) :=
  let x := d.tile u
  let spore := (d.sched.spore.bind (·.cmd)).map fun c => holderTag c.1 c.2
  if target = 0 then
    match x.running, (d.frond (u / 16)).reserved.find? (fun r => r.tile == u) with
    | some r, _ => some (holderTag r.q r.tag)
    | none, some r => some (holderTag r.item.q r.item.tag)
    | none, none => if x.ended.isSome then some 0 else if x.seq.st = .loading then some (spore.getD 0) else none
  else if target = 1 then (d.sched.runs.head?).map fun r => holderTag r.q r.tag
  else if d.regionBusy (bistRegion u) then some (d.cplRegion (bistRegion u)).detail
  else if u < 64 then (d.sched.runs.find? fun r => bitAt r.specAware u).map fun r => holderTag r.q r.tag
  else none

/-- The units a command names: one, or all of its TARGET. -/
def Device.bistNamed (d : Device) (c : Cmd) : List Nat :=
  let u := fld (c.pw 2) 0 16
  (d.bistUnits (fld (c.pw 1) 0 2)).filter fun x => decide (u = 0xFFFF) || x == u

/-- The checks of BIST_RUN: a TARGET in use, and a unit that is there. -/
def bistBad (c : Cmd) (d : Device) : Option Nat :=
  let target := fld (c.pw 1) 0 2
  firstBad [(decide (target = 3), 8), (decide (target ≠ 3) && (d.bistNamed c).isEmpty && decide (fld (c.pw 2) 0 16 ≠ 0xFFFF), 16)]

def bistBody (failed : List Nat) (c : Cmd) (d : Device) : Device :=
  let target := fld (c.pw 1) 0 2
  let u := fld (c.pw 2) 0 16
  let units := d.bistNamed c
  if decide (u ≠ 0xFFFF) && d.farDie (bistDie target u) then d.finish c (cplOf .notReady)
  else
    match units.findSome? (d.bistHolder target) with
    | some g => d.finish c { cplOf .busy with detail := g }
    | none => d.finish c (cpl .success (BitVec.ofNat 64 units.length) (BitVec.ofNat 64 (units.filter (has failed)).length) 0)

/-- BIST_RUN: failed names the units whose test fails. -/
def execBistRun (q g : Nat) (failed : List Nat) (s : State) : Host.Outcome State Fault Refusal :=
  runCmd 0x63 anyKind (fun _ => [bits [(0, 2)], bits [(0, 16)]]) bistBad (bistBody failed) q g s

end Sys2Proof.Machine
end

