-- ==== Sys2Proof/Machine/ModuleHw.lean ====
section
/-! DEFINITION. The management target of the module: its SMBus commands and the level of MSMB_ALERT# (18 R453), and the two indicators (18 R452). -/

namespace Sys2Proof.Machine

/-- Two buses: 0 MSMB, 1 CXA. -/
def nBuses : Nat := 2

/-- The level of MSMB_ALERT#: FAULT#, or a warning (18 R453). -/
def Device.alertLevel (d : Device) : Bool := d.faultLevel || !d.pwr.warned.isEmpty

/-- The target's answer on a bus; none where it gives no acknowledgement. -/
def Device.smbPut (d : Device) (b : Nat) (a : Option (Status × List Byte)) : Device :=
  { d with mod := { d.mod with smb := match a with
    | some x => Sparse.ins d.mod.smb b x
    | none => Sparse.del d.mod.smb b } }

/-- The first 5 ms after the input passes 39 V, which lie before power good: no acknowledgement. -/
def Device.smbSilent (d : Device) : Bool := !d.mod.input || (!d.mod.powered && decide (d.mod.ticks < 500000))

/-- A command: silent at first, NOT_READY until the die managers run, then its data. -/
def Device.smbAnswer (d : Device) (b : Nat) (data : List Byte) : Device :=
  if d.smbSilent then d.smbPut b none
  else if !d.mod.powered || !has d.boot.dms 0 then d.smbPut b (some (.notReady, []))
  else d.smbPut b (some (.success, data))

/-- The hottest junction and the hottest DRAM die in °C. -/
def Device.hotJunction (d : Device) : Nat := (List.range nDies).foldl (fun a k => max a (Sparse.get 0 d.pwr.tj k)) 0
def Device.hotDram (d : Device) : Nat := (List.range nMcs).foldl (fun a m => max a (d.mc m).temp.toNat) 0

def smbStatus (b : Nat) (d : Device) : Device := d.smbAnswer b (leBytes 8 d.devStatus.toNat)

/-- SMB_STATUS: DEV_STATUS. -/
def execSmbStatus (b : Nat) (s : State) : Host.Outcome State Fault Refusal := runUnit (decide (b < nBuses)) (smbStatus b) s

def smbCause (b : Nat) (d : Device) : Device := d.smbAnswer b (leBytes 2 d.rstCause.toNat)

/-- SMB_CAUSE: RST_CAUSE. -/
def execSmbCause (b : Nat) (s : State) : Host.Outcome State Fault Refusal := runUnit (decide (b < nBuses)) (smbCause b) s

/-- The coolant is read at inlet and outlet. With the package off after a trip or a latch, or with EN not mated, the lid sensor stands for the junctions and
the DRAM. -/
def smbThermal (b inlet outlet : Nat) (d : Device) : Device :=
  let d := { d with mod := { d.mod with inlet := inlet, outlet := outlet } }
  let w := fun (x y : Nat) => leBytes 1 inlet ++ leBytes 1 outlet ++ leBytes 1 x ++ leBytes 1 y
  if d.mod.powered then d.smbAnswer b (w d.hotJunction d.hotDram)
  else if d.smbSilent then d.smbPut b none
  else if d.mod.trip || d.mod.ocLatch || !d.mod.en then d.smbPut b (some (.success, w d.mod.lid d.mod.lid))
  else d.smbPut b (some (.notReady, []))

/-- SMB_THERMAL: the coolant, junction and DRAM temperatures. -/
def execSmbThermal (b inlet outlet : Nat) (s : State) : Host.Outcome State Fault Refusal := runUnit (decide (b < nBuses)) (smbThermal b inlet outlet) s

/-- The input's voltage and current are read. -/
def smbPower (b vin iin : Nat) (d : Device) : Device :=
  let d := { d with mod := { d.mod with vin := vin, iin := iin } }
  d.smbAnswer b (leBytes 2 vin ++ leBytes 2 iin ++ leBytes 2 d.pwr.watts)

/-- SMB_POWER: the input voltage, current and power. -/
def execSmbPower (b vin iin : Nat) (s : State) : Host.Outcome State Fault Refusal := runUnit (decide (b < nBuses)) (smbPower b vin iin) s

def smbSerial (b : Nat) (d : Device) : Device := d.smbAnswer b (leBytes 8 d.fuses.serial.toNat)

/-- SMB_SERIAL: ID_SERIAL. -/
def execSmbSerial (b : Nat) (s : State) : Host.Outcome State Fault Refusal := runUnit (decide (b < nBuses)) (smbSerial b) s

/-! The two indicators (18 R452). -/

/-- What an indicator shows: green blinks at 1 Hz, amber at 1 Hz or at 4 Hz. -/
inductive Light where
  | off | green | greenBlink | amber | amberBlink | amberFast
  deriving DecidableEq, Repr

/-- Lit in either colour at some time: IND_A# and IND_B# mirror it, low while lit (18 R444). -/
def Light.lit (l : Light) : Bool := decide (l ≠ .off)

/-- IND_A. Without input power it is off, whatever else holds (log entry 100). -/
def Device.indA (d : Device) : Light :=
  if !d.mod.input then .off
  else if d.mod.trip || d.mod.ocLatch then .amberFast
  else if d.rst.st = .diagHold ∨ d.rst.fatal then .amber
  else if d.rst.st ≠ .ready then .amberBlink
  else if d.tilesInService < d.variant.tiles then .greenBlink
  else .green

/-- IND_B: the CXL link, and the ports that LINK_AUTO or LINK_CTL has enabled. -/
def Device.indB (d : Device) : Light :=
  let short := (List.range nPorts).any fun n => d.linkOn n && decide ((d.link n).st ≠ .disabled) && (!(d.link n).inRun || (d.link n).miscabled)
  if !d.mod.input then .off
  else if (d.cxl.lost && !d.cxl.up) || d.host.events.any (fun e => e.code == 0x28) then .amber
  else if d.cxl.up then (if short then .greenBlink else .green)
  else .off

end Sys2Proof.Machine
end

