-- ==== Sys2Proof/Machine/Scalar.lean ====
section
/-! DEFINITION. The scalar instructions (04 R87-R89). -/

namespace Sys2Proof.Machine

/-- The fields that R87 and R88 require to be zero: GB under IMM, IMM32 without it. -/
def immBad (w : Word) : Bool := (wImm w && wGb w != 0) || (!wImm w && wImm32 w != 0)

/-- A scalar instruction with the two operands of R88 and the SUBOP values that a test allows; f gives the result and its flags. -/
def scalarOp (sat : Bool) (subOk : Nat → Bool) (f : Word → Word → Word → Word × Flags) (_ : Ctx) (w : Word) (t : Tile) : Issue :=
  checked [((if sat then wPs w != 0 else psSat w) || immBad w || !subOk (wSub w), .reservedField)] fun _ =>
    let r := f w (t.seq.getG (wGa w)) (t.seq.opB w)
    .done { t with seq := (t.seq.setG (wGd w) r.1).flag r.2 }

/-- SUBOP must be 0. -/
def subZero (n : Nat) : Bool := n == 0

/-- A 64-bit sum or difference under SAT (04 R88). -/
def add64 (w : Word) (x : Int) : Word × Flags := let r := narrowInt 64 (wSat w) x; (BitVec.ofNat 64 r.1, r.2)

/-- A condition of CMP by SUBOP: EQ, NE, LT, LE, LTU, LEU (04 R88). -/
def cmpHolds (sub : Nat) (a b : Word) : Bool :=
  match sub with
  | 0 => a == b
  | 1 => a != b
  | 2 => decide (a.toInt < b.toInt)
  | 3 => decide (a.toInt ≤ b.toInt)
  | 4 => decide (a.toNat < b.toNat)
  | _ => decide (a.toNat ≤ b.toNat)

def execAdd (t : Nat) (s : State) : Host.Outcome State Fault Refusal :=
  runTile 0x00 (scalarOp true subZero fun w a b => add64 w (a.toInt + b.toInt)) t s

def execSub (t : Nat) (s : State) : Host.Outcome State Fault Refusal :=
  runTile 0x01 (scalarOp true subZero fun w a b => add64 w (a.toInt - b.toInt)) t s

def execAnd (t : Nat) (s : State) : Host.Outcome State Fault Refusal :=
  runTile 0x02 (scalarOp false subZero fun _ a b => (a &&& b, Flags.clear)) t s

def execOr (t : Nat) (s : State) : Host.Outcome State Fault Refusal :=
  runTile 0x03 (scalarOp false subZero fun _ a b => (a ||| b, Flags.clear)) t s

def execXor (t : Nat) (s : State) : Host.Outcome State Fault Refusal :=
  runTile 0x04 (scalarOp false subZero fun _ a b => (a ^^^ b, Flags.clear)) t s

def execShl (t : Nat) (s : State) : Host.Outcome State Fault Refusal :=
  runTile 0x05 (scalarOp false subZero fun _ a b => (a <<< (b.toNat % 64), Flags.clear)) t s

def execShr (t : Nat) (s : State) : Host.Outcome State Fault Refusal :=
  runTile 0x06 (scalarOp false (fun n => decide (n ≤ 1)) fun w a b =>
    (if wSub w = 0 then a >>> (b.toNat % 64) else BitVec.sshiftRight a (b.toNat % 64), Flags.clear)) t s

def execCmp (t : Nat) (s : State) : Host.Outcome State Fault Refusal :=
  runTile 0x09 (scalarOp false (fun n => decide (n ≤ 5)) fun w a b =>
    (if cmpHolds (wSub w) a b then 1 else 0, Flags.clear)) t s

/-- LI (04 R89). -/
def liBody (_ : Ctx) (w : Word) (t : Tile) : Issue :=
  checked [(psSat w || (bitAt w 47 && fld w 17 30 != 0), .reservedField)] fun _ =>
    let x : Word := if bitAt w 47 then BitVec.ofNat 64 ((t.seq.getG (wGd w)).toNat % 2 ^ 47 + fld w 0 17 * 2 ^ 47)
      else BitVec.ofInt 64 (sext 47 (fld w 0 47))
    .done { t with seq := t.seq.setG (wGd w) x }

def execLi (t : Nat) (s : State) : Host.Outcome State Fault Refusal := runTile 0x07 liBody t s

/-- A special register (04 R85). -/
def special (c : Ctx) (t : Tile) (n : Nat) : Word :=
  match n with
  | 0 => t.seq.ss
  | 1 => (Sparse.get 0 t.seq.lc 0).zeroExtend 64
  | 2 => (Sparse.get 0 t.seq.lc 1).zeroExtend 64
  | 3 => (Sparse.get 0 t.seq.lc 2).zeroExtend 64
  | 4 => (Sparse.get 0 t.seq.lc 3).zeroExtend 64
  | 5 => t.seq.item.zeroExtend 64
  | 6 => t.seq.slot.zeroExtend 64
  | 7 => BitVec.ofNat 64 c.t
  | 8 => c.time
  | _ => t.seq.cycle

/-- MOV (04 R88); a read of SS waits for every block of every earlier MMA (R85). Its GB field is not used and may hold anything (DESIGN CHOICE, log entry 108). -/
def movBody (c : Ctx) (w : Word) (t : Tile) : Issue :=
  let ga := wGa w
  let gd := wGd w
  checked
    [(psSat w || wImm w || wImm32 w != 0 || decide (3 < wSub w), .reservedField),
     ((wSub w == 1 && decide (9 < ga)) || (wSub w == 2 && (gd == 0 || decide (7 < gd))) || (wSub w == 3 && decide (7 < ga)),
      .operandRange)] fun _ =>
    match wSub w with
    | 0 => .done { t with seq := t.seq.setG gd (t.seq.getG ga) }
    | 1 =>
      if ga == 0 && !t.arr.blocks.isEmpty then .hold t
      else .done { t with seq := t.seq.setG gd (special c t ga) }
    | 2 => .done { t with seq := t.seq.setP gd (t.seq.getG ga) }
    | _ => .done { t with seq := t.seq.setG gd (t.seq.getP ga) }

def execMov (t : Nat) (s : State) : Host.Outcome State Fault Refusal := runTile 0x08 movBody t s

end Sys2Proof.Machine
end

