-- ==== Sys2Proof/Machine/Dispatch.lean ====
section
/-! DEFINITION. The dispatch: one arm per command, each one direct call of the command's meaning. -/

namespace Sys2Proof.Machine

open Sys2Proof

/-- The effect of a command on everything but the queue of waiting commands. -/
def exec (i : Instr) (s : State) : Host.Outcome State Fault Refusal :=
  match i with
  | .add t => Sys2Proof.Machine.execAdd t s
  | .sub t => Sys2Proof.Machine.execSub t s
  | .and t => Sys2Proof.Machine.execAnd t s
  | .or t => Sys2Proof.Machine.execOr t s
  | .xor t => Sys2Proof.Machine.execXor t s
  | .shl t => Sys2Proof.Machine.execShl t s
  | .shr t => Sys2Proof.Machine.execShr t s
  | .li t => Sys2Proof.Machine.execLi t s
  | .mov t => Sys2Proof.Machine.execMov t s
  | .cmp t => Sys2Proof.Machine.execCmp t s
  | .br t => Sys2Proof.Machine.execBr t s
  | .brc t => Sys2Proof.Machine.execBrc t s
  | .loop t => Sys2Proof.Machine.execLoop t s
  | .halt t => Sys2Proof.Machine.execHalt t s
  | .waith t => Sys2Proof.Machine.execWaith t s
  | .signal t => Sys2Proof.Machine.execSignal t s
  | .mld t => Sys2Proof.Machine.execMld t s
  | .mma t => Sys2Proof.Machine.execMma t s
  | .mzero t => Sys2Proof.Machine.execMzero t s
  | .mdrain t => Sys2Proof.Machine.execMdrain t s
  | .hpush t => Sys2Proof.Machine.execHpush t s
  | .hpop t => Sys2Proof.Machine.execHpop t s
  | .hpeek t => Sys2Proof.Machine.execHpeek t s
  | .strm t => Sys2Proof.Machine.execStrm t s
  | .strmy t => Sys2Proof.Machine.execStrmy t s
  | .rng t => Sys2Proof.Machine.execRng t s
  | .ballast t => Sys2Proof.Machine.execBallast t s
  | .fence t => Sys2Proof.Machine.execFence t s
  | .trap t => Sys2Proof.Machine.execTrap t s
  | .vld t => Sys2Proof.Machine.execVld t s
  | .vst t => Sys2Proof.Machine.execVst t s
  | .vadd t => Sys2Proof.Machine.execVadd t s
  | .vsub t => Sys2Proof.Machine.execVsub t s
  | .vmul t => Sys2Proof.Machine.execVmul t s
  | .vfma t => Sys2Proof.Machine.execVfma t s
  | .vmax t => Sys2Proof.Machine.execVmax t s
  | .vmin t => Sys2Proof.Machine.execVmin t s
  | .vsel t => Sys2Proof.Machine.execVsel t s
  | .vmaxi t => Sys2Proof.Machine.execVmaxi t s
  | .vmini t => Sys2Proof.Machine.execVmini t s
  | .vred t => Sys2Proof.Machine.execVred t s
  | .vscan t => Sys2Proof.Machine.execVscan t s
  | .vcvt t => Sys2Proof.Machine.execVcvt t s
  | .sinit t => Sys2Proof.Machine.execSinit t s
  | .sfeed t => Sys2Proof.Machine.execSfeed t s
  | .sread t => Sys2Proof.Machine.execSread t s
  | .smerge t => Sys2Proof.Machine.execSmerge t s
  | .mldSetComplete t => Sys2Proof.Machine.execMldSetComplete t s
  | .newwSwap t => Sys2Proof.Machine.execNewwSwap t s
  | .mmaBlockWrite t => Sys2Proof.Machine.execMmaBlockWrite t s
  | .arrayGapExpiry t => Sys2Proof.Machine.execArrayGapExpiry t s
  | .arrayRampStep t => Sys2Proof.Machine.execArrayRampStep t s
  | .rampLead t => Sys2Proof.Machine.execRampLead t s
  | .ballastEnd t => Sys2Proof.Machine.execBallastEnd t s
  | .streamBlockStart t => Sys2Proof.Machine.execStreamBlockStart t s
  | .streamBlockComplete t => Sys2Proof.Machine.execStreamBlockComplete t s
  | .readResponse r lp => Sys2Proof.Machine.execReadResponse r lp s
  | .writeAck r lp => Sys2Proof.Machine.execWriteAck r lp s
  | .hrespReceive r lp => Sys2Proof.Machine.execHrespReceive r lp s
  | .hopRetry r lp => Sys2Proof.Machine.execHopRetry r lp s
  | .queueOperation f => Sys2Proof.Machine.execQueueOperation f s
  | .wcFillReturn f => Sys2Proof.Machine.execWcFillReturn f s
  | .itemSend q g => Sys2Proof.Machine.execItemSend q g s
  | .itemDispatch f => Sys2Proof.Machine.execItemDispatch f s
  | .itemEnd t => Sys2Proof.Machine.execItemEnd t s
  | .itemTimeout t => Sys2Proof.Machine.execItemTimeout t s
  | .loadReport f => Sys2Proof.Machine.execLoadReport f s
  | .dieTotalReport k => Sys2Proof.Machine.execDieTotalReport k s
  | .stealRequest f => Sys2Proof.Machine.execStealRequest f s
  | .stealAnswer f => Sys2Proof.Machine.execStealAnswer f s
  | .commitApply q g => Sys2Proof.Machine.execCommitApply q g s
  | .consRecheck q g => Sys2Proof.Machine.execConsRecheck q g s
  | .nop q g => Sys2Proof.Machine.execNop q g s
  | .identify q g => Sys2Proof.Machine.execIdentify q g s
  | .getStatus q g => Sys2Proof.Machine.execGetStatus q g s
  | .setPowerPolicy q g => Sys2Proof.Machine.execSetPowerPolicy q g s
  | .resetWarm q g => Sys2Proof.Machine.execResetWarm q g s
  | .setQueueCreate q g => Sys2Proof.Machine.execSetQueueCreate q g s
  | .setQueueDelete q g => Sys2Proof.Machine.execSetQueueDelete q g s
  | .setQueueWeights q g => Sys2Proof.Machine.execSetQueueWeights q g s
  | .getCounters q g => Sys2Proof.Machine.execGetCounters q g s
  | .clearCounters q g => Sys2Proof.Machine.execClearCounters q g s
  | .getAvailability q g => Sys2Proof.Machine.execGetAvailability q g s
  | .setEventMask q g => Sys2Proof.Machine.execSetEventMask q g s
  | .copy q g => Sys2Proof.Machine.execCopy q g s
  | .fill q g => Sys2Proof.Machine.execFill q g s
  | .biasSet q g => Sys2Proof.Machine.execBiasSet q g s
  | .cacheInvalidate q g => Sys2Proof.Machine.execCacheInvalidate q g s
  | .loadProgram q g => Sys2Proof.Machine.execLoadProgram q g s
  | .run q g => Sys2Proof.Machine.execRun q g s
  | .abort q g => Sys2Proof.Machine.execAbort q g s
  | .queryRun q g => Sys2Proof.Machine.execQueryRun q g s
  | .setSchedPolicy q g => Sys2Proof.Machine.execSetSchedPolicy q g s
  | .fabricLoad q g => Sys2Proof.Machine.execFabricLoad q g s
  | .patchLoad q g => Sys2Proof.Machine.execPatchLoad q g s
  | .patchClear q g => Sys2Proof.Machine.execPatchClear q g s
  | .capture q g => Sys2Proof.Machine.execCapture q g s
  | .readback q g => Sys2Proof.Machine.execReadback q g s
  | .scrubSetPeriod q g => Sys2Proof.Machine.execScrubSetPeriod q g s
  | .scrubPause q g => Sys2Proof.Machine.execScrubPause q g s
  | .scrubResume q g => Sys2Proof.Machine.execScrubResume q g s
  | .scrubRebuild q g => Sys2Proof.Machine.execScrubRebuild q g s
  | .gpioRead q g => Sys2Proof.Machine.execGpioRead q g s
  | .gpioReleaseKeepers q g => Sys2Proof.Machine.execGpioReleaseKeepers q g s
  | .linkDisable q g => Sys2Proof.Machine.execLinkDisable q g s
  | .linkEnableTrain q g => Sys2Proof.Machine.execLinkEnableTrain q g s
  | .linkRetrain q g => Sys2Proof.Machine.execLinkRetrain q g s
  | .linkAllowLowPower q g => Sys2Proof.Machine.execLinkAllowLowPower q g s
  | .linkHoldRun q g => Sys2Proof.Machine.execLinkHoldRun q g s
  | .linkStatus q g => Sys2Proof.Machine.execLinkStatus q g s
  | .routeSet q g => Sys2Proof.Machine.execRouteSet q g s
  | .collectiveSetup q g => Sys2Proof.Machine.execCollectiveSetup q g s
  | .attest q g => Sys2Proof.Machine.execAttest q g s
  | .getMeasurements q g => Sys2Proof.Machine.execGetMeasurements q g s
  | .getCert q g => Sys2Proof.Machine.execGetCert q g s
  | .fwStage q g => Sys2Proof.Machine.execFwStage q g s
  | .fwActivate q g => Sys2Proof.Machine.execFwActivate q g s
  | .debugChallenge q g => Sys2Proof.Machine.execDebugChallenge q g s
  | .debugResponse q g => Sys2Proof.Machine.execDebugResponse q g s
  | .diagRead q g => Sys2Proof.Machine.execDiagRead q g s
  | .mcThaw q g => Sys2Proof.Machine.execMcThaw q g s
  | .traceStart q g => Sys2Proof.Machine.execTraceStart q g s
  | .traceStop q g => Sys2Proof.Machine.execTraceStop q g s
  | .bistRun q g failed => Sys2Proof.Machine.execBistRun q g failed s
  | .commandFetch => Sys2Proof.Machine.execCommandFetch s
  | .qEnable cfg => Sys2Proof.Machine.execQEnable cfg s
  | .qDisable cfg => Sys2Proof.Machine.execQDisable cfg s
  | .sqTailDoorbell q v => Sys2Proof.Machine.execSqTailDoorbell q v s
  | .cqHeadDoorbell q v => Sys2Proof.Machine.execCqHeadDoorbell q v s
  | .registerWrite off size v => Sys2Proof.Machine.execRegisterWrite off size v s
  | .eventPost => Sys2Proof.Machine.execEventPost s
  | .coalTimer q => Sys2Proof.Machine.execCoalTimer q s
  | .packetInject r lp => Sys2Proof.Machine.execPacketInject r lp s
  | .unmappedAnswer r => Sys2Proof.Machine.execUnmappedAnswer r s
  | .flitReceive r p err => Sys2Proof.Machine.execFlitReceive r p err s
  | .flitReplayRequest r p => Sys2Proof.Machine.execFlitReplayRequest r p s
  | .creditReturn r p vc => Sys2Proof.Machine.execCreditReturn r p vc s
  | .mcReadRequest m => Sys2Proof.Machine.execMcReadRequest m s
  | .mcWriteRequest m => Sys2Proof.Machine.execMcWriteRequest m s
  | .writeEntryAccept m => Sys2Proof.Machine.execWriteEntryAccept m s
  | .dramCommandIssue m c => Sys2Proof.Machine.execDramCommandIssue m c s
  | .dramReadData m c errs => Sys2Proof.Machine.execDramReadData m c errs s
  | .parityFailure m c => Sys2Proof.Machine.execParityFailure m c s
  | .refreshDue m c => Sys2Proof.Machine.execRefreshDue m c s
  | .dramTempRead m temp => Sys2Proof.Machine.execDramTempRead m temp s
  | .retrainChannelDone m c => Sys2Proof.Machine.execRetrainChannelDone m c s
  | .agePromote m c n => Sys2Proof.Machine.execAgePromote m c n s
  | .patrolScrubRead m => Sys2Proof.Machine.execPatrolScrubRead m s
  | .iqRequest r lp b => Sys2Proof.Machine.execIqRequest r lp b s
  | .trResponse r lp b => Sys2Proof.Machine.execTrResponse r lp b s
  | .tgtTimeout r lp ttag => Sys2Proof.Machine.execTgtTimeout r lp ttag s
  | .sleepOkChange g level => Sys2Proof.Machine.execSleepOkChange g level s
  | .patchWake p => Sys2Proof.Machine.execPatchWake p s
  | .dllLock g => Sys2Proof.Machine.execDllLock g s
  | .dllLockLoss g => Sys2Proof.Machine.execDllLockLoss g s
  | .dllLockTimeout g => Sys2Proof.Machine.execDllLockTimeout g s
  | .configClearDone k => Sys2Proof.Machine.execConfigClearDone k s
  | .configFrame k => Sys2Proof.Machine.execConfigFrame k s
  | .startupStep k => Sys2Proof.Machine.execStartupStep k s
  | .scrubPassStart g => Sys2Proof.Machine.execScrubPassStart g s
  | .scrubFrameRead g upset sig => Sys2Proof.Machine.execScrubFrameRead g upset sig s
  | .scrubWatchdog g => Sys2Proof.Machine.execScrubWatchdog g s
  | .horizonUpdate => Sys2Proof.Machine.execHorizonUpdate s
  | .domainEval d => Sys2Proof.Machine.execDomainEval d s
  | .domainEntryDone d => Sys2Proof.Machine.execDomainEntryDone d s
  | .domainWakeDone d => Sys2Proof.Machine.execDomainWakeDone d s
  | .powerWindow watts tj => Sys2Proof.Machine.execPowerWindow watts tj s
  | .thermtrip k => Sys2Proof.Machine.execThermtrip k s
  | .lidSensorRead temp => Sys2Proof.Machine.execLidSensorRead temp s
  | .pllLockLoss k => Sys2Proof.Machine.execPllLockLoss k s
  | .dmWatchdog k => Sys2Proof.Machine.execDmWatchdog k s
  | .modRstAssert => Sys2Proof.Machine.execModRstAssert s
  | .modRstRelease => Sys2Proof.Machine.execModRstRelease s
  | .perstAssert => Sys2Proof.Machine.execPerstAssert s
  | .perstRelease => Sys2Proof.Machine.execPerstRelease s
  | .powerGood => Sys2Proof.Machine.execPowerGood s
  | .inputUp => Sys2Proof.Machine.execInputUp s
  | .brownout => Sys2Proof.Machine.execBrownout s
  | .enBreak => Sys2Proof.Machine.execEnBreak s
  | .overcurrent => Sys2Proof.Machine.execOvercurrent s
  | .overcurrentRetry => Sys2Proof.Machine.execOvercurrentRetry s
  | .fuseSense => Sys2Proof.Machine.execFuseSense s
  | .secBoot k => Sys2Proof.Machine.execSecBoot k s
  | .networkSelftestDone failed => Sys2Proof.Machine.execNetworkSelftestDone failed s
  | .census answers => Sys2Proof.Machine.execCensus answers s
  | .dramTrainDone k failed => Sys2Proof.Machine.execDramTrainDone k failed s
  | .dramTestDone k exhausted => Sys2Proof.Machine.execDramTestDone k exhausted s
  | .selftestPartDone t pass faulty frondOk => Sys2Proof.Machine.execSelftestPartDone t pass faulty frondOk s
  | .partIIBatch => Sys2Proof.Machine.execPartIIBatch s
  | .closing => Sys2Proof.Machine.execClosing s
  | .sporeSetup => Sys2Proof.Machine.execSporeSetup s
  | .sporeChunkSend => Sys2Proof.Machine.execSporeChunkSend s
  | .sporeChunkWrite f bad => Sys2Proof.Machine.execSporeChunkWrite f bad s
  | .sporeReportRequest => Sys2Proof.Machine.execSporeReportRequest s
  | .sporeReport t => Sys2Proof.Machine.execSporeReport t s
  | .sporeReportTimeout f => Sys2Proof.Machine.execSporeReportTimeout f s
  | .sporeRepairRound => Sys2Proof.Machine.execSporeRepairRound s
  | .cxlLinkL0 allThree rate lanes => Sys2Proof.Machine.execCxlLinkL0 allThree rate lanes s
  | .cxlLinkDown => Sys2Proof.Machine.execCxlLinkDown s
  | .cxlMemRead addr => Sys2Proof.Machine.execCxlMemRead addr s
  | .cxlMemWrite addr data => Sys2Proof.Machine.execCxlMemWrite addr data s
  | .hostSnoop addr => Sys2Proof.Machine.execHostSnoop addr s
  | .doeRequest kind nonce => Sys2Proof.Machine.execDoeRequest kind nonce s
  | .hdmCommit ways gran size skip => Sys2Proof.Machine.execHdmCommit ways gran size skip s
  | .busMasterEnable on => Sys2Proof.Machine.execBusMasterEnable on s
  | .dStateChange d3 => Sys2Proof.Machine.execDStateChange d3 s
  | .cxlHotReset => Sys2Proof.Machine.execCxlHotReset s
  | .cxlReset => Sys2Proof.Machine.execCxlReset s
  | .flr => Sys2Proof.Machine.execFlr s
  | .trainingFrame n lane frame want => Sys2Proof.Machine.execTrainingFrame n lane frame want s
  | .detectDwell n => Sys2Proof.Machine.execDetectDwell n s
  | .linkStateTimeout n => Sys2Proof.Machine.execLinkStateTimeout n s
  | .linkMarker n marks skew => Sys2Proof.Machine.execLinkMarker n marks skew s
  | .linkMarkerLoss n => Sys2Proof.Machine.execLinkMarkerLoss n s
  | .linkParam n addr valid dir => Sys2Proof.Machine.execLinkParam n addr valid dir s
  | .linkDataFlit n flit damaged => Sys2Proof.Machine.execLinkDataFlit n flit damaged s
  | .linkNak n seq => Sys2Proof.Machine.execLinkNak n seq s
  | .linkDownNotice n => Sys2Proof.Machine.execLinkDownNotice n s
  | .linkElectricalIdle n => Sys2Proof.Machine.execLinkElectricalIdle n s
  | .linkIdleTimeout n own => Sys2Proof.Machine.execLinkIdleTimeout n own s
  | .linkDryTimeout n agreed => Sys2Proof.Machine.execLinkDryTimeout n agreed s
  | .linkWake n own ok => Sys2Proof.Machine.execLinkWake n own ok s
  | .rwrite n => Sys2Proof.Machine.execRwrite n s
  | .rpush n => Sys2Proof.Machine.execRpush n s
  | .rack n => Sys2Proof.Machine.execRack n s
  | .cdata n => Sys2Proof.Machine.execCdata n s
  | .treq n => Sys2Proof.Machine.execTreq n s
  | .tgrant n => Sys2Proof.Machine.execTgrant n s
  | .tdata n => Sys2Proof.Machine.execTdata n s
  | .rackResendTimer c => Sys2Proof.Machine.execRackResendTimer c s
  | .collectiveRackTimeout c => Sys2Proof.Machine.execCollectiveRackTimeout c s
  | .collectiveSrcPop c => Sys2Proof.Machine.execCollectiveSrcPop c s
  | .measurementAppend => Sys2Proof.Machine.execMeasurementAppend s
  | .svcFuseBlow ok => Sys2Proof.Machine.execSvcFuseBlow ok s
  | .challengeLapse => Sys2Proof.Machine.execChallengeLapse s
  | .glitchDetect k => Sys2Proof.Machine.execGlitchDetect k s
  | .smbStatus b => Sys2Proof.Machine.execSmbStatus b s
  | .smbCause b => Sys2Proof.Machine.execSmbCause b s
  | .smbThermal b inlet outlet => Sys2Proof.Machine.execSmbThermal b inlet outlet s
  | .smbPower b vin iin => Sys2Proof.Machine.execSmbPower b vin iin s
  | .smbSerial b => Sys2Proof.Machine.execSmbSerial b s
  | .pllRelock k => Sys2Proof.Machine.execPllRelock k s
  | .cxlCacheResponse addr data => Sys2Proof.Machine.execCxlCacheResponse addr data s
  | .jtagRequest op => Sys2Proof.Machine.execJtagRequest op s
  | .msixMaskWrite v mask => Sys2Proof.Machine.execMsixMaskWrite v mask s
  | .challengeDelayExpiry => Sys2Proof.Machine.execChallengeDelayExpiry s
  | .fecCodewordReceive n lanes => Sys2Proof.Machine.execFecCodewordReceive n lanes s

end Sys2Proof.Machine
end

