-- ==== Sys2Proof/Machine/Tick.lean ====
section
/-! DEFINITION. The passing of time: one tick of the 100 MHz oscillator, which is what a step does when no command waits (log entry 9). -/

namespace Sys2Proof.Machine

/-- Cycles a running sequencer gains in one 10 ns tick: 36 root cycles of 3.6 GHz over the tile divider (13 R334, R343; log entry 9). -/
def cyclesPerTick (div : Nat) : Nat := 36 / div

/-- The tile divider in force on a frond: the device's in READY and in diagnostic hold, before it the larger of the frond's base and the demands' (13 R343). -/
def Device.tileDiv (d : Device) (f : Nat) : Nat :=
  match d.rst.st with
  | .ready => d.pwr.div
  | .diagHold => d.pwr.div
  | _ => max (d.frond f).baseDiv d.pwr.div

/-- The sequencer's CYCLE counts while its tile has an item (04 R85; log entry 9). -/
def Tile.tick (div : Nat) (t : Tile) : Tile :=
  match t.running with
  | none => t
  | some _ => { t with seq := { t.seq with cycle := t.seq.cycle + BitVec.ofNat 64 (cyclesPerTick div) } }

/-- The time counters after one tick of LD0's: those of the other dies drift against it, each by a free value of 0, 1 or 2 ticks (13 R335; log entry 9). -/
def Device.countTime (d : Device) : Device :=
  let d := { d with pwr := { d.pwr with time := Sparse.put 0 d.pwr.time 0 (d.time 0 + 1) } }
  (upFrom 1 (nDies - 1)).foldl (fun d k =>
    let r := d.fresh 2
    { r.2 with pwr := { r.2.pwr with time := Sparse.put 0 r.2.pwr.time k (r.2.time k + BitVec.ofNat 64 (r.1.toNat % 3)) } }) d

/-- One oscillator tick: the time counters of all dies (13 R335), the horizon counted down (13 R341), the module's time (18), CYCLE of every
tile with an item, and what the links' lanes carry (16 R398-R406): one codeword a tick is the model's pace (log entry 9). -/
def Device.tickClocks (d : Device) : Device :=
  if d.mod.powered then
    let d := d.countTime.driveLinks
    { d with
      mod := { d.mod with ticks := d.mod.ticks + 1 }
      host := { d.host with horizon := d.host.horizon.map (· - 1) }
      tiles := d.tiles.map (fun e => (e.1, e.2.tick (d.tileDiv (e.1 / 16)))) }
  else { d with mod := { d.mod with ticks := d.mod.ticks + 1 } }

/-- What the block does when no command waits: one tick passes, and the WARM reset an FW_ACTIVATE asked for begins once no other command is in
flight (08 R216). -/
def Device.tick (d : Device) : Device :=
  let d := d.tickClocks
  if d.rst.pending && d.host.inflight.all (fun c => c.held.isSome) then d.warmCause .swWarm else d

end Sys2Proof.Machine
end

