-- ==== Sys2Proof/WellFormed.lean ====
section
/-! DEFINITION. Which commands are well formed: the units, queues, ports, channels and positions they name are ones the part has (00 R8, 01 R13-R19,
08 R189, 11 R284, 16 R397, 18 R451). A command on a unit that the fuses disable is well formed: such a unit answers nothing. -/

namespace Sys2Proof

/-- Local port lp of router r carries a port of a patch or of a static region (01 R15): columns 1 and 4 of a die, and places (2, 3) and (3, 4). -/
def fabricPort (r lp : Nat) : Bool :=
  decide (r < 384) && lp == 1 &&
    (r % 6 == 1 || r % 6 == 4 || (r % 6 == 2 && r / 12 % 8 == 3) || (r % 6 == 3 && r / 12 % 8 == 4))

/-- The domain is one of the part's (13 R337). -/
def DomainId.present : DomainId → Bool
  | .frond f => decide (f < 192)
  | .mcGroup k r => decide (k < 8) && decide (r < 3)
  | .patch p => decide (p < 64)
  | .routerGroup k v => decide (k < 8) && decide (v < 8)

/-- Everything the command names exists. -/
def Instr.wellFormed : Instr → Bool
  | .add t | .sub t | .and t | .or t | .xor t | .shl t | .shr t | .li t | .mov t | .cmp t | .br t | .brc t | .loop t | .halt t | .waith t
  | .signal t | .mld t | .mma t | .mzero t | .mdrain t | .hpush t | .hpop t | .hpeek t | .strm t | .strmy t | .rng t | .ballast t | .fence t
  | .trap t | .vld t | .vst t | .vadd t | .vsub t | .vmul t | .vfma t | .vmax t | .vmin t | .vsel t | .vmaxi t | .vmini t | .vred t | .vscan t
  | .vcvt t | .sinit t | .sfeed t | .sread t | .smerge t | .mldSetComplete t | .newwSwap t | .mmaBlockWrite t | .arrayGapExpiry t
  | .arrayRampStep t | .rampLead t | .ballastEnd t | .streamBlockStart t | .streamBlockComplete t | .itemEnd t | .itemTimeout t
  | .sporeReport t => decide (t < 3072)
  | .selftestPartDone t _ faulty _ => decide (t < 3072) && faulty.all (fun e => decide (e.1 < 8) && decide (e.2 < 5))
  | .readResponse r lp | .writeAck r lp | .hrespReceive r lp | .hopRetry r lp | .packetInject r lp => decide (r < 384) && decide (lp < 2)
  | .queueOperation f | .wcFillReturn f | .itemDispatch f | .loadReport f | .stealRequest f | .stealAnswer f | .sporeChunkWrite f _
  | .sporeReportTimeout f => decide (f < 192)
  | .itemSend q g | .commitApply q g | .consRecheck q g | .nop q g | .identify q g | .getStatus q g | .setPowerPolicy q g | .resetWarm q g
  | .setQueueCreate q g | .setQueueDelete q g | .setQueueWeights q g | .getCounters q g | .clearCounters q g | .getAvailability q g
  | .setEventMask q g | .copy q g | .fill q g | .biasSet q g | .cacheInvalidate q g | .loadProgram q g | .run q g | .abort q g | .queryRun q g
  | .setSchedPolicy q g | .fabricLoad q g | .patchLoad q g | .patchClear q g | .capture q g | .readback q g | .scrubSetPeriod q g
  | .scrubPause q g | .scrubResume q g | .scrubRebuild q g | .gpioRead q g | .gpioReleaseKeepers q g | .linkDisable q g | .linkEnableTrain q g
  | .linkRetrain q g | .linkAllowLowPower q g | .linkHoldRun q g | .linkStatus q g | .routeSet q g | .collectiveSetup q g | .attest q g
  | .getMeasurements q g | .getCert q g | .fwStage q g | .fwActivate q g | .debugChallenge q g | .debugResponse q g | .diagRead q g | .mcThaw q g
  | .traceStart q g | .traceStop q g | .bistRun q g _ => decide (q < 64) && decide (g < 65536)
  | .dieTotalReport k | .configClearDone k | .configFrame k | .startupStep k | .thermtrip k | .pllLockLoss k | .dmWatchdog k
  | .dramTrainDone k _ | .dramTestDone k _ | .glitchDetect k | .pllRelock k => decide (k < 8)
  | .secBoot k => decide (k.die < 8)
  | .commandFetch | .qEnable _ | .qDisable _ | .eventPost | .horizonUpdate | .powerWindow _ _ | .lidSensorRead _ | .modRstAssert | .modRstRelease
  | .perstAssert | .perstRelease | .powerGood | .inputUp | .brownout | .enBreak | .overcurrent | .overcurrentRetry | .fuseSense | .partIIBatch
  | .closing | .sporeSetup | .sporeChunkSend | .sporeReportRequest | .sporeRepairRound | .cxlLinkL0 _ _ _ | .cxlLinkDown | .cxlMemRead _
  | .cxlMemWrite _ _ | .hostSnoop _ | .doeRequest _ _ | .hdmCommit _ _ _ _ | .busMasterEnable _ | .dStateChange _ | .cxlHotReset | .cxlReset
  | .flr | .measurementAppend | .svcFuseBlow _ | .challengeLapse | .cxlCacheResponse _ _ | .jtagRequest _ | .challengeDelayExpiry => true
  | .sqTailDoorbell q _ | .cqHeadDoorbell q _ | .coalTimer q => decide (q < 64)
  | .registerWrite _ size _ => (size == 4 || size == 8)
  | .unmappedAnswer r => decide (r < 384)
  | .flitReceive r p _ | .flitReplayRequest r p => decide (r < 384) && decide (p < 4)
  | .creditReturn r p vc => decide (r < 384) && decide (p < 4) && decide (vc < 8)
  | .mcReadRequest m | .mcWriteRequest m | .writeEntryAccept m | .dramTempRead m _ | .patrolScrubRead m => decide (m < 192)
  | .dramCommandIssue m c | .parityFailure m c | .refreshDue m c | .retrainChannelDone m c | .agePromote m c _ => decide (m < 192) && decide (c < 4)
  | .dramReadData m c errs => decide (m < 192) && decide (c < 4) && errs.all (fun e => decide (e.1 < 68))
  | .iqRequest r lp _ | .trResponse r lp _ | .tgtTimeout r lp _ => fabricPort r lp
  | .patchWake p => decide (p < 64)
  | .dllLock g | .dllLockLoss g | .dllLockTimeout g | .scrubPassStart g | .scrubFrameRead g _ _ | .scrubWatchdog g | .sleepOkChange g _ => decide (g < 72)
  | .domainEval d | .domainEntryDone d | .domainWakeDone d => d.present
  | .networkSelftestDone failed => failed.all (fun e => decide (e.1 < 384) && decide (e.2 < 4))
  | .census answers => answers.all (fun a => decide (a.r < 384) && decide (a.port < 7))
  | .trainingFrame n lane _ _ => decide (n < 16) && decide (lane < 8)
  | .detectDwell n | .linkStateTimeout n | .linkMarkerLoss n | .linkParam n _ _ _ | .linkDataFlit n _ _ | .linkNak n _
  | .linkDownNotice n | .linkElectricalIdle n | .linkIdleTimeout n _ | .linkDryTimeout n _ | .linkWake n _ _ | .rwrite n | .rpush n | .rack n
  | .cdata n | .treq n | .tgrant n | .tdata n => decide (n < 16)
  | .linkMarker n marks _ => decide (n < 16) && marks.length == 8
  | .fecCodewordReceive n lanes => decide (n < 16) && lanes.length == 8 && lanes.all (·.all fun v => decide (v < 4))
  | .rackResendTimer c | .collectiveRackTimeout c | .collectiveSrcPop c => decide (c < 64)
  | .smbStatus b | .smbCause b | .smbThermal b _ _ | .smbPower b _ _ | .smbSerial b => decide (b < 2)
  | .msixMaskWrite v _ => decide (v < 64)

end Sys2Proof
end

