-- ==== Sys2Proof/Safety.lean ====
section
/-! DEFINITION. What counts as a safe run: every command that waits names what the part has, and the machine goes on from step to step. -/

namespace Sys2Proof.Safety

open Sys2Proof Sys2Proof.Machine

/-- Every waiting command is well formed. -/
def queueOk (s : State) : Bool := s.pending.all Instr.wellFormed

/-- The machine takes n steps from s without a fault or a refusal, and ends in s'. -/
def Runs (n : Nat) (s s' : State) : Prop := core.run n s = .next s'

end Sys2Proof.Safety
end

