-- ==== Sys2Proof/Certificates/Slice0/Obligations.lean ====
section
/-! DEFINITION. The statements for the provers, with the vocabulary they are written in (namespace Sys2Proof.Claims). -/

namespace Sys2Proof.Claims

open Sys2Proof Sys2Proof.Machine

/-- Tile t issues the word w, of opcode op: its item runs, nothing holds the sequencer, w lies at its PC without error, and fiddlehead service takes
its formats (04 R76, R104, R107; 14 R373). -/
def Issues (s : State) (t op : Nat) (w : Word) : Prop :=
  t < 3072 ∧ (s.dev.tile t).at op = true ∧ (s.dev.tile t).fetch = w ∧ ¬(s.dev.rst.st = .fiddlehead ∧ wordLimited w = true)

/-- The command is carried out, makes tile t what T says, and changes nothing else in the machine. -/
def Leaves (c : Instr) (s : State) (t : Nat) (T : Tile) : Prop := exec c s = .next { s with dev := s.dev.setTile t T }

/-- The same, where the model's own counter of free values may have moved on (log entry 2). -/
def Leaves' (c : Instr) (s : State) (t : Nat) (T : Tile) (n : Nat) : Prop := exec c s = .next { s with dev := { s.dev.setTile t T with free := n } }

/-- The command is carried out, and the device is then d. -/
def Gives (c : Instr) (s : State) (d : Device) : Prop := exec c s = .next { s with dev := d }

/-- The command is carried out as one act that leads to the device e. Where the act has touched host-bias lines which the port has not resolved, nothing of it
is done but that the port asks for them (15 R389; Obligations.BiasAndInvalidate says what settling does). -/
def Acts (c : Instr) (s : State) (e : Device) : Prop := exec c s = .next { s with dev := s.dev.settled e }

/-- The same for an act that reads or writes memory: which host-bias lines it touches is left open; where the host can hold no copy, none. -/
def Settles (c : Instr) (s : State) (e : Device) : Prop :=
  ∃ l : List Nat, Acts c s { e with cxl := { e.cxl with touched := l } } ∧ (s.dev.hostCaches = false → s.dev.cxl.touched = [] → l = [])

/-- The tile fault of the instruction at the PC (04 R109): the cause with the status R108 gives it, the code of a TRAP, the PC; STATE FAULTED, and the
item's failing end. Nothing else of the tile changes. -/
def faulted (T : Tile) (c : Cause) (st : Status) (trap : BitVec 16) : Tile :=
  let f : FaultReg := ⟨c, BitVec.ofNat 8 st.code, trap, T.seq.pc⟩
  { T with
    seq := { T.seq with st := .faulted, fault := f, wait := none }
    ended := if T.running.isSome then some ⟨st, f.word, true⟩ else T.ended }

end Sys2Proof.Claims

namespace Sys2Proof.Claims

open Sys2Proof Sys2Proof.Machine

/-- The fields R87 and R88 leave an instruction with two scalar operands: no PS, GB zero under IMM, IMM32 zero without it, SUBOP one of the listed. -/
def ScalarForm (w : Word) (subs : Nat) : Prop :=
  wPs w = 0 ∧ (wImm w = true → wGb w = 0) ∧ (wImm w = false → wImm32 w = 0) ∧ wSub w ≤ subs

/-- The tile whose instruction at the PC wrote x to the scalar register it names GD, going on at the next instruction (04 R93). -/
def wroteG (T : Tile) (gd : Nat) (x : Word) : Tile := { T with seq := T.seq.setG gd x }.fallThrough

/-- A sum or difference that leaves the signed 64-bit range. -/
def over64 (x : Int) : Bool := decide (x < -(2 ^ 63)) || decide (2 ^ 63 ≤ x)

/-- What R88 stores for the exact value x of a sum: wrapped without SAT, the nearer limit of the range with it. -/
def sum64 (sat : Bool) (x : Int) : Word :=
  if sat then
    if x < -(2 ^ 63) then 0x8000000000000000 else if 2 ^ 63 ≤ x then 0x7FFFFFFFFFFFFFFF else BitVec.ofInt 64 x
  else BitVec.ofInt 64 x

/-- The tile with SATURATED raised if b holds. -/
def satIf (T : Tile) (b : Bool) : Tile := { T with seq := { T.seq with flags := ⟨T.seq.flags.saturated || b, T.seq.flags.nanSeen⟩ } }

end Sys2Proof.Claims

namespace Sys2Proof.Claims

open Sys2Proof Sys2Proof.Machine

/-- The index PC + OFFSET of a branch, OFFSET the signed low 24 bits (04 R90). -/
def branchIndex (T : Tile) (w : Word) : Int := (T.seq.pc.toNat : Int) + (w.extractLsb' 0 24).toInt

/-- A taken branch to index a (04 R90, R94): the loops whose bodies, with those of all loops around them, hold a stay active, the others end without
rotation; a target that is no index is PC_RANGE at the branch. -/
def branched (T : Tile) (a : Int) : Tile :=
  if 0 ≤ a ∧ a < 16384 then
    { T with
      seq := { T.seq with
        st := .run, pc := BitVec.ofInt 14 a, wait := none,
        loops := (T.seq.loops.reverse.takeWhile (fun l => decide ((l.first.toNat : Int) ≤ a ∧ a ≤ (l.last : Int)))).reverse } }
  else faulted T .pcRange .tileFault 0

/-- The condition COND of BRC on a value (04 R90). -/
def branchCond (c : Nat) (x : Int) : Bool :=
  [decide (x = 0), decide (x ≠ 0), decide (x < 0), decide (0 ≤ x), decide (0 < x), decide (x ≤ 0)].getD c false

/-- The tile at index a, its loops as they are. -/
def movedTo (T : Tile) (a : Nat) : Tile := { T with seq := { T.seq with st := .run, pc := BitVec.ofNat 14 a, wait := none } }

/-- The commands by which tile t issues an instruction (04 R81, R111, R123). -/
def tileInstrs (t : Nat) : List Instr :=
  [.add t, .sub t, .and t, .or t, .xor t, .shl t, .shr t, .li t, .mov t, .cmp t, .br t, .brc t, .loop t, .halt t, .waith t, .signal t, .mld t,
   .mma t, .mzero t, .mdrain t, .hpush t, .hpop t, .hpeek t, .strm t, .strmy t, .rng t, .ballast t, .fence t, .trap t, .vld t, .vst t, .vadd t,
   .vsub t, .vmul t, .vfma t, .vmax t, .vmin t, .vsel t, .vmaxi t, .vmini t, .vred t, .vscan t, .vcvt t, .sinit t, .sfeed t, .sread t, .smerge t]

/-- The loop nest of a tile: at most four loops, no body reaching past the last instruction of a body around it (04 R86, R94). -/
def NestOk (T : Tile) : Prop := T.seq.loops.length ≤ 4 ∧ T.seq.loops.Pairwise (fun i o => i.last ≤ o.last)

end Sys2Proof.Claims

open Sys2Proof Sys2Proof.Machine Sys2Proof.Claims in
/-- 04 R90, R94: BR goes to PC + OFFSET or to the index in GA; BRC does so where its condition holds and otherwise goes on, whatever its target; a
taken branch outside 0 to 16,383 is PC_RANGE at the branch.
04 R92, R93: a LOOP of trip count n > 0 becomes the innermost active loop with lc_d = n - 1 at depth d and goes on in its body; of trip count 0 it
goes on behind the body.
04 R81, R90, R93, R94: the all-zero word changes nothing but where execution goes on: at the next instruction; at the last instruction of the
innermost body back to its start, with the rotation and one iteration less, while iterations are left; else with the loop ended, behind it or, where the
body around it ends there too, at the start of that one; the same at the last instruction of a body around a loop that is still active but ends elsewhere;
and behind index 16,383 nowhere: PC_RANGE.
04 R91, R103: HALT and FENCE hold the sequencer while something earlier has not completed, a FENCE of SCOPE 1 also while a push is not acknowledged; then HALT ends the item normally with USER_CODE and the
tile is idle, and FENCE goes on. TRAP is the tile fault TRAP with its code. -/
def Obligations.ControlFlow : Prop :=
  (∀ (s : State) (t : Nat) (w : Word), wSat w = false → wPs w = 0 →
     let T := s.dev.tile t
     let x := (T.seq.getG (wGd w)).toInt
     (Issues s t 0x0A w → bitAt w 53 = false → fld w 24 29 = 0 → Leaves (.br t) s t (branched T (branchIndex T w))) ∧
     (Issues s t 0x0A w → bitAt w 53 = true → fld w 0 47 = 0 →
       Leaves (.br t) s t (branched T ((T.seq.getG (fld w 47 6)).toNat : Int))) ∧
     (Issues s t 0x0B w → fld w 24 21 = 0 → fld w 45 3 ≤ 5 → branchCond (fld w 45 3) x = true →
       Leaves (.brc t) s t (branched T (branchIndex T w))) ∧
     (Issues s t 0x0B w → fld w 24 21 = 0 → fld w 45 3 ≤ 5 → branchCond (fld w 45 3) x = false →
       Leaves (.brc t) s t T.fallThrough)) ∧
  (∀ (s : State) (t : Nat) (w : Word), wSat w = false → wPs w = 0 → Issues s t 0x0C w → fld w 0 9 = 0 →
     let T := s.dev.tile t
     let i := T.seq.pc.toNat
     let body := fld w 18 13
     let n := if bitAt w 53 then fld w 31 16 else (T.seq.getG (fld w 47 6)).toNat
     (bitAt w 53 = true → fld w 47 6 = 0) → (bitAt w 53 = false → fld w 31 16 = 0) → n < 2 ^ 32 →
     1 ≤ body → body ≤ 4096 → T.seq.depth < 4 → NestOk T → (∀ l ∈ T.seq.loops.head?, i + body ≤ l.last) →
     (n = 0 → i + body + 1 < 16384 → Leaves (.loop t) s t (movedTo T (i + body + 1))) ∧
     (0 < n → i < 16383 →
       Leaves (.loop t) s t
         { T with
           seq := { T.seq with
             st := .run, pc := BitVec.ofNat 14 (i + 1), wait := none, lc := Sparse.put 0 T.seq.lc T.seq.depth (BitVec.ofNat 32 (n - 1)),
             loops := ⟨BitVec.ofNat 14 (i + 1), i + body, BitVec.ofNat 5 (fld w 13 5), BitVec.ofNat 4 (fld w 9 4), T.seq.depth⟩ :: T.seq.loops } })) ∧
  (∀ (s : State) (t : Nat), Issues s t 0x00 0 →
     let T := s.dev.tile t
     let e := T.seq.pc.toNat
     let lc := fun (l : LoopCtx) => Sparse.get 0 T.seq.lc l.depth
     ((∀ l ∈ T.seq.loops, l.last ≠ e) → e < 16383 → Leaves (.add t) s t (movedTo T (e + 1))) ∧
     ((∀ l ∈ T.seq.loops, l.last ≠ e) → e = 16383 → Leaves (.add t) s t (faulted T .pcRange .tileFault 0)) ∧
     (∀ l r, T.seq.loops = l :: r → l.last = e → lc l ≠ 0 →
       Leaves (.add t) s t
         { T with
           seq := { T.seq with
             st := .run, pc := l.first, wait := none, rrbG := T.seq.rrbG - l.gstep, rrbV := T.seq.rrbV - l.vstep,
             lc := Sparse.put 0 T.seq.lc l.depth (lc l - 1) } }) ∧
     (∀ l r, T.seq.loops = l :: r → l.last = e → lc l = 0 → (∀ o ∈ r, o.last ≠ e) → e < 16383 →
       Leaves (.add t) s t
         { T with
           seq := { T.seq with
             st := .run, pc := BitVec.ofNat 14 (e + 1), wait := none, rrbG := T.seq.rrbG - l.gstep, rrbV := T.seq.rrbV - l.vstep, loops := r } }) ∧
     (∀ i l r, T.seq.loops = i :: l :: r → i.last ≠ e → l.last = e → lc l ≠ 0 →
       Leaves (.add t) s t
         { T with
           seq := { T.seq with
             st := .run, pc := l.first, wait := none, rrbG := T.seq.rrbG - l.gstep, rrbV := T.seq.rrbV - l.vstep,
             lc := Sparse.put 0 T.seq.lc l.depth (lc l - 1) } }) ∧
     (∀ i l r, T.seq.loops = i :: l :: r → i.last ≠ e → l.last = e → lc l = 0 → (∀ o ∈ r, o.last ≠ e) → e < 16383 →
       Leaves (.add t) s t
         { T with
           seq := { T.seq with
             st := .run, pc := BitVec.ofNat 14 (e + 1), wait := none, rrbG := T.seq.rrbG - l.gstep, rrbV := T.seq.rrbV - l.vstep,
             loops := i :: r } }) ∧
     (∀ l o r, T.seq.loops = l :: o :: r → l.last = e → lc l = 0 → o.last = e → lc o ≠ 0 →
       Leaves (.add t) s t
         { T with
           seq := { T.seq with
             st := .run, pc := o.first, wait := none, rrbG := T.seq.rrbG - l.gstep - o.gstep, rrbV := T.seq.rrbV - l.vstep - o.vstep,
             lc := Sparse.put 0 T.seq.lc o.depth (lc o - 1), loops := o :: r } })) ∧
  (∀ (s : State) (t : Nat) (w : Word), wSat w = false → wPs w = 0 →
     let T := s.dev.tile t
     let done : Prop := T.arr.blocks = [] ∧ T.arr.ballast = 0 ∧ T.arr.loading = none ∧ T.seq.ops = [] ∧ T.strm.blocks = []
     let landed : Prop := T.arr.blocks = [] ∧ (fld w 0 2 = 1 → ∀ o ∈ T.seq.ops, o.op ≠ .push)
     let wait := { T with seq := { T.seq with st := .wait } }
     (Issues s t 0x0D w → fld w 16 38 = 0 → done →
       Leaves (.halt t) s t { T with seq := { T.seq with st := .idle }, ended := some ⟨.success, BitVec.ofNat 64 (fld w 0 16), false⟩ }) ∧
     (Issues s t 0x0D w → fld w 16 38 = 0 → ¬done → Leaves (.halt t) s t wait) ∧
     (Issues s t 0x3E w → fld w 2 52 = 0 → fld w 0 2 ≤ 1 → landed → Leaves (.fence t) s t T.fallThrough) ∧
     (Issues s t 0x3E w → fld w 2 52 = 0 → fld w 0 2 ≤ 1 → ¬landed → Leaves (.fence t) s t wait) ∧
     (Issues s t 0x3F w → fld w 16 38 = 0 → Leaves (.trap t) s t (faulted T .trap .tileFault (BitVec.ofNat 16 (fld w 0 16)))))

open Sys2Proof Sys2Proof.Machine Sys2Proof.Claims in
/-- 04 R88: ADD and SUB write the wrapped value without SAT and the nearer limit with it, either way set SATURATED where the exact value leaves the
signed 64-bit range, and change nothing else but the PC.
04 R88: the bitwise instructions, the shifts by b[5:0] and the six comparisons; none sets a flag, and none changes more than its register and
the PC.
04 R85, R88, R89: LI with UPPER clear sign-extends its 47 bits, with UPPER set it replaces bits 63 to 47 and keeps the others; MOV copies a
register, reads a special register, and moves to and from the predicate registers. A read of SS waits for every array block, and a
register number outside the listed range is OPERAND_RANGE.
04 R80, R81, R88, R90, R92, R108, R109: a scalar or control instruction with a field that its rule reserves, a reserved opcode, and an error in the
instruction's own word: the tile faults with that cause, and nothing else of it changes. -/
def Obligations.ScalarInstructions : Prop :=
  (∀ (s : State) (t : Nat) (w : Word), ScalarForm w 0 →
     let T := s.dev.tile t
     let a := T.seq.getG (wGa w)
     let b := T.seq.opB w
     (Issues s t 0x00 w →
       Leaves (.add t) s t (wroteG (satIf T (over64 (a.toInt + b.toInt))) (wGd w) (sum64 (wSat w) (a.toInt + b.toInt)))) ∧
     (Issues s t 0x01 w →
       Leaves (.sub t) s t (wroteG (satIf T (over64 (a.toInt - b.toInt))) (wGd w) (sum64 (wSat w) (a.toInt - b.toInt))))) ∧
  (∀ (s : State) (t : Nat) (w : Word), wSat w = false →
     let T := s.dev.tile t
     let a := T.seq.getG (wGa w)
     let b := T.seq.opB w
     let n := b.toNat % 64
     (ScalarForm w 0 → Issues s t 0x02 w → Leaves (.and t) s t (wroteG T (wGd w) (a &&& b))) ∧
     (ScalarForm w 0 → Issues s t 0x03 w → Leaves (.or t) s t (wroteG T (wGd w) (a ||| b))) ∧
     (ScalarForm w 0 → Issues s t 0x04 w → Leaves (.xor t) s t (wroteG T (wGd w) (a ^^^ b))) ∧
     (ScalarForm w 0 → Issues s t 0x05 w → Leaves (.shl t) s t (wroteG T (wGd w) (BitVec.ofNat 64 (a.toNat * 2 ^ n)))) ∧
     (ScalarForm w 1 → Issues s t 0x06 w →
       Leaves (.shr t) s t (wroteG T (wGd w)
         (if wSub w = 0 then BitVec.ofNat 64 (a.toNat / 2 ^ n) else BitVec.ofInt 64 (a.toInt / 2 ^ n)))) ∧
     (ScalarForm w 5 → Issues s t 0x09 w →
       Leaves (.cmp t) s t (wroteG T (wGd w)
         (if [a == b, !(a == b), a.slt b, a.sle b, a.ult b, a.ule b].getD (wSub w) false then 1 else 0)))) ∧
  (∀ (s : State) (t : Nat) (w : Word), wSat w = false → wPs w = 0 →
     let T := s.dev.tile t
     let old := T.seq.getG (wGd w)
     let mov : Prop := wImm w = false ∧ wImm32 w = 0 ∧ Issues s t 0x08 w
     (Issues s t 0x07 w → bitAt w 47 = false →
       Leaves (.li t) s t (wroteG T (wGd w) ((w.extractLsb' 0 47).signExtend 64))) ∧
     (Issues s t 0x07 w → bitAt w 47 = true → fld w 17 30 = 0 →
       Leaves (.li t) s t (wroteG T (wGd w) (w.extractLsb' 0 17 ++ old.extractLsb' 0 47))) ∧
     (mov → wSub w = 0 → Leaves (.mov t) s t (wroteG T (wGd w) (T.seq.getG (wGa w)))) ∧
     (mov → wSub w = 1 → wGa w = 0 → T.arr.blocks = [] →
       Leaves (.mov t) s t (wroteG T (wGd w)
         (BitVec.ofNat 44 T.seq.depth ++ T.seq.rrbV ++ T.seq.rrbG ++ T.seq.strmState ++ (0 : BitVec 7) ++
           BitVec.ofBool T.seq.flags.nanSeen ++ BitVec.ofBool T.seq.flags.saturated))) ∧
     (mov → wSub w = 1 → wGa w = 0 → T.arr.blocks ≠ [] →
       Leaves (.mov t) s t { T with seq := { T.seq with st := .wait } }) ∧
     (mov → wSub w = 1 → 1 ≤ wGa w → wGa w ≤ 9 →
       Leaves (.mov t) s t (wroteG T (wGd w)
         (if wGa w ≤ 4 then (Sparse.get 0 T.seq.lc (wGa w - 1)).zeroExtend 64
          else if wGa w = 5 then T.seq.item.zeroExtend 64
          else if wGa w = 6 then T.seq.slot.zeroExtend 64
          else if wGa w = 7 then BitVec.ofNat 64 t
          else if wGa w = 8 then s.dev.time (t / 384)
          else T.seq.cycle))) ∧
     (mov → wSub w = 2 → 1 ≤ wGd w → wGd w ≤ 7 →
       Leaves (.mov t) s t { T with seq := { T.seq with p := Sparse.put 0 T.seq.p (wGd w) (T.seq.getG (wGa w)) } }.fallThrough) ∧
     (mov → wSub w = 3 → wGa w ≤ 7 →
       Leaves (.mov t) s t (wroteG T (wGd w) (if wGa w = 0 then BitVec.allOnes 64 else Sparse.get 0 T.seq.p (wGa w)))) ∧
     (mov → (wSub w = 1 ∧ 10 ≤ wGa w) ∨ (wSub w = 2 ∧ (wGd w = 0 ∨ 8 ≤ wGd w)) ∨ (wSub w = 3 ∧ 8 ≤ wGa w) →
       Leaves (.mov t) s t (faulted T .operandRange .tileFault 0))) ∧
  (∀ (s : State) (t : Nat) (w : Word),
     let T := s.dev.tile t
     let bad := fun c => Leaves c s t (faulted T .reservedField .tileFault 0)
     let imm : Prop := (wImm w = true ∧ wGb w ≠ 0) ∨ (wImm w = false ∧ wImm32 w ≠ 0)
     let psat : Prop := wSat w = true ∨ wPs w ≠ 0
     (Issues s t 0x00 w → wPs w ≠ 0 ∨ imm ∨ wSub w ≠ 0 → bad (.add t)) ∧
     (Issues s t 0x01 w → wPs w ≠ 0 ∨ imm ∨ wSub w ≠ 0 → bad (.sub t)) ∧
     (Issues s t 0x02 w → psat ∨ imm ∨ wSub w ≠ 0 → bad (.and t)) ∧
     (Issues s t 0x03 w → psat ∨ imm ∨ wSub w ≠ 0 → bad (.or t)) ∧
     (Issues s t 0x04 w → psat ∨ imm ∨ wSub w ≠ 0 → bad (.xor t)) ∧
     (Issues s t 0x05 w → psat ∨ imm ∨ wSub w ≠ 0 → bad (.shl t)) ∧
     (Issues s t 0x06 w → psat ∨ imm ∨ 1 < wSub w → bad (.shr t)) ∧
     (Issues s t 0x09 w → psat ∨ imm ∨ 5 < wSub w → bad (.cmp t)) ∧
     (Issues s t 0x07 w → psat ∨ (bitAt w 47 = true ∧ fld w 17 30 ≠ 0) → bad (.li t)) ∧
     (Issues s t 0x08 w → psat ∨ wImm w = true ∨ wImm32 w ≠ 0 ∨ 3 < wSub w → bad (.mov t)) ∧
     (Issues s t 0x0A w → psat ∨ fld w 24 23 ≠ 0 ∨ (bitAt w 53 = true ∧ fld w 0 24 ≠ 0) ∨ (bitAt w 53 = false ∧ fld w 47 6 ≠ 0) →
       bad (.br t)) ∧
     (Issues s t 0x0B w → psat ∨ fld w 24 21 ≠ 0 ∨ 5 < fld w 45 3 → bad (.brc t)) ∧
     (Issues s t 0x0C w → psat ∨ fld w 0 9 ≠ 0 ∨ (bitAt w 53 = true ∧ fld w 47 6 ≠ 0) ∨ (bitAt w 53 = false ∧ fld w 31 16 ≠ 0) →
       bad (.loop t)) ∧
     (Issues s t 0x0D w → psat ∨ fld w 16 38 ≠ 0 → bad (.halt t)) ∧
     (Issues s t 0x3E w → psat ∨ fld w 2 52 ≠ 0 ∨ 1 < fld w 0 2 → bad (.fence t)) ∧
     (Issues s t 0x3F w → psat ∨ fld w 16 38 ≠ 0 → bad (.trap t)) ∧
     (t < 3072 → T.canIssue = true → T.fetchBad = false → reservedOpc (wOpc T.fetch) = true →
       ∀ c ∈ tileInstrs t, ∃ n, Leaves' c s t (faulted T .reservedOpcode .tileFault 0) n) ∧
     (t < 3072 → T.canIssue = true → T.fetchBad = true →
       ∀ c ∈ tileInstrs t, ∃ n, Leaves' c s t (faulted T .sramUncorrectable .memoryUncorrectable 0) n))

namespace Sys2Proof.Claims

open Sys2Proof Sys2Proof.Machine

/-- The tile whose instruction at the PC wrote the lanes of the mask m of the vector register it names vd, raised the flags fl, and went on. -/
def wroteV (T : Tile) (vd : Nat) (m : Word) (x : List (BitVec 32)) (fl : Flags) : Tile :=
  { T with seq := { T.seq.setV vd m x with flags := ⟨T.seq.flags.saturated || fl.saturated, T.seq.flags.nanSeen || fl.nanSeen⟩ } }.fallThrough

/-- Element i of a lane, k bits wide, as a signed number (02 R29). -/
def elemOf (k i : Nat) (x : BitVec 32) : Int := (x.extractLsb' (k * i) k).toInt

/-- A number leaves the range of k-bit signed integers. -/
def overK (k : Nat) (x : Int) : Bool := decide (x < -(2 ^ (k - 1))) || decide (2 ^ (k - 1) ≤ x)

/-- What an integer element receives for the exact result x (05 R115): the nearer limit under SAT, else the wrapped value. -/
def fitK (k : Nat) (sat : Bool) (x : Int) : Int :=
  if sat then (if x < -(2 ^ (k - 1)) then -(2 ^ (k - 1)) else if 2 ^ (k - 1) ≤ x then 2 ^ (k - 1) - 1 else x) else x.bmod (2 ^ k)

/-- The fields R114 leaves an element-wise instruction; vc says whether it takes an addend VC. -/
def ElemForm (w : Word) (vc : Bool) : Prop :=
  fld w 0 20 = 0 ∧ (wSb w = true → wVb w = 0) ∧ (wSb w = false → wVgb w = 0) ∧ (vc = false → wVc w = 0) ∧ wVsub w = 0

/-- The element-wise instructions (05 R111, R115): command, opcode, whether an addend is read, whether SAT is taken, the exact result. -/
def vecOps (t : Nat) : List (Instr × Nat × Bool × Bool × (Int → Int → Int → Int)) :=
  [(.vadd t, 0x1A, false, true, fun a b _ => a + b), (.vsub t, 0x1B, false, true, fun a b _ => a - b),
   (.vmul t, 0x1C, false, true, fun a b _ => a * b), (.vfma t, 0x1D, true, true, fun a b c => a * b + c),
   (.vmax t, 0x1E, false, false, fun a b _ => if a < b then b else a), (.vmin t, 0x1F, false, false, fun a b _ => if a < b then a else b)]

/-- The same on FP32 values, each rounded once (02 R40-R42, 05 R115). -/
def vecOpsF (t : Nat) : List (Instr × Nat × Bool × Bool × (FVal → FVal → FVal → FVal × Flags)) :=
  [(.vadd t, 0x1A, false, true, fun a b _ => fadd a b), (.vsub t, 0x1B, false, true, fun a b _ => fadd a b.negate),
   (.vmul t, 0x1C, false, true, fun a b _ => fmul a b), (.vfma t, 0x1D, true, true, ffma),
   (.vmax t, 0x1E, false, false, fun a b _ => fmaxmin true a b), (.vmin t, 0x1F, false, false, fun a b _ => fmaxmin false a b)]

end Sys2Proof.Claims

open Sys2Proof Sys2Proof.Machine Sys2Proof.Claims in
/-- 02 R29, R45; 05 R112, R114, R115: in the integer formats every element of a selected lane of VD receives the exact result, at the nearer limit
under SAT and wrapped without it, of the elements of the sources, the second of them a register or the scalar's low bits; SATURATED is set exactly where
a selected element's exact result leaves the range; unselected lanes and everything but the PC stay.
02 R40, R45; 05 R112, R114, R115: with FMT FP32 every selected lane of VD receives the operation's result rounded once, of the lanes of the
sources, read with subnormals as zeros; the flags are those of the selected lanes. -/
def Obligations.VectorElementwise : Prop :=
  (∀ (s : State) (t : Nat) (w : Word), ∀ e ∈ vecOps t, Issues s t e.2.1 w → ElemForm w e.2.2.1 → (e.2.2.2.1 = false → wSat w = false) →
     ∀ k, (wVfmt w = 1 ∧ k = 8) ∨ (wVfmt w = 2 ∧ k = 16) ∨ (wVfmt w = 3 ∧ k = 32) →
     let T := s.dev.tile t
     let m := T.seq.getP (wPs w)
     let exact := fun l i =>
       e.2.2.2.2 (elemOf k i (T.seq.getLane (wVa w) l))
         (if wSb w then ((T.seq.getG (wVgb w)).extractLsb' 0 k).toInt else elemOf k i (T.seq.getLane (wVb w) l))
         (elemOf k i (T.seq.getLane (wVc w) l))
     ∃ x fl, Leaves e.1 s t (wroteV T (wVd w) m x fl) ∧ x.length = 64 ∧
       (∀ l, l < 64 → ∀ i, i < 32 / k → elemOf k i (x.getD l 0) = fitK k (wSat w) (exact l i)) ∧
       fl.nanSeen = false ∧
       (fl.saturated = true ↔ ∃ l, l < 64 ∧ bitAt m l = true ∧ ∃ i, i < 32 / k ∧ overK k (exact l i) = true)) ∧
  (∀ (s : State) (t : Nat) (w : Word), ∀ e ∈ vecOpsF t, Issues s t e.2.1 w → ElemForm w e.2.2.1 → (e.2.2.2.1 = false → wSat w = false) →
     wVfmt w = 8 →
     let T := s.dev.tile t
     let m := T.seq.getP (wPs w)
     let r := fun l =>
       e.2.2.2.2 (vec32 (T.seq.getLane (wVa w) l))
         (vec32 (if wSb w then (T.seq.getG (wVgb w)).extractLsb' 0 32 else T.seq.getLane (wVb w) l))
         (vec32 (T.seq.getLane (wVc w) l))
     ∃ fl, Leaves e.1 s t (wroteV T (wVd w) m ((List.range 64).map fun l => (r l).1.code32) fl) ∧
       (fl.saturated = true ↔ ∃ l, l < 64 ∧ bitAt m l = true ∧ (r l).2.saturated = true) ∧
       (fl.nanSeen = true ↔ ∃ l, l < 64 ∧ bitAt m l = true ∧ (r l).2.nanSeen = true))

namespace Sys2Proof.Claims

open Sys2Proof Sys2Proof.Machine

/-- Lane l of the second source: a register, or the scalar's low bits in every element (05 R114). -/
def srcLane (T : Tile) (w : Word) (l : Nat) : BitVec 32 :=
  if wSb w then splat (vecWidth (wVfmt w)) (T.seq.getG (wVgb w)).toNat else T.seq.getLane (wVb w) l

/-- The six conditions of VSEL in the order of SUBOP 1 to 6 on signed numbers (05 R116). -/
def condInt (sub : Nat) (a b : Int) : Bool :=
  [decide (a = b), decide (a ≠ b), decide (a < b), decide (a ≤ b), decide (b < a), decide (b ≤ a)].getD (sub - 1) false

/-- The same on FP32 values: +0 equals -0, and with a NaN only NE is true (05 R116). -/
def condFp (sub : Nat) (a b : FVal) : Bool :=
  [FVal.eqv a b, !FVal.eqv a b, FVal.lt a b, FVal.lt a b || FVal.eqv a b, FVal.lt b a, FVal.lt b a || FVal.eqv a b].getD (sub - 1) false

/-- The fields R114 and R116 leave a VSEL. -/
def SelForm (w : Word) : Prop :=
  wSat w = false ∧ fld w 0 20 = 0 ∧ vecWidth (wVfmt w) ≠ 0 ∧ (wSb w = true → wVb w = 0) ∧ (wSb w = false → wVgb w = 0) ∧ wVc w = 0

/-- The tile-local address ga + OFFSET of a VLD or VST (05 R117). -/
def moveAddr (T : Tile) (w : Word) : Nat := (T.seq.getG (fld w 43 6) + (w.extractLsb' 0 22).signExtend 64).toNat

/-- A transfer of n bytes lies in operand SRAM, or whole and aligned in accumulator memory, where only raw moves of 256 bytes may go (05 R117). -/
def MoveFits (a n size : Nat) (raw : Bool) : Prop :=
  a % size = 0 ∧ (a + n ≤ 0x100000 ∨ (raw = true ∧ n = 256 ∧ 0x100000 ≤ a ∧ a + n ≤ 0x140000 ∧ a % 256 = 0))

/-- No write to the accumulator row at a is in flight (03 R60). -/
def RowReady (T : Tile) (a : Nat) : Prop := 0x100000 ≤ a → T.arr.rowBusy ((a - 0x100000) / 256) = false

/-- No block in flight has still to write the accumulator row at a, or to read it as its bias row (03 R55, R60). -/
def RowFree (T : Tile) (a : Nat) : Prop := 0x100000 ≤ a → T.arr.rowHeld ((a - 0x100000) / 256) = false

/-- Element i of packed elements of format f in the tile's memory from address a (02 R27, R29): 4 bits, one byte, two or four. -/
def memElem (T : Tile) (f a i : Nat) : Nat :=
  if fmtBits f = 4 then (T.mem.byte (a + i / 2)).toNat / (if i % 2 = 0 then 1 else 16) % 16
  else if fmtBits f = 8 then (T.mem.byte (a + i)).toNat
  else if fmtBits f = 16 then (T.mem.byte (a + 2 * i)).toNat + 256 * (T.mem.byte (a + 2 * i + 1)).toNat
  else (T.mem.byte (a + 4 * i)).toNat + 256 * ((T.mem.byte (a + 4 * i + 1)).toNat + 256 * ((T.mem.byte (a + 4 * i + 2)).toNat +
    256 * (T.mem.byte (a + 4 * i + 3)).toNat))

/-- The lane an element of format f makes: its bits, or the widened value (02 R44, 05 R117). -/
def laneFrom (f code : Nat) : BitVec 32 × Flags := if f = 3 ∨ f = 8 then (BitVec.ofNat 32 code, ⟨false, false⟩) else widen f code

end Sys2Proof.Claims

open Sys2Proof Sys2Proof.Machine Sys2Proof.Claims in
/-- 05 R112, R116: VSEL SELECT takes each lane from the source its PS bit names; the compares write one predicate register, 0 in unselected lanes, and see
the NaNs of selected lanes; BCAST writes the scalar to the selected lanes. A
compare into another register than p1 to p7 is OPERAND_RANGE; a packed compare, or a BCAST without a scalar or with a VA, is RESERVED_FIELD. -/
def Obligations.VectorSelect : Prop :=
  ∀ (s : State) (t : Nat) (w : Word), Issues s t 0x24 w → SelForm w →
    let T := s.dev.tile t
    let m := T.seq.getP (wPs w)
    let a := fun l => T.seq.getLane (wVa w) l
    let b := srcLane T w
    (wVsub w = 0 →
      Leaves (.vsel t) s t
        (wroteV T (wVd w) (BitVec.allOnes 64) ((List.range 64).map fun l => if bitAt m l then a l else b l) ⟨false, false⟩)) ∧
    (1 ≤ wVsub w → wVsub w ≤ 6 → 1 ≤ wVd w → wVd w ≤ 7 → wVfmt w = 3 ∨ wVfmt w = 8 →
      ∃ (x : Word) (fl : Bool),
        Leaves (.vsel t) s t
          { T with
            seq := { T.seq with
              p := Sparse.put 0 T.seq.p (wVd w) x, flags := ⟨T.seq.flags.saturated, T.seq.flags.nanSeen || fl⟩ } }.fallThrough ∧
        (∀ l, l < 64 → x.getLsbD l = (bitAt m l &&
          (if wVfmt w = 3 then condInt (wVsub w) (a l).toInt (b l).toInt else condFp (wVsub w) (vec32 (a l)) (vec32 (b l))))) ∧
        (fl = true ↔ ∃ l, l < 64 ∧ bitAt m l = true ∧ wVfmt w = 8 ∧ ((vec32 (a l)).isNan || (vec32 (b l)).isNan) = true) ∧
        (∀ l, l < 64 → wVfmt w = 8 → ((vec32 (a l)).isNan || (vec32 (b l)).isNan) = true → x.getLsbD l = (bitAt m l && decide (wVsub w = 2))) ∧
        (∀ l, l < 64 → wVfmt w = 8 → a l = 0 ∨ a l = 0x80000000 → b l = 0 ∨ b l = 0x80000000 →
          x.getLsbD l = (bitAt m l && decide (wVsub w = 1 ∨ wVsub w = 4 ∨ wVsub w = 6)))) ∧
    (wVsub w = 7 → wSb w = true → wVa w = 0 →
      Leaves (.vsel t) s t (wroteV T (wVd w) m (List.replicate 64 (b 0)) ⟨false, false⟩)) ∧
    (1 ≤ wVsub w → wVsub w ≤ 6 → wVfmt w = 3 ∨ wVfmt w = 8 → wVd w = 0 ∨ 7 < wVd w → Leaves (.vsel t) s t (faulted T .operandRange .tileFault 0)) ∧
    ((1 ≤ wVsub w ∧ wVsub w ≤ 6 ∧ wVfmt w ≠ 3 ∧ wVfmt w ≠ 8) ∨ (wVsub w = 7 ∧ (wSb w = false ∨ wVa w ≠ 0)) →
      Leaves (.vsel t) s t (faulted T .reservedField .tileFault 0))

open Sys2Proof Sys2Proof.Machine Sys2Proof.Claims in
/-- 02 R29, R44; 03 R60; 05 R112, R117: VLD writes each selected lane with its element of the addressed transfer, or with the one element read under
BCAST; raw formats move bits, the others widen and may set NAN_SEEN. Memory and everything else stay.
02 R29, R44; 05 R112, R113, R117: VST stores the elements of the selected lanes and no other byte of memory: raw formats the lanes' bits, the
others the narrowed codes; a raw store sets no flag. A word that is not stored to whole keeps its error (04 R108). Premise: the tile's memory is in its canonical form (an invariant, CanonicalTables). -/
def Obligations.VectorMemory : Prop :=
  (∀ (s : State) (t : Nat) (w : Word), Issues s t 0x18 w → wSat w = false → fld w 22 15 = 0 →
     let T := s.dev.tile t
     let f := fld w 39 4
     let a := moveAddr T w
     let m := T.seq.getP (wPs w)
     f ≤ 8 →
     (bitAt w 38 = false → bitAt w 37 = false → MoveFits a (8 * fmtBits f) (max 1 (fmtBits f / 8)) (decide (f = 3 ∨ f = 8)) →
       RowReady T a → T.badRead a (8 * fmtBits f) = false →
       ∃ fl, Leaves (.vld t) s t (wroteV T (fld w 49 5) m ((List.range 64).map fun l => (laneFrom f (memElem T f a l)).1) fl) ∧
         fl.saturated = false ∧
         (fl.nanSeen = true ↔ ∃ l, l < 64 ∧ bitAt m l = true ∧ (laneFrom f (memElem T f a l)).2.nanSeen = true)) ∧
     (bitAt w 38 = true → (bitAt w 37 = true → f = 0) → a % (max 1 (fmtBits f / 8)) = 0 → a + max 1 (fmtBits f / 8) ≤ 0x100000 →
       T.badRead a (max 1 (fmtBits f / 8)) = false →
       ∃ fl, Leaves (.vld t) s t
           (wroteV T (fld w 49 5) m (List.replicate 64 (laneFrom f (memElem T f a (if bitAt w 37 then 1 else 0))).1) fl) ∧
         fl.saturated = false ∧
         (fl.nanSeen = true ↔
           (∃ l, l < 64 ∧ bitAt m l = true) ∧ (laneFrom f (memElem T f a (if bitAt w 37 then 1 else 0))).2.nanSeen = true))) ∧
  (∀ (s : State) (t : Nat) (w : Word), Issues s t 0x19 w → fld w 22 17 = 0 →
     let T := s.dev.tile t
     let f := fld w 39 4
     let a := moveAddr T w
     let m := T.seq.getP (wPs w)
     let size := max 1 (fmtBits f / 8)
     let code := fun l => if f = 3 ∨ f = 8 then ((T.seq.getLane (fld w 49 5) l).toNat, ⟨false, false⟩)
       else narrowLane f (wSat w) (T.seq.getLane (fld w 49 5) l)
     f ≤ 8 → (f = 3 ∨ f = 8 → wSat w = false) → MoveFits a (8 * fmtBits f) size (decide (f = 3 ∨ f = 8)) → RowFree T a →
     Mem.wf T.mem = true →
     ∃ (T' : Tile) (fl : Flags), Leaves (.vst t) s t T'.fallThrough ∧
       T'.seq = { T.seq with flags := ⟨T.seq.flags.saturated || fl.saturated, T.seq.flags.nanSeen || fl.nanSeen⟩ } ∧
       T'.arr = T.arr ∧ T'.sel = T.sel ∧ T'.strm = T.strm ∧ T'.imem = T.imem ∧ T'.running = T.running ∧ T'.ended = T.ended ∧
       (fl.saturated = true ↔ ∃ l, l < 64 ∧ bitAt m l = true ∧ (code l).2.saturated = true) ∧
       (fl.nanSeen = true ↔ ∃ l, l < 64 ∧ bitAt m l = true ∧ (code l).2.nanSeen = true) ∧
       (∀ x, x < a ∨ a + 8 * fmtBits f ≤ x → T'.mem.byte x = T.mem.byte x) ∧
       (∀ u ∈ T'.badWords, u ∈ T.badWords) ∧
       (∀ u ∈ T.badWords, 8 * u < a ∨ a + 8 * fmtBits f < 8 * u + 8 → u ∈ T'.badWords) ∧
       (fmtBits f ≠ 4 → ∀ l j, l < 64 → j < size →
         T'.mem.byte (a + size * l + j) =
           if bitAt m l then BitVec.ofNat 8 ((code l).1 / 256 ^ j) else T.mem.byte (a + size * l + j)) ∧
       (fmtBits f = 4 → ∀ i, i < 32 →
         let old := (T.mem.byte (a + i)).toNat
         (T'.mem.byte (a + i)).toNat =
           (if bitAt m (2 * i) then (code (2 * i)).1 % 16 else old % 16) +
             16 * (if bitAt m (2 * i + 1) then (code (2 * i + 1)).1 % 16 else old / 16)))

namespace Sys2Proof.Claims

open Sys2Proof Sys2Proof.Machine

/-- The fields R118 leaves a reduction or scan: no index register, no index base, reserved bits zero. -/
def ReduceForm (w : Word) : Prop := wRvi w = 0 ∧ wRgi w = 0 ∧ fld w 0 26 = 0 ∧ (wRfmt w = 3 ∨ wRfmt w = 8)

/-- The lanes of a source with +0 in the unselected ones (05 R118, R119). -/
def selLanes (T : Tile) (w : Word) : List (BitVec 32) :=
  (List.range 64).map fun l => if bitAt (T.seq.getP (wPs w)) l then T.seq.getLane (wVa w) l else 0

/-- A reduction's result in every lane, or in lane 0 with zeros behind it (05 R118). -/
def spreadOf (lane0 : Bool) (x : BitVec 32) : List (BitVec 32) := (List.range 64).map fun l => if lane0 && l != 0 then 0 else x

end Sys2Proof.Claims

namespace Sys2Proof.Claims

open Sys2Proof Sys2Proof.Machine

/-- Candidate x outranks y: the better value, or the same with the lower index (05 R120). -/
def Better (mx : Bool) (x y : FVal × Nat) : Prop :=
  (if mx then FVal.lt y.1 x.1 else FVal.lt x.1 y.1) = true ∨ (FVal.lt x.1 y.1 = false ∧ FVal.lt y.1 x.1 = false ∧ x.2 < y.2)

/-- The selected elements of VA with their indices (ga + e) mod 2^32 (05 R120). -/
def acrossOf (T : Tile) (w : Word) : List (FVal × Nat) :=
  let k := vecWidth (wRfmt w)
  (List.range 64).flatMap fun l =>
    if bitAt (T.seq.getP (wPs w)) l then
      (List.range (32 / k)).map fun i =>
        (rankVal (wRfmt w) ((T.seq.getLane (wVa w) l).toNat / 2 ^ (k * i) % 2 ^ k), ((T.seq.getG (wRgi w)).toNat + l * (32 / k) + i) % 2 ^ 32)
    else []

/-- The tile that excluded n NaNs: COUNT grows, sticking at all ones with OVF set, and NAN_SEEN is raised (05 R121, R130). -/
def countNans (T : Tile) (n : Nat) (seen : Bool) : Tile :=
  let c := T.sel.nanCount
  { T with
    sel := { T.sel with
      nanCount := if c.value.toNat + n < 2 ^ 48 - 1 then ⟨BitVec.ofNat 48 (c.value.toNat + n), c.ovf⟩ else ⟨BitVec.allOnes 48, true⟩ }
    seq := { T.seq with flags := ⟨T.seq.flags.saturated, T.seq.flags.nanSeen || seen⟩ } }

end Sys2Proof.Claims

open Sys2Proof Sys2Proof.Machine Sys2Proof.Claims in
/-- 02 R39; 05 R112, R118, R119, R121: VRED SUM without SAT on INT32 gives the wrapped sum of the selected lanes, and on every format that of the fixed
pairwise tree; MAX and MIN on INT32 give the best selected value, or the empty value where none is selected; VSCAN without SAT on INT32 gives the
prefix sums. The result goes to every lane or to lane 0; nothing but VD, the flags and the PC changes.
05 R112, R118, R120, R121: VMAXI and VMINI. ACROSS writes the best selected non-NaN candidate to every element of VD and its index to every lane of VI,
or the empty value and index 0xFFFF_FFFF where there is none. ALONG replaces in each selected lane the pair held by the candidate that outranks it, and
leaves the other lanes. The NaNs excluded are counted. Where VD and VI name one register, a lane so written holds a free value of the lane, the value and
the index (log entry 2). -/
def Obligations.VectorReductions : Prop :=
  (∀ (s : State) (t : Nat) (w : Word), ReduceForm w →
     let T := s.dev.tile t
     let m := T.seq.getP (wPs w)
     let x := selLanes T w
     let a := fun l => (T.seq.getLane (wVa w) l).toInt
     let lane0 := decide (wRsub w % 2 = 1)
     (Issues s t 0x22 w → wRsub w ≤ 1 →
       let r := sumTree (wRfmt w) (wSat w) 6 x
       Leaves (.vred t) s t (wroteV T (wVd w) (BitVec.allOnes 64) (spreadOf lane0 r.1) r.2) ∧
       (wRfmt w = 3 → wSat w = false → r.1 = x.foldl (· + ·) 0)) ∧
     (Issues s t 0x22 w → 2 ≤ wRsub w → wRsub w ≤ 5 → wSat w = false → wRfmt w = 3 →
       ∃ r : BitVec 32, Leaves (.vred t) s t (wroteV T (wVd w) (BitVec.allOnes 64) (spreadOf lane0 r) ⟨false, false⟩) ∧
         ((∀ l, l < 64 → bitAt m l = false) → r = if wRsub w ≤ 3 then 0x80000000 else 0x7FFFFFFF) ∧
         ((∃ l, l < 64 ∧ bitAt m l = true) →
           (∃ l, l < 64 ∧ bitAt m l = true ∧ r.toInt = a l) ∧
           ∀ l, l < 64 → bitAt m l = true → if wRsub w ≤ 3 then a l ≤ r.toInt else r.toInt ≤ a l)) ∧
     (Issues s t 0x22 w → 2 ≤ wRsub w → wRsub w ≤ 5 → wSat w = false → wRfmt w = 8 →
       let c := (List.range 64).filterMap fun l => if bitAt m l then some (vec32 (T.seq.getLane (wVa w) l)) else none
       ∃ r : BitVec 32, Leaves (.vred t) s t (wroteV T (wVd w) (BitVec.allOnes 64) (spreadOf lane0 r) ⟨false, c.any FVal.isNan⟩) ∧
         ((∀ v ∈ c, v.isNan = true) → r = if wRsub w ≤ 3 then 0xFF800000 else 0x7F800000)) ∧
     (Issues s t 0x25 w → wRsub w ≤ 1 → wRfmt w = 3 → wSat w = false →
       ∃ y fl, Leaves (.vscan t) s t (wroteV T (wVd w) (BitVec.allOnes 64) y fl) ∧ y.length = 64 ∧
         ∀ l, l < 64 → y.getD l 0 = (x.take (if wRsub w = 0 then l + 1 else l)).foldl (· + ·) 0) ∧
     (Issues s t 0x25 w → wRsub w ≤ 1 →
       ∃ y fl, Leaves (.vscan t) s t (wroteV T (wVd w) (BitVec.allOnes 64) y fl) ∧ y.length = 64)) ∧
  (∀ (s : State) (t : Nat) (w : Word), ∀ e ∈ [(Instr.vmaxi t, 0x20, true), (Instr.vmini t, 0x21, false)],
     Issues s t e.2.1 w → wSat w = false → fld w 0 26 = 0 → vecWidth (wRfmt w) ≠ 0 →
     let T := s.dev.tile t
     let m := T.seq.getP (wPs w)
     let base := (T.seq.getG (wRgi w)).toNat % 2 ^ 32
     let good := (acrossOf T w).filter fun c => !c.1.isNan
     let bad := (acrossOf T w).length - good.length
     let pair := fun (hit : Word) (vs is : Nat → BitVec 32) =>
       if wVd w = wRvi w then T.seq.setV (wVd w) hit ((List.range 64).map fun l => Config.searchSame l (vs l) (is l))
       else (T.seq.setV (wVd w) hit ((List.range 64).map vs)).setV (wRvi w) hit ((List.range 64).map is)
     (wRsub w = 0 →
       ∃ (v : Nat) (ix : BitVec 32),
         Leaves e.1 s t
           (countNans { T with seq := pair (BitVec.allOnes 64) (fun _ => splat (vecWidth (wRfmt w)) v) (fun _ => ix) } bad
             (decide (0 < bad))).fallThrough ∧
         (good = [] → v = emptyVal e.2.2 (wRfmt w) ∧ ix = 0xFFFFFFFF) ∧
         (good ≠ [] → ∃ c ∈ good, v = valCode (wRfmt w) c.1 ∧ ix.toNat = c.2 ∧ ∀ c' ∈ good, ¬Better e.2.2 c' c)) ∧
     (wRsub w = 1 → wRfmt w = 3 ∨ wRfmt w = 8 →
       let x := fun l => rankVal (wRfmt w) (T.seq.getLane (wVa w) l).toNat
       let y := fun l => rankVal (wRfmt w) (T.seq.getLane (wVd w) l).toNat
       let i := fun l => T.seq.getLane (wRvi w) l
       let out := (List.range 64).filter fun l => bitAt m l && (x l).isNan
       ∃ (hit : Word) (seen : Bool),
         Leaves e.1 s t
           (countNans { T with seq := pair hit (fun l => BitVec.ofNat 32 (valCode (wRfmt w) (x l))) (fun _ => BitVec.ofNat 32 base) } out.length
             seen).fallThrough ∧
         (seen = true ↔ ∃ l, l < 64 ∧ bitAt m l = true ∧ ((x l).isNan = true ∨ (y l).isNan = true)) ∧
         ∀ l, l < 64 → (bitAt hit l = true ↔
           bitAt m l = true ∧ (x l).isNan = false ∧ ((y l).isNan = true ∨ Better e.2.2 (x l, base) (y l, (i l).toNat)))))

open Sys2Proof Sys2Proof.Machine Sys2Proof.Claims in
/-- 02 R44, R46; 05 R112, R122, R131; 04 R103: VCVT narrows 64 lanes into the lanes of VD that PART selects, or widens the elements of those lanes of VA;
to MX it also writes the two scale codes to GD. RNG writes the generator's word for each selected lane. -/
def Obligations.ConvertAndGenerate : Prop :=
  ∀ (s : State) (t : Nat) (w : Word),
    let T := s.dev.tile t
    let m := T.seq.getP (wPs w)
    let a := fun l => T.seq.getLane (wVa w) l
    let fr := fld w 40 4
    let tf := fld w 36 4
    let part := fld w 33 3
    let k := min (fmtBits fr) (fmtBits tf)
    let lanes := BitVec.ofNat 64 ((2 ^ (2 * k) - 1) * 2 ^ (2 * k * part))
    (Issues s t 0x23 w → fld w 0 33 = 0 → fr ≤ 8 → tf ≤ 8 → fr ≠ tf → fr = 3 ∨ fr = 8 → fmtBits tf < 32 → part < 32 / k →
      ∃ (x : List (BitVec 32)) (fl : Flags), Leaves (.vcvt t) s t (wroteV T (wVd w) (lanes &&& m) x fl) ∧
        ∀ i, i < 64 → (x.getD ((64 * k * part + i * k) / 32) 0).toNat / 2 ^ (i * k % 32) % 2 ^ k =
          (convElem fr tf (wSat w) (a i).toNat).1 % 2 ^ k) ∧
    (Issues s t 0x23 w → fld w 0 33 = 0 → fr ≤ 8 → tf ≤ 8 → fr ≠ tf → tf = 3 ∨ tf = 8 → part < 32 / k →
      ∃ (fl : Flags), Leaves (.vcvt t) s t
        (wroteV T (wVd w) m
          ((List.range 64).map fun i =>
            BitVec.ofNat 32 (convElem fr tf (wSat w) ((a ((64 * k * part + i * k) / 32)).toNat / 2 ^ (i * k % 32) % 2 ^ k)).1) fl)) ∧
    (Issues s t 0x23 w → fld w 0 27 = 0 → wPs w = 0 → fr = 8 → tf = 9 ∨ tf = 10 → part < 32 / k →
      let q0 := mxQuant (tf == 10) ((List.range 32).map a)
      let q1 := mxQuant (tf == 10) ((List.range 32).map fun i => a (32 + i))
      ∃ (x : List (BitVec 32)) (fl : Flags), Leaves (.vcvt t) s t
          { T with
            seq := { (T.seq.setV (wVd w) lanes x).setG (fld w 27 6) (BitVec.ofNat 64 (q0.1 + 256 * q1.1)) with
              flags := ⟨T.seq.flags.saturated || fl.saturated, T.seq.flags.nanSeen || fl.nanSeen⟩ } }.fallThrough ∧
        ∀ i, i < 64 → (x.getD ((64 * k * part + i * k) / 32) 0).toNat / 2 ^ (i * k % 32) % 2 ^ k = (q0.2.1 ++ q1.2.1).getD i 0 % 2 ^ k) ∧
    (Issues s t 0x3C w → wSat w = false → fld w 0 41 = 0 →
      Leaves (.rng t) s t
        (wroteV T (fld w 49 5) m
          ((List.range 64).map fun l => philox T.seq.seed (T.seq.getG (fld w 43 6)) T.seq.item l (fld w 41 2)) ⟨false, false⟩))

namespace Sys2Proof.Claims

open Sys2Proof Sys2Proof.Machine

/-- The tile whose instruction at the PC left the arrays as a, going on. -/
def withArr (T : Tile) (a : Arrays) : Tile := { T with arr := a }.fallThrough

/-- The window bytes of the accumulator cell (row, col) (01 R21, 03 R53). -/
def cellHas (row col x : Nat) : Prop := 0x100000 + 256 * row + 4 * col ≤ x ∧ x < 0x100000 + 256 * row + 4 * col + 4

/-- The block's rows and columns lie in the accumulator memory; those of a split block below row 512 (03 R53, R56). -/
def BlockFits (b : Block) : Prop := b.col + b.nv ≤ 64 ∧ b.row + b.rows ≤ (if b.split then 512 else 1024)

/-- The start value of an element (03 R55): zero, the bias row, or the accumulator itself. -/
def startOf (b : Block) (T : Tile) (row col : Nat) : BitVec 32 :=
  if b.zero then 0 else if b.bias then T.acc b.biasRow col else T.acc row col

end Sys2Proof.Claims

open Sys2Proof Sys2Proof.Machine Sys2Proof.Claims in
/-- 03 R62, R63, R65; 04 R96: MLD overwrites the shadow set with the image at its offset, waiting at issue while an earlier load or a swap is still to
come; the load's last beat completes the set; a swap makes the complete shadow set the active one and the former active set the shadow, and the blocks
from the one that asked for it on, up to the next such, are bound to it. -/
def Obligations.StationarySets : Prop :=
  ∀ (s : State) (t : Nat) (w : Word),
    let T := s.dev.tile t
    let off := ((T.seq.getG (fld w 38 6)).extractLsb' 0 20).toNat
    let n := fun c => imageBytes (fld w 52 2) c (fld w 44 4)
    (Issues s t 0x10 w → wSat w = false → wPs w = 0 → fld w 0 38 = 0 → off % 32 = 0 →
      ∀ c, pairClass (fld w 48 4) (fld w 44 4) = some c → off + n c ≤ 0x100000 → T.badRead off (n c) = false →
      (T.arr.loading = none → (∀ b ∈ T.arr.blocks, b.newwHead = false) →
        Leaves (.mld t) s t
          (withArr T { T.arr with
            shadow := none
            loading := some ⟨BitVec.ofNat 2 (fld w 52 2), BitVec.ofNat 4 (fld w 48 4), BitVec.ofNat 4 (fld w 44 4), T.mem.read off (n c)⟩ })) ∧
      (T.arr.loading ≠ none ∨ (∃ b ∈ T.arr.blocks, b.newwHead = true) → Leaves (.mld t) s t T)) ∧
    (t < 3072 → ∀ x, T.arr.loading = some x →
      Leaves (.mldSetComplete t) s t { T with arr := { T.arr with shadow := some x, loading := none } }) ∧
    (t < 3072 → T.arr.loading = none → ∀ pre b post, T.arr.blocks = pre ++ b :: post → b.newwHead = true → (∀ x ∈ pre, x.newwHead = false) →
      (∀ x ∈ post, x.newwHead = false) →
      Leaves (.newwSwap t) s t
        { T with
          arr := { T.arr with
            active := T.arr.shadow, shadow := T.arr.active
            blocks := pre ++ { b with newwHead := false, set := T.arr.shadow } :: post.map fun x => { x with set := T.arr.shadow } } })

open Sys2Proof Sys2Proof.Machine Sys2Proof.Claims in
/-- 03 R55, R59, R63, R66, R69, R72; 04 R97, R98, R104: an MMA puts its blocks of up to four rows behind those in flight, the A rows and scales fetched;
the first asks for the swap under NEWW and the pass tag changes; with products the arrays run if all are on and else ramp up. An MMA without rows, columns
or anything to write, and without NEWW, has no effect. MZERO puts blocks that zero whole rows. A BALLAST in progress holds both at issue, and so does a
flagged block whose set is still being loaded. -/
def Obligations.MatrixIssue : Prop :=
  ∀ (s : State) (t : Nat) (w : Word),
    let T := s.dev.tile t
    let mode := fld w 52 2
    let fa := fld w 48 4
    let fb := fld w 44 4
    let neww := bitAt w 43
    let ga := T.seq.getG (fld w 33 6)
    let gd := T.seq.getG (fld w 27 6)
    let m := fld w 18 9
    let kv := fld w 11 7
    let nv := fld w 5 6
    let r := fld gd 0 10
    let c := fld gd 10 6
    let b := fld gd 16 10
    let aoff := fld ga 0 20
    let stride := fld ga 20 16
    let soff := fld ga 36 20
    let abytes := (kv * fmtBits fa + 7) / 8
    let use := if neww then T.arr.prospect.2 else T.arr.prospect.1
    let held := T.arr.ballast ≠ 0 ∨ (T.arr.loading ≠ none ∧ ∃ x ∈ T.arr.blocks, x.newwHead = true)
    (Issues s t 0x11 w → wPs w = 0 → fld w 0 5 = 0 → ¬(bitAt w 42 = true ∧ bitAt w 41 = true) → m ≤ 256 → nv ≤ colsOf mode →
      c % colsOf mode = 0 → c + colsOf mode ≤ 64 → r + m ≤ 1024 → aoff % 8 = 0 → stride % 8 = 0 →
      (1 ≤ m → 1 ≤ kv → 1 ≤ nv → aoff + (m - 1) * stride + abytes ≤ 0x100000) →
      ∀ cls, pairClass fa fb = some cls → kv ≤ kcOf mode cls → (cls ≠ .mx → bitAt w 40 = false ∧ bitAt w 39 = false) →
      (cls = .mx → (mode ≠ 0 → r + m ≤ 512) ∧ soff + m ≤ 0x100000) →
      ∀ set, use = some set → set.mode.toNat = mode → set.fa.toNat = fa → set.fb.toNat = fb → T.badWords = [] →
      (held → Leaves (.mma t) s t T) ∧
      (¬held → neww = false → m = 0 ∨ nv = 0 ∨ (kv = 0 ∧ bitAt w 42 = false ∧ bitAt w 41 = false) →
        Leaves (.mma t) s t T.fallThrough) ∧
      (¬held → 1 ≤ m → 1 ≤ nv → (1 ≤ kv ∨ bitAt w 42 = true ∨ bitAt w 41 = true) →
        ∃ new, Leaves (.mma t) s t
            (withArr T { T.arr with
              blocks := T.arr.blocks ++ new, passTag := (if neww then !T.arr.passTag else T.arr.passTag)
              phase := if kv = 0 then T.arr.phase else if T.arr.enabled = 8 then .run else .rampUp }) ∧
          new.length = (m + 3) / 4 ∧
          ∀ i b', new[i]? = some b' →
            b'.row = r + 4 * i ∧ b'.rows = min 4 (m - 4 * i) ∧ b'.col = c ∧ b'.kv = kv ∧ b'.nv = nv ∧ b'.biasRow = b ∧
            b'.sat = wSat w ∧ b'.zero = bitAt w 42 ∧ b'.bias = bitAt w 41 ∧ b'.bfirst = bitAt w 40 ∧ b'.blast = bitAt w 39 ∧
            b'.mzero = false ∧ b'.mode.toNat = mode ∧ b'.fa.toNat = fa ∧ b'.fb.toNat = fb ∧ b'.newwHead = (neww && i == 0) ∧
            (neww = false → (∀ x ∈ T.arr.blocks, x.newwHead = false) → b'.set = T.arr.active) ∧
            (1 ≤ kv → ∀ j, j < b'.rows → b'.a[j]? = some (T.mem.read (aoff + (4 * i + j) * stride) abytes)) ∧
            (1 ≤ kv → cls = .mx → b'.scales = T.mem.read (soff + 4 * i) b'.rows))) ∧
    (Issues s t 0x12 w → wSat w = false → wPs w = 0 → fld w 0 33 = 0 → 1 ≤ fld w 33 11 → fld w 44 10 + fld w 33 11 ≤ 1024 →
      (¬held →
        ∃ new, Leaves (.mzero t) s t (withArr T { T.arr with blocks := T.arr.blocks ++ new }) ∧ new.length = (fld w 33 11 + 3) / 4 ∧
          ∀ i b', new[i]? = some b' →
            b'.mzero = true ∧ b'.row = fld w 44 10 + 4 * i ∧ b'.rows = min 4 (fld w 33 11 - 4 * i) ∧ b'.nv = 64 ∧ b'.newwHead = false) ∧
      (held → Leaves (.mzero t) s t T))

open Sys2Proof Sys2Proof.Machine Sys2Proof.Claims in
/-- 02 R36, R39; 03 R55, R56, R59; 04 R98: the oldest block that is ready writes its cells and nothing else of the memory, and leaves the queue of blocks. An
MZERO block writes +0 into all 64 columns; for an integer pair each cell becomes its start value plus the sum of products, wrapped without SAT, and
for the other pairs the value Block.elem states. Premise: the tile's memory is in its canonical form (an invariant, CanonicalTables). -/
def Obligations.BlockWrite : Prop :=
  ∀ (s : State) (t : Nat), t < 3072 →
    let T := s.dev.tile t
    Mem.wf T.mem = true → ∀ b rest, T.arr.blocks = b :: rest → BlockFits b → b.newwHead = false →
    (b.mzero = true → b.nv = 64 →
      ∃ T', Leaves (.mmaBlockWrite t) s t T' ∧ T'.arr.blocks = rest ∧ T'.seq = T.seq ∧
        (∀ i c, i < b.rows → c < 64 → T'.acc (b.row + i) c = 0) ∧
        ∀ x, (∀ i c, i < b.rows → c < 64 → ¬cellHas (b.row + i) c x) → T'.mem.byte x = T.mem.byte x) ∧
    (b.mzero = false → 1 ≤ b.rows → 1 ≤ b.kv → 1 ≤ b.nv → 1 ≤ T.arr.enabled → ∀ set, b.set = some set →
      ∃ (T' : Tile) (fl : Flags), Leaves (.mmaBlockWrite t) s t T' ∧ T'.arr.blocks = rest ∧ T'.arr.active = T.arr.active ∧ T'.imem = T.imem ∧
        T'.sel = T.sel ∧ T'.seq = { T.seq with flags := ⟨T.seq.flags.saturated || fl.saturated, T.seq.flags.nanSeen || fl.nanSeen⟩ } ∧
        (∀ i j, i < b.rows → j < b.nv → ∀ e ∈ (b.elem T set i j).1, T'.acc e.1 e.2.1 = e.2.2) ∧
        (∀ cls, pairClass b.fa.toNat b.fb.toNat = some cls → b.fa.toNat < 4 → b.fb.toNat < 4 → b.sat = false →
          ∀ i j, i < b.rows → j < b.nv →
            T'.acc (b.row + i) (b.col + j) =
              startOf b T (b.row + i) (b.col + j) +
                BitVec.ofInt 32 ((List.range b.kv).map fun k =>
                  intCode b.fa.toNat (elemCode b.fa.toNat (b.a.getD i []) k) *
                    intCode b.fb.toNat (bCode b.mode.toNat cls b.fb.toNat set.image k j)).sum) ∧
        (b.split = false → ∀ x, (∀ i j, i < b.rows → j < b.nv → ¬cellHas (b.row + i) (b.col + j) x) → T'.mem.byte x = T.mem.byte x))

open Sys2Proof Sys2Proof.Machine Sys2Proof.Claims in
/-- 03 R69, R70, R72, R73; 04 R103: BALLAST holds the path for its N cycles and brings all arrays on; its end frees the path, and with W = 0 begins the
ramp-down; a ramp pass turns one array on, or off, every step, and is over with all eight on, or none; the gap's end begins the ramp-down; under LEAD a tile
whose STRM blocks it and is in its last block with 32 KiB or less to transfer begins its ramp-up, and no other does. -/
def Obligations.BallastAndRamp : Prop :=
  ∀ (s : State) (t : Nat) (w : Word), t < 3072 →
    let T := s.dev.tile t
    let A := T.arr
    let idle := ∀ b ∈ A.blocks, b.product = false
    let held := A.ballast ≠ 0 ∨ (A.loading ≠ none ∧ ∃ x ∈ A.blocks, x.newwHead = true)
    (Issues s t 0x3D w → wSat w = false → wPs w = 0 → fld w 13 41 = 0 → 1 ≤ fld w 0 13 → fld w 0 13 ≤ 4096 →
      (¬held → A.enabled < 8 → Leaves (.ballast t) s t (withArr T { A with ballast := fld w 0 13, phase := .rampUp })) ∧
      (¬held → A.enabled = 8 →
        Leaves (.ballast t) s t (withArr T { A with ballast := fld w 0 13, phase := if A.phase = .run then .run else .ballast })) ∧
      (held → Leaves (.ballast t) s t T)) ∧
    Leaves (.ballastEnd t) s t
      { T with
        arr := { A with ballast := 0, phase := if s.dev.pwr.window = 0 ∧ A.ballast ≠ 0 ∧ A.phase = .ballast ∧ A.blocks.any Block.product = false then .rampDown else A.phase } } ∧
    (A.phase = .rampUp → A.enabled < 7 → Leaves (.arrayRampStep t) s t { T with arr := { A with enabled := A.enabled + 1 } }) ∧
    (A.phase = .rampUp → A.enabled = 7 →
      Leaves (.arrayRampStep t) s t
        { T with
          arr := { A with
            enabled := 8
            phase := if A.blocks.any Block.product then .run else if s.dev.pwr.window = 0 ∧ A.ballast = 0 then .rampDown else .ballast } }) ∧
    (A.phase = .rampDown → 1 < A.enabled → Leaves (.arrayRampStep t) s t { T with arr := { A with enabled := A.enabled - 1 } }) ∧
    (A.phase = .rampDown → A.enabled ≤ 1 → Leaves (.arrayRampStep t) s t { T with arr := { A with enabled := 0, phase := .idle } }) ∧
    (A.phase = .run ∨ A.phase = .ballast → A.ballast = 0 → idle → Leaves (.arrayGapExpiry t) s t { T with arr := { A with phase := .rampDown } }) ∧
    (s.dev.pwr.lead = true → T.seq.wait = some .stream → s.dev.nearEnd t = true → A.enabled < 8 →
      Leaves (.rampLead t) s t { T with arr := { A with phase := .rampUp } }) ∧
    (s.dev.pwr.lead = false ∨ T.seq.wait ≠ some .stream ∨ s.dev.nearEnd t = false → Gives (.rampLead t) s s.dev) ∧
    (T.strm.waiting = none → T.strm.closed = true ∨ T.strm.next = none → (s.dev.nearEnd t = true ↔ s.dev.bytesDue t ≤ 32768))

namespace Sys2Proof.Claims

open Sys2Proof Sys2Proof.Machine

/-- Entry x outranks y in the selector's order (05 R124). -/
def SelBetter (q : Selector) (x y : SelEntry) : Prop :=
  Better (!q.dir) (rankVal q.fmt.toNat x.score.toNat, x.index.toNat) (rankVal q.fmt.toNat y.score.toNat, y.index.toNat)

/-- The live rows of a selector: each at most K entries, from best to worst, no empty one and no NaN among them (05 R123, R124). -/
def SelOk (q : Selector) : Prop :=
  ∀ row ∈ q.rows, row.length ≤ q.k.toNat ∧ row.Pairwise (fun x y => ¬SelBetter q y x) ∧
    ∀ e ∈ row, e.index ≠ 0xFFFFFFFF ∧ (rankVal q.fmt.toNat e.score.toNat).isNan = false

/-- row' is the best K of row and the candidates cand (05 R123, R124). -/
def BestOf (q : Selector) (row cand row' : List SelEntry) : Prop :=
  row'.Pairwise (fun x y => ¬SelBetter q y x) ∧ row'.length = min q.k.toNat (row.length + cand.length) ∧
    ∃ rest, (row' ++ rest).Perm (row ++ cand) ∧ ∀ x ∈ row', ∀ y ∈ rest, ¬SelBetter q y x

/-- Candidates whose score is a number. -/
def numbersOf (q : Selector) (l : List SelEntry) : List SelEntry := l.filter fun e => !(rankVal q.fmt.toNat e.score.toNat).isNan

/-- Entry j of row r of the live state: an empty entry carries the empty value and index 0xFFFF_FFFF (05 R121, R124). -/
def liveEntry (q : Selector) (r j : Nat) : SelEntry :=
  ((q.rows.getD r [])[j]?).getD
    ⟨if q.fmt = 8 then (if q.dir then 0x7F800000 else 0xFF800000) else (if q.dir then 0x7FFFFFFF else 0x80000000), 0xFFFFFFFF⟩

/-- Entry j of row r of an image at offset off of the tile's memory, K entries to a row (05 R125). -/
def imageEntry (T : Tile) (off k r j : Nat) : SelEntry :=
  ⟨BitVec.ofNat 32 (T.mem.num (off + 8 * k * r + 4 * j) 4), BitVec.ofNat 32 (T.mem.num (off + 8 * k * r + 4 * k + 4 * j) 4)⟩

/-- The live row r of a selector, or its whole live state, holds no double-bit error (04 R108). -/
def rowClean (T : Tile) (r : Nat) : Prop := T.badRead (0x180000 + 8 * T.sel.k.toNat * r) (8 * T.sel.k.toNat) = false
def liveClean (T : Tile) : Prop := T.badRead 0x180000 (8 * 2 ^ T.sel.logr.toNat * T.sel.k.toNat) = false

/-- The words in error that do not lie whole in n bytes from a on. -/
def errorsOutside (T : Tile) (a n : Nat) : List Nat := T.badWords.filter fun u => !(decide (a ≤ 8 * u) && decide (8 * u + 8 ≤ a + n))

/-- The image offset in a register and what R126 asks of it. -/
def ImageAt (T : Tile) (gr off len : Nat) : Prop := off = ((T.seq.getG gr).extractLsb' 0 20).toNat ∧ off % 256 = 0 ∧ off + len ≤ 0x100000

end Sys2Proof.Claims

open Sys2Proof Sys2Proof.Machine Sys2Proof.Claims in
/-- 05 R112, R121, R124, R126, R128: SFEED makes its selector row the best K of the row and the selected lanes that hold numbers, with indices from VI or
counted up from the base; NaNs are excluded, counted and seen; the other rows, memory and registers stay. A double-bit error in the row is the fault
SRAM_UNCORRECTABLE (04 R108).
05 R123, R125-R127, R130: SINIT sets the configuration with every row empty, or each row the best K of its image row; SREAD stores the live rows as an
image, empty entries behind, and nothing else, and empties the rows under RESET; SMERGE makes each row the best K of itself and its image row; a double-bit
error in the live state is the fault SRAM_UNCORRECTABLE of both, and a new configuration writes it afresh (04 R108). Premise: the tile's memory is in its canonical form (an invariant, CanonicalTables). -/
def Obligations.SelectorCommands : Prop :=
  (∀ (s : State) (t : Nat) (w : Word), Issues s t 0x31 w → wSat w = false → fld w 0 33 = 0 →
     let T := s.dev.tile t
     let xi := bitAt w 38
     let row := fld w 45 4
     let m := T.seq.getP (wPs w)
     let lanes := (List.range 64).filter (bitAt m)
     let cand := lanes.map fun l => SelEntry.mk (T.seq.getLane (fld w 49 5) l)
       (if xi then T.seq.getLane (fld w 33 5) l else BitVec.ofNat 32 ((T.seq.getG (fld w 39 6)).toNat + l))
     (xi = true → fld w 39 6 = 0) → (xi = false → fld w 33 5 = 0) → T.sel.valid = true → row < 2 ^ T.sel.logr.toNat → SelOk T.sel →
     row < T.sel.rows.length → (∀ e ∈ cand, e.index ≠ 0xFFFFFFFF) →
     let good := numbersOf T.sel cand
     (rowClean T row →
       ∃ row', BestOf T.sel (T.sel.rows.getD row []) good row' ∧
         Leaves (.sfeed t) s t
           (countNans { T with sel := { T.sel with rows := T.sel.rows.set row row' } } (cand.length - good.length)
             (decide (0 < cand.length - good.length))).fallThrough) ∧
     (¬rowClean T row → Leaves (.sfeed t) s t (faulted T .sramUncorrectable .memoryUncorrectable 0))) ∧
  (∀ (s : State) (t : Nat) (w : Word), wSat w = false → wPs w = 0 →
     let T := s.dev.tile t
     let q := T.sel
     let R := 2 ^ q.logr.toNat
     let K := q.k.toNat
     let logr := fld w 44 3
     let k := fld w 33 11
     let fresh := { T with badWords := errorsOutside T 0x180000 (8 * 2 ^ logr * k) }
     let conf : Selector := { q with
       valid := true, dir := bitAt w 32, fmt := BitVec.ofNat 4 (fld w 28 4), logr := BitVec.ofNat 3 logr, k := BitVec.ofNat 11 k }
     let cand := fun (c : Selector) off r => numbersOf c
       (((List.range c.k.toNat).map (imageEntry T off c.k.toNat r)).filter fun e => e.index != 0xFFFFFFFF)
     (Issues s t 0x30 w → fld w 28 4 = 3 ∨ fld w 28 4 = 8 → fld w 0 28 = 0 → logr ≤ 4 → 1 ≤ k → 2 ^ logr * k ≤ 1024 →
       (bitAt w 53 = false → fld w 47 6 = 0 →
         Leaves (.sinit t) s t (countNans { fresh with sel := { conf with rows := List.replicate (2 ^ logr) [] } } 0 false).fallThrough) ∧
       (bitAt w 53 = true → ∀ off, ImageAt T (fld w 47 6) off (8 * 2 ^ logr * k) → T.badRead off (8 * 2 ^ logr * k) = false →
         ∃ rows n, Leaves (.sinit t) s t (countNans { fresh with sel := { conf with rows := rows } } n (decide (0 < n))).fallThrough ∧
           rows.length = 2 ^ logr ∧ ∀ r, r < 2 ^ logr → BestOf conf [] (cand conf off r) (rows.getD r []))) ∧
     (Issues s t 0x32 w → fld w 0 47 = 0 → q.valid = true → SelOk q → q.rows.length = R → Mem.wf T.mem = true →
       (q.fmt = 3 ∨ q.fmt = 8) → ∀ off, ImageAt T (fld w 48 6) off (8 * R * K) → liveClean T →
       ∃ T' : Tile, Leaves (.sread t) s t T'.fallThrough ∧ T'.seq = T.seq ∧ T'.arr = T.arr ∧
         T'.sel = (if bitAt w 47 then { q with rows := List.replicate R [] } else q) ∧
         (∀ r j, r < R → j < K →
           T'.mem.num (off + 8 * K * r + 4 * j) 4 = (liveEntry q r j).score.toNat ∧
           T'.mem.num (off + 8 * K * r + 4 * K + 4 * j) 4 = (liveEntry q r j).index.toNat) ∧
         ∀ x, x < off ∨ off + 8 * R * K ≤ x → T'.mem.byte x = T.mem.byte x) ∧
     (Issues s t 0x33 w → fld w 0 48 = 0 → q.valid = true → SelOk q → q.rows.length = R →
       ∀ off, ImageAt T (fld w 48 6) off (8 * R * K) → liveClean T → T.badRead off (8 * R * K) = false →
       ∃ rows n, Leaves (.smerge t) s t (countNans { T with sel := { q with rows := rows } } n (decide (0 < n))).fallThrough ∧
         rows.length = R ∧ ∀ r, r < R → BestOf q (q.rows.getD r []) (cand q off r) (rows.getD r [])) ∧
     (q.valid = true → ¬liveClean T → ∀ off, ImageAt T (fld w 48 6) off (8 * R * K) →
       (Issues s t 0x32 w → fld w 0 47 = 0 → Leaves (.sread t) s t (faulted T .sramUncorrectable .memoryUncorrectable 0)) ∧
       (Issues s t 0x33 w → fld w 0 48 = 0 → Leaves (.smerge t) s t (faulted T .sramUncorrectable .memoryUncorrectable 0))))

open Sys2Proof Sys2Proof.Machine Sys2Proof.Claims in
/-- 03 R60; 04 R99; 05 R127, R128: MDRAIN waits while a row it reads has a write in flight, under CLEAR also while a block has still to read one as its bias row; else it feeds row k to selector row k mod R with indices counted
up from the base, and under CLEAR zeroes the rows it read and no other byte. Premise: the tile's memory is in its canonical form (an invariant,
CanonicalTables). -/
def Obligations.DrainToSelector : Prop :=
  ∀ (s : State) (t : Nat) (w : Word), Issues s t 0x13 w → wSat w = false → wPs w = 0 → fld w 0 22 = 0 →
    let T := s.dev.tile t
    let row := fld w 44 10
    let n := fld w 33 11
    let R := 2 ^ T.sel.logr.toNat
    let base := (T.seq.getG (fld w 22 6)).toNat
    let ix := fun k j => BitVec.ofNat 32 (base + 64 * (k / R) + j)
    (fld w 28 4 = 3 ∨ fld w 28 4 = 8) → fld w 28 4 = T.sel.fmt.toNat → 1 ≤ n → row + n ≤ 1024 → T.sel.valid = true → SelOk T.sel →
    T.sel.rows.length = R → T.badWords = [] → (∀ k j, k < n → j < 64 → ix k j ≠ 0xFFFFFFFF) →
    let held := fun k => if bitAt w 32 then T.arr.rowHeld (row + k) else T.arr.rowBusy (row + k)
    ((∃ k, k < n ∧ held k = true) → Leaves (.mdrain t) s t T) ∧
    ((∀ k, k < n → held k = false) → Mem.wf T.mem = true →
      let cand := fun r => (List.range n).flatMap fun k =>
        if k % R = r then (List.range 64).map fun j => SelEntry.mk (T.acc (row + k) j) (ix k j) else []
      ∃ (T' : Tile) (seen : Bool), Leaves (.mdrain t) s t T'.fallThrough ∧ T'.arr = T.arr ∧
        T'.seq = { T.seq with flags := ⟨T.seq.flags.saturated, T.seq.flags.nanSeen || seen⟩ } ∧
        (∀ r, r < R → BestOf T.sel (T.sel.rows.getD r []) (numbersOf T.sel (cand r)) (T'.sel.rows.getD r [])) ∧
        (bitAt w 32 = false → T'.mem = T.mem) ∧
        (bitAt w 32 = true → ∀ x, T'.mem.byte x = if 0x100000 + 256 * row ≤ x ∧ x < 0x100000 + 256 * (row + n) then 0 else T.mem.byte x))

open Sys2Proof Sys2Proof.Machine Sys2Proof.Claims in
/-- 04 R86, R92, R94; 05 R123, R124: no instruction takes the nest of active loops beyond four, or lets a body reach past the last instruction of the body
around it; and every instruction leaves the selector's rows sorted, within K entries, without empty ones and NaNs. Premise: the table of tiles is in its
canonical form (an invariant, CanonicalTables). -/
def Obligations.InstructionsKeepTile : Prop :=
  ∀ (s : State) (t : Nat), Sparse.wf Tile.reset s.dev.tiles = true → ∀ c ∈ tileInstrs t, NestOk (s.dev.tile t) → SelOk (s.dev.tile t).sel →
    ∀ s', exec c s = .next s' → NestOk (s'.dev.tile t) ∧ SelOk (s'.dev.tile t).sel

namespace Sys2Proof.Claims

open Sys2Proof Sys2Proof.Machine

/-- The queue a handle instruction names (04 R100): QIMM chooses the field Q or the low 14 bits of GQ. -/
def askedQueue (T : Tile) (w : Word) : Nat := if bitAt w 47 then fld w 0 14 else fld (T.seq.getG (fld w 41 6)) 0 14

/-- The queue operation of a tile's handle instruction; a speculative-class item's carries its SEQ and EPOCH (06 R152, 07 R175). -/
def askedOp (T : Tile) (t : Nat) (w : Word) (op : QOp) (count : Nat) (entry : Word) : HopReq :=
  match T.running with
  | some r =>
    if r.spec || r.verify then ⟨op, askedQueue T w, count, entry, r.seq, r.epoch, true, .tile t⟩
    else ⟨op, askedQueue T w, count, entry, 0, 0, false, .tile t⟩
  | none => ⟨op, askedQueue T w, count, entry, 0, 0, false, .tile t⟩

/-- The tile that a blocking operation of its instruction holds in WAIT, with the register that receives the entry (04 R101, R107). -/
def askingHeld (T : Tile) (dest : Option Nat) : Tile := { T with seq := { T.seq with st := .wait, wait := some (.handle dest) } }

/-- The tile that goes on beside its operation, the register that is to receive the entry noted (04 R101, R106). -/
def beside (T : Tile) (op : QOp) (q : Nat) (dest : Option Nat) : Tile :=
  { T with
    seq := { T.seq with
      ops := T.seq.ops ++ [HandleOp.mk T.seq.pc op q (match dest with | some 0 => none | some n => some (T.seq.gPhys n) | none => none) false] } }.fallThrough

/-- An operation that blocks until it is answered (04 R107). -/
def Blocks (r : HopReq) : Prop := r.op = .pop ∨ r.op = .waith

/-- The five handle instructions with a well-formed word w: the command, the operation, and the register that receives the entry (04 R100, R101). -/
inductive HandleForm (T : Tile) (t : Nat) (w : Word) : Instr → Nat → HopReq → Option Nat → Prop
  | waith : fld w 48 6 = 0 → 1 ≤ fld w 32 9 → fld w 32 9 ≤ 256 → HandleForm T t w (.waith t) 0x0E (askedOp T t w .waith (fld w 32 9) 0) none
  | signal : fld w 32 9 = 0 →
      HandleForm T t w (.signal t) 0x0F (askedOp T t w .push 0 (BitVec.ofNat 64 (2 ^ 62 + fld (T.seq.getG (fld w 48 6)) 0 32))) none
  | hpush : fld w 32 9 = 0 → validHandle (T.seq.getG (fld w 48 6)) = true →
      HandleForm T t w (.hpush t) 0x34 (askedOp T t w .push 0 (T.seq.getG (fld w 48 6))) none
  | hpop : fld w 33 8 = 0 →
      HandleForm T t w (.hpop t) 0x35 (askedOp T t w (if bitAt w 32 then .popNb else .pop) 0 0) (some (fld w 48 6))
  | hpeek : fld w 32 9 = 0 → HandleForm T t w (.hpeek t) 0x36 (askedOp T t w .peek 0 0) (some (fld w 48 6))

/-- What R101 and R106 let an operation pass at issue: a push, no earlier write of the tile; to another frond's queue, no earlier operation on it. -/
def MayGo (T : Tile) (f : Nat) (r : HopReq) : Prop :=
  (r.op = .push → T.arr.blocks = [] ∧ (∀ b ∈ T.strm.blocks, b.reads = 0 ∧ b.writes = 0) ∧ T.strm.signals r.queue = false) ∧
  (r.queue / 64 ≠ f → ∀ o ∈ T.seq.ops, o.queue ≠ r.queue)

/-- Frond f has sent a HOP for r under the transaction number tx (09 R234). -/
def sentHop (d : Device) (f : Nat) (F : Frond) (tx : BitVec 16) (r : HopReq) : Device :=
  (d.setFrond f { F with outst := Sparse.ins F.outst tx.toNat (.hop r), nextTx := tx + 1 }).setRouter (frondRouter f)
    { d.router (frondRouter f) with
      outbox := Sparse.put [] (d.router (frondRouter f)).outbox 0
        (Sparse.get [] (d.router (frondRouter f)).outbox 0 ++ [(none, mkHop false ⟨frondRouter f, 0⟩ tx r)]) }

/-- The program may address queue q: its frond is not fused off and the item's RUN owns it (06 R155). -/
def QueueOf (s : State) (t q : Nat) : Prop :=
  q < 12288 ∧ s.dev.frondOn (q / 64) = true ∧ ∃ r, (s.dev.tile t).running = some r ∧ (s.dev.hq q).owner = some (r.q, r.tag)

end Sys2Proof.Claims

open Sys2Proof Sys2Proof.Machine Sys2Proof.Claims in
/-- 04 R100, R101, R106, R107; 06 R155: WAITH, SIGNAL, HPUSH, HPOP and HPEEK hand their operation to the tile's own frond controller, or send it as a HOP
under a transaction number of its own; a blocking HPOP and WAITH then hold the sequencer, the others go on, and a push at a full queue reads WAIT. A push
waits at issue for the tile's earlier writes. A queue the RUN does not own, or a fused-off frond's, which the unmapped responder counts, is ADDRESS. Premise of
the full queue: the table of tiles is canonical (CanonicalTables). -/
def Obligations.HandleInstructions : Prop :=
  ∀ (s : State) (t : Nat) (w : Word) (c : Instr) (op : Nat) (r : HopReq) (dest : Option Nat),
    let d := s.dev
    let T := d.tile t
    let f := t / 16
    let F := d.frond f
    let R := d.router (frondRouter f)
    let q := askedQueue T w
    HandleForm T t w c op r dest → Issues s t op w → wSat w = false → wPs w = 0 → fld w 14 18 = 0 →
    (bitAt w 47 = true → fld w 41 6 = 0) → (bitAt w 47 = false → fld w 0 14 = 0) →
    let full := r.op = .push ∧ 256 ≤ (d.hq q).entries.length
    (∀ T' : Tile, (Blocks r → T' = askingHeld T dest) → (¬Blocks r → ¬full → T' = beside T r.op q dest) →
      (full → Sparse.wf Tile.reset d.tiles = true ∧ T' = (beside T r.op q dest).showFull r) → QueueOf s t q → MayGo T f r →
      (q / 64 = f → Gives c s ((d.setTile t T').setFrond f { F with ops := F.ops ++ [r] })) ∧
      (q / 64 ≠ f → ∃ tx : BitVec 16, (F.outst.length < 65536 → Sparse.find F.outst tx.toNat = none) ∧
        Gives c s ((sentHop d f F tx r).setTile t T'))) ∧
    (QueueOf s t q → ¬MayGo T f r → Leaves c s t T) ∧
    (q < 12288 → d.frondOn (q / 64) = false →
      Gives c s ((d.setTile t (faulted T .address .tileFault 0)).setRouter (frondRouter f) { R with unmappedCount := R.unmappedCount.incReg })) ∧
    (q < 12288 → d.frondOn (q / 64) = true → (∀ x, T.running = some x → (d.hq q).owner ≠ some (x.q, x.tag)) →
      Leaves c s t (faulted T .address .tileFault 0)) ∧
    (12288 ≤ q → Leaves c s t (faulted T .operandRange .tileFault 0))

namespace Sys2Proof.Claims

open Sys2Proof Sys2Proof.Machine

/-- An entry's tag lets the operation take it: none, or the asker's own sequence and an epoch not after the asker's (07 R176). -/
def Takes (e : QEntry) (r : HopReq) : Prop :=
  ∀ g, e.tag = some g → r.specv = true ∧ r.seq = g.1 ∧ (r.epoch - g.2).toNat ≤ 32767

/-- A queue after an operation that completes at once, the entry handed back, and whether the queue was empty to it (06 R152-R154, 07 R176, R178). -/
inductive Serves (Q : HQueue) (discard : Bool) (r : HopReq) : HQueue → Word → Nat → Prop
  | push : r.op = .push → discard = false → Q.entries.length < 256 →
      Serves Q discard r { Q with entries := Q.entries ++ [⟨r.entry, if r.specv then some (r.seq, r.epoch) else none⟩] } 0 0
  | discarded : r.op = .push → discard = true → Serves Q discard r Q 0 0
  | pop (e : QEntry) (rest : List QEntry) : r.op = .pop ∨ r.op = .popNb → Q.entries = e :: rest → Takes e r →
      Serves Q discard r { Q with entries := rest } e.value 0
  | peek (e : QEntry) (rest : List QEntry) : r.op = .peek → Q.entries = e :: rest → Takes e r → Serves Q discard r Q e.value 0
  | empty : r.op = .popNb ∨ r.op = .peek → (∀ e ∈ Q.entries.head?, ¬Takes e r) → Serves Q discard r Q 0 1
  | waith (l rest : List QEntry) : r.op = .waith → Q.entries = l ++ rest → l.length = r.count → (∀ e ∈ l, Takes e r) → Serves Q discard r Q 0 0

/-- The tile goes on with its operation answered: the entry in its destination register, if it has one (04 R101). -/
def answered (T : Tile) (dest : Option Nat) (e : Word) : Tile :=
  match dest with
  | some g => { T with seq := { T.seq with wait := none }.setG g e }.fallThrough
  | none => { T with seq := { T.seq with wait := none } }.fallThrough

/-- The tile whose operation x beside its sequencer is answered with the entry e: the entry in the register named at issue, and a push that found its queue
full, the last to hold the sequencer, holds no longer (04 R101, R106, R107). -/
def heard (T : Tile) (pre : List HandleOp) (x : HandleOp) (post : List HandleOp) (e : Word) : Tile :=
  { T with
    seq := { T.seq with
      g := (match x.dest with | some g => Sparse.put 0 T.seq.g g e | none => T.seq.g), ops := pre ++ post
      st := if x.full && !(pre ++ post).any HandleOp.full && T.seq.wait.isNone && decide (T.seq.st = .wait) then .run else T.seq.st } }

/-- The operations pre ++ x :: post beside a sequencer, of which x is the oldest that r stands for. -/
def Oldest (T : Tile) (r : HopReq) (pre : List HandleOp) (x : HandleOp) (post : List HandleOp) : Prop :=
  T.seq.ops = pre ++ x :: post ∧ x.op = r.op ∧ x.queue = r.queue ∧ ∀ y ∈ pre, ¬(y.op = r.op ∧ y.queue = r.queue)

/-- The operation of the lowest slot, the oldest of it; what is left (06 R153). -/
def FirstOf (ops : List HopReq) (r : HopReq) (rest : List HopReq) : Prop :=
  ∃ pre post, ops = pre ++ r :: post ∧ rest = pre ++ post ∧ (∀ x ∈ pre, r.src.rank < x.src.rank) ∧ ∀ x ∈ post, r.src.rank ≤ x.src.rank

/-- Operation o meets r, the first in order, on its queue and goes before it (06 R153): a push before the pop at an empty queue, a pop before the push at a
full one, a peek before the pop at a queue with entries. -/
def Meets (Q : HQueue) (r o : HopReq) : Prop :=
  o.queue = r.queue ∧
    ((r.op = .push ∧ 256 ≤ Q.entries.length ∧ (o.op = .pop ∨ o.op = .popNb)) ∨
     ((r.op = .pop ∨ r.op = .popNb) ∧ ((Q.entries = [] ∧ o.op = .push) ∨ (Q.entries ≠ [] ∧ o.op = .peek))))

/-- Frond f takes the operation o of its own next: the first in order where nothing meets it, or the one that does. -/
def Taken (d : Device) (f : Nat) (o : HopReq) : Prop :=
  ∃ r rest, FirstOf (d.frond f).ops r rest ∧
    let net := ((d.netHop f).bind fun p => p.1.goodHop).toList
    (o = r ∧ ∀ x ∈ rest ++ net, ¬Meets (d.hq r.queue) r x) ∨
    (∃ pre post, rest = pre ++ o :: post ∧ Meets (d.hq r.queue) r o ∧ ∀ x ∈ pre ++ post ++ net, ¬Meets (d.hq r.queue) r x)

end Sys2Proof.Claims

namespace Sys2Proof.Claims

open Sys2Proof Sys2Proof.Machine

/-- Packet p is the first one at local port lp of router r that passes f; rest is what lies there without it. -/
def FirstAt (d : Device) (r lp : Nat) (f : Packet → Bool) (p : Packet) (rest : List Packet) : Prop :=
  ∃ pre post, d.inboxOf ⟨r, lp⟩ = pre ++ p :: post ∧ rest = pre ++ post ∧ f p = true ∧ ∀ x ∈ pre, f x = false

end Sys2Proof.Claims

open Sys2Proof Sys2Proof.Machine Sys2Proof.Claims in
/-- 04 R101, R106, R107; 06 R152-R154; 07 R176, R178: QUEUE_OPERATION takes the operation of the lowest slot, or the one it has to let go before it. One that
can complete does, and its tile gets the entry, going on where it waited; one that cannot is parked, and where 32 are parked it is refused, counted in
HQ_RETRY and kept to be retried; a push that waits shows its tile in WAIT. Afterwards no parked operation of the queue could complete, and none beyond 32
waits there. Premise of the last: the table of queues is canonical (CanonicalTables).
06 R150, R152, R153, R155; 09 R234 HOP, HRESP: with no operation of its own, a frond takes the oldest HOP: one that can complete is answered DONE or
EMPTY with the entry, one that cannot is parked, one that finds 32 parked REFUSED; a push that waits shows the tile that asked in WAIT (04 R107); a
reserved operation or an invalid entry is answered INVALID_PARAM and changes no queue. -/
def Obligations.QueueOperations : Prop :=
  (∀ (s : State) (f : Nat) (r : HopReq), f < 192 → Taken s.dev f r →
     let d := s.dev
     let Q := d.hq r.queue
     let disc := d.pushDiscarded Q r
     let d1 := d.setFrond f { d.frond f with ops := (d.frond f).ops.erase r }
     let shown := fun (e : Device) t => if r.op = .push then e.setTile t ((d.tile t).showFull r) else e
     (∀ (t : Nat) (Q' : HQueue) (e : Word) (res : Nat), r.src = .tile t → Q.owner.isSome = true → Q.parked = [] → Serves Q disc r Q' e res →
       (∀ dest, Blocks r → (d.tile t).seq.wait = some (.handle dest) →
         Gives (.queueOperation f) s ((d1.setHq r.queue Q').setTile t (answered (d.tile t) dest e))) ∧
       (∀ pre x post, ¬Blocks r → Oldest (d.tile t) r pre x post →
         Gives (.queueOperation f) s ((d1.setHq r.queue Q').setTile t (heard (d.tile t) pre x post e)))) ∧
     ((∀ Q' e res, ¬Serves Q disc r Q' e res) → ∀ t, r.src = .tile t →
       (Q.parked.length < 32 → Gives (.queueOperation f) s (shown (d1.setHq r.queue { Q with parked := Q.parked ++ [r] }) t)) ∧
       (32 ≤ Q.parked.length →
         let b := d1.bump 0x24 f 1
         Gives (.queueOperation f) s (shown (b.setFrond f { b.frond f with retries := (b.frond f).retries ++ [r] }) t))) ∧
     (Sparse.wf HQueue.reset d.hqs = true → Q.parked.length ≤ 32 → ∃ s', exec (.queueOperation f) s = .next s' ∧
       let Q' := s'.dev.hq r.queue
       Q'.parked.length ≤ 32 ∧ ((∀ p ∈ Q.parked, ∀ X e res, ¬Serves Q (d.pushDiscarded Q p) p X e res) →
         ∀ p ∈ Q'.parked, ∀ X e res, ¬Serves Q' (s'.dev.pushDiscarded Q' p) p X e res))) ∧
  (∀ (s : State) (f : Nat) (p : Packet) (rest : List Packet), f < 192 → (s.dev.frond f).ops = [] →
     let d := s.dev
     let at_ : PortId := ⟨frondRouter f, 0⟩
     let d1 := d.setInbox at_ rest
     FirstAt d (frondRouter f) 0 (fun x => x.type == 6) p rest →
     (p.hop = none → Gives (.queueOperation f) s (d1.send at_ (mkHresp p.hdr at_ 0x11 0 0))) ∧
     (∀ r, p.hop = some r → r.op = .push → validEntry r.entry = false → Gives (.queueOperation f) s (d1.send at_ (mkHresp p.hdr at_ 0x11 0 0))) ∧
     (∀ r, p.hop = some r → (r.op = .push → validEntry r.entry = true) →
       let Q := d.hq r.queue
       let shown := fun (e : Device) => match r.op, (d.requester r).src with
         | .push, .tile t => e.setTile t ((d.tile t).showFull (d.requester r))
         | _, _ => e
       (∀ (Q' : HQueue) (e : Word) (res : Nat), Q.owner.isSome = true → Q.parked = [] → Serves Q (d.pushDiscarded Q r) r Q' e res →
         Gives (.queueOperation f) s ((d1.setHq r.queue Q').send at_ (mkHresp p.hdr at_ 0 res e))) ∧
       ((∀ Q' e res, ¬Serves Q (d.pushDiscarded Q r) r Q' e res) →
         (Q.parked.length < 32 → Gives (.queueOperation f) s (shown (d1.setHq r.queue { Q with parked := Q.parked ++ [r] }))) ∧
         (32 ≤ Q.parked.length → Gives (.queueOperation f) s (shown ((d1.bump 0x24 f 1).send at_ (mkHresp p.hdr at_ 0 2 0)))))))

namespace Sys2Proof.Claims

open Sys2Proof Sys2Proof.Machine

/-- Block n of a tile's list changed. -/
def withBlock (T : Tile) (n : Nat) (g : StrmBlock → StrmBlock) : Tile :=
  { T with strm := { T.strm with blocks := T.strm.blocks.map fun b => if b.idx = n then g b else b } }

/-- The tile's memory with the pieces of a read written where its moves say, INT4 pieces widened (06 R135, R136). -/
def moved (m : Mem) (data : List Byte) (base : Nat) (l : List Move) : Mem :=
  l.foldl (fun m v => let x := (data.drop (v.src - base)).take v.len; m.write v.dst (if v.unpack then unpackInt4 x else x)) m

/-- Block n of the list is under way and copies to the tile's own memory. -/
def LocalBlock (T : Tile) (n : Nat) : Prop := ∃ b, T.strm.blocks.find? (fun b => b.idx == n) = some b ∧ (descOf b.words).dlocal = true

/-- A line put first among those of a frond's cache; of more than 16 in its set the one used longest ago leaves (06 R143). -/
def lineFirst (l : List WcLine) (x : WcLine) : List WcLine :=
  let l' := x :: l.filter fun y => y.line != x.line
  let set := l'.filter fun y => y.line % 1024 == x.line % 1024
  if set.length ≤ 16 then l' else l'.filter fun z => some z.line != set.getLast?.map WcLine.line

/-- No RUN can complete now: none is stopping, and each has an item that has not ended (07 R186). -/
def RunsGoOn (d : Device) : Prop := ∀ x ∈ d.sched.runs, x.stopped = false ∧ x.ended ≠ x.items.length

end Sys2Proof.Claims

open Sys2Proof Sys2Proof.Machine Sys2Proof.Claims in
/-- 06 R135, R140, R143, R145, R154, R155; 09 R234: at a frond, a successful RDRESP writes its bytes where the block's moves say, a WRACK leaves its block one
write less to wait for, an HRESP hands over its entry, is retried, or is ADDRESS; a fill's answer goes to every read that waits for it, is installed as the
set's most recently used line unless it was invalidated or failed, and lets the reads that waited for a fill entry look again; the oldest refused operation is
asked again. Premise: the tables of fronds and tiles are canonical (CanonicalTables). -/
def Obligations.FrondAnswers : Prop :=
  ∀ (s : State) (f : Nat) (p : Packet) (rest : List Packet), f < 192 → Sparse.wf Frond.reset s.dev.fronds = true → Sparse.wf Tile.reset s.dev.tiles = true →
    let d := s.dev
    let r := frondRouter f
    let F := d.frond f
    let d1 := d.setInbox ⟨r, 0⟩ rest
    let F1 := { F with outst := Sparse.del F.outst p.txid.toNat }
    (∀ t blk base len l, FirstAt d r 0 (fun x => x.type == 4 && !d.isFill f x) p rest →
      Sparse.find F.outst p.txid.toNat = some (.streamRead t blk base len l) → p.status = 0 →
      let T := d.tile t
      T.strm.failing = none → LocalBlock T blk →
      ∃ bw, (∀ u ∈ bw, u ∈ T.badWords) ∧
        Gives (.readResponse r 0) s ((d1.setFrond f F1).setTile t
          (withBlock { T with mem := moved T.mem (p.bytes.take len) base l, badWords := bw } blk fun b => { b with reads := b.reads - 1 }))) ∧
    (∀ b : StrmBlock, FirstAt d r 0 (fun x => x.type == 5) p rest →
      let t := 16 * f + p.sub % 16
      let T := d.tile t
      T.strm.blocks.find? (fun b => b.idx % 4 == p.sub / 16) = some b → T.strm.failing = none → p.status = 0 →
      Gives (.writeAck r 0) s (d1.setTile t (withBlock T b.idx fun c => { c with writes := c.writes - 1 }))) ∧
    (∀ t op, FirstAt d r 0 (fun x => x.type == 7) p rest → Sparse.find F.outst p.txid.toNat = some (.hop op) → op.src = .tile t → RunsGoOn d →
      let T := d.tile t
      (∀ dest, Blocks op → T.seq.wait = some (.handle dest) →
        (p.status = 0 → p.result ≠ 2 → Gives (.hrespReceive r 0) s ((d1.setFrond f F1).setTile t (answered T dest p.word0))) ∧
        (p.status ≠ 0 → Gives (.hrespReceive r 0) s ((d1.setFrond f F1).setTile t (faulted T .address .tileFault 0)))) ∧
      (∀ pre x post, ¬Blocks op → Oldest T op pre x post →
        (p.status = 0 → p.result ≠ 2 → Gives (.hrespReceive r 0) s ((d1.setFrond f F1).setTile t (heard T pre x post p.word0))) ∧
        (p.status ≠ 0 →
          let g := faulted { T with seq := { T.seq with ops := pre ++ post, pc := x.pc } } .address .tileFault 0
          Gives (.hrespReceive r 0) s ((d1.setFrond f F1).setTile t { g with seq := { g.seq with pc := T.seq.pc } }))) ∧
      (p.status = 0 → p.result = 2 → Gives (.hrespReceive r 0) s (d1.setFrond f { F1 with retries := F.retries ++ [op] }))) ∧
    (∀ line x, FirstAt d r 0 (fun x => x.type == 4 && d.isFill f x) p rest → Sparse.find F.outst p.txid.toNat = some (.fill line) →
      F.wcFills.find? (fun y => y.line == line) = some x → (∀ i ∈ F.invals, i.2.2 ≠ line) →
      let kept := { F1 with
        wcFills := F.wcFills.filter fun y => y.line != line
        wcLines := if x.install = true ∧ p.status = 0 then lineFirst F.wcLines ⟨line, p.bytes.take 512⟩ else F.wcLines }
      (∀ t blk base len l, x.waiters = [(t, blk, base, len, l)] → F.wcWait = [] → p.status = 0 → (d.tile t).strm.failing = none → LocalBlock (d.tile t) blk →
        ∃ bw, (∀ u ∈ bw, u ∈ (d.tile t).badWords) ∧
          Gives (.wcFillReturn f) s ((d1.setFrond f kept).setTile t
            (withBlock { d.tile t with mem := moved (d.tile t).mem (p.bytes.take 512) (512 * line) l, badWords := bw } blk fun b =>
              { b with reads := b.reads - 1 }))) ∧
      (F.wcWait = [] →
        Gives (.wcFillReturn f) s (x.waiters.foldl (fun e w =>
          if p.status = 0 then e.readDone w.1 w.2.1 (512 * line) (p.bytes.take 512) w.2.2.2.2 else e.readFailed w.1 w.2.1 p.status) (d1.setFrond f kept)))) ∧
    (∀ op more, F.retries = op :: more →
      (op.queue / 64 = f → Gives (.hopRetry r 0) s (d.setFrond f { F with retries := more, ops := F.ops ++ [op] })) ∧
      (op.queue / 64 ≠ f → ∃ tx : BitVec 16, (F.outst.length < 65536 → Sparse.find F.outst tx.toNat = none) ∧
        Gives (.hopRetry r 0) s (sentHop d f { F with retries := more } tx op)))

namespace Sys2Proof.Claims

open Sys2Proof Sys2Proof.Machine

/-- The list engine with a list at its start: the first descriptor's address, numbers from the next one on, no pop; earlier blocks go on (06 R132, R137). -/
def listFrom (E : Stream) (a : Nat) (pc : BitVec 14) : Stream :=
  { E with next := some (BitVec.ofNat 44 a), first := E.count, waiting := none, popped := none, closed := false, at_ := pc }

/-- The tile held in STRM or STRMY while its list runs (04 R102, R107). -/
def listHeld (T : Tile) (e : Stream) : Tile := { T with seq := { T.seq with st := .wait, wait := some .stream, strmState := 0 }, strm := e }

/-- Strided-side address of element (i2, i1, i0) of a block from base b (06 R135). -/
def strided (x : Desc) (b i2 i1 i0 : Nat) : Int := b + i0 * x.stride0 + i1 * x.stride1 + i2 * x.stride2

/-- Packed-side address of the same element (06 R135, XFORM 0x0). -/
def packed (x : Desc) (b i2 i1 i0 : Nat) : Nat := b + ((i2 * x.ext1 + i1) * x.ext0 + i0) * x.esize

/-- An element's address in the tile's own window is one R134 allows: in operand SRAM or accumulator memory without crossing, aligned, and elements below
four bytes not in an accumulator. -/
def LocalOk (x : Desc) (a : Int) : Prop :=
  0 ≤ a ∧ a % (min x.esize 64 : Nat) = 0 ∧ (a + x.esize ≤ 0x100000 ∨ (0x100000 ≤ a ∧ a + x.esize ≤ 0x140000 ∧ 4 ≤ x.esize))

/-- The descriptor of a block that copies within its tile, source strided, and does nothing else: no transform, no handles, no barrier (06 R133-R135). -/
def LocalCopy (x : Desc) : Prop :=
  x.slocal = true ∧ x.dlocal = true ∧ x.sside = false ∧ x.xform = 0 ∧ x.wait = false ∧ x.sig = false ∧ x.barrier = false ∧ x.src < 0x140000 ∧
    x.dst < 0x140000 ∧ (0x100000 ≤ x.src ∨ 0x100000 ≤ x.dst → 4 ≤ x.esize) ∧ ∀ i2 i1 i0, i2 < x.ext2 → i1 < x.ext1 → i0 < x.ext0 → LocalOk x (strided x x.src i2 i1 i0) ∧ LocalOk x (packed x x.dst i2 i1 i0)

/-- Source and destination of the block do not overlap (06 R135). -/
def NoOverlap (x : Desc) : Prop :=
  ∀ i2 i1 i0, i2 < x.ext2 → i1 < x.ext1 → i0 < x.ext0 →
    strided x x.src i2 i1 i0 + x.esize ≤ x.dst ∨ (x.dst + x.ext2 * x.ext1 * x.ext0 * x.esize : Nat) ≤ strided x x.src i2 i1 i0

/-- The blocks under way let the next one start (06 R139; log entry 25): none is four numbers back, and the last one has issued its last request. -/
def NextMayStart (d : Device) (t : Nat) : Prop :=
  let E := (d.tile t).strm
  ∀ b ∈ E.blocks, E.count < b.idx + 4 ∧ (b.idx + 1 = E.count → b.reads = 0 ∧ ∀ w ∈ (d.frond (t / 16)).wcWait, w.1 ≠ t)

end Sys2Proof.Claims

open Sys2Proof Sys2Proof.Machine Sys2Proof.Claims in
/-- 04 R102, R107, R108; 06 R132, R134, R137, R139, R140: STRM starts the list at the address in its register and holds the sequencer; STRMY goes on with a
list that yielded, and is STREAM_STATE otherwise. A block completes once its reads and writes are answered, whatever blocks before it wait for: LAST returns
with STRM_STATE 2, YIELD with 1; SIGNAL_HANDLE pushes HVAL first, once every earlier block is acknowledged, to a queue the RUN owns: another is ADDRESS.
06 R132-R137, R139, R144: STREAM_BLOCK_START reads the next descriptor as one unit, counted in WC_BYPASS; a block that copies within its tile moves every
element from its strided source to its packed place in the order of R135, its requests counted as well, leaves every other byte, and is then under way with
nothing to wait for; after LAST or YIELD no further block starts. A block with WAIT_HANDLE pops first, from a queue the RUN owns. A reserved bit in the
descriptor is RESERVED_FIELD at the STRM, with nothing moved. Premise: the table of tiles is canonical (CanonicalTables). -/
def Obligations.StreamCommands : Prop :=
  (∀ (s : State) (t : Nat) (w : Word),
     let d := s.dev
     let T := d.tile t
     let a := (T.seq.getG (wGd w)).toNat
     (wSat w = false → wPs w = 0 → Issues s t 0x38 w → fld w 0 48 = 0 →
       (a % 64 = 0 → a < 2 ^ 44 → Leaves (.strm t) s t (listHeld T (listFrom T.strm a T.seq.pc))) ∧
       (a % 64 ≠ 0 ∨ 2 ^ 44 ≤ a → Leaves (.strm t) s t (faulted T .operandRange .tileFault 0))) ∧
     (wSat w = false → wPs w = 0 → Issues s t 0x39 w → fld w 0 54 = 0 →
       (T.seq.strmState = 1 → Leaves (.strmy t) s t (listHeld T { T.strm with closed := false, at_ := T.seq.pc })) ∧
       (T.seq.strmState ≠ 1 → Leaves (.strmy t) s t (faulted T .streamState .tileFault 0))) ∧
     (t < 3072 → T.seq.wait = some .stream → T.strm.failing = none → T.strm.cut = none → ∀ pre b post, T.strm.blocks = pre ++ b :: post → b.reads = 0 →
       b.writes = 0 → b.dead = false → (∀ c ∈ pre, c.idx < b.idx ∧ (c.reads ≠ 0 ∨ c.writes ≠ 0)) → (∀ c ∈ post, b.idx < c.idx) → T.strm.first ≤ b.idx →
       let y := descOf b.words
       let T1 := { T with strm := { T.strm with blocks := pre ++ post } }
       let back := fun (n : BitVec 2) => { T1 with seq := { T1.seq with strmState := n, wait := none } }.fallThrough
       (y.sig = false ∨ b.sigDone = true →
         (y.last = true → Leaves (.streamBlockComplete t) s t (back 2)) ∧
         (y.last = false → y.yield = true → Leaves (.streamBlockComplete t) s t (back 1)) ∧
         (y.last = false → y.yield = false → Leaves (.streamBlockComplete t) s t T1)) ∧
       (y.sig = true → b.sigDone = false → (b.sigSent = true ∨ ∃ c ∈ pre, T.strm.first ≤ c.idx) → post = [] → Leaves (.streamBlockComplete t) s t T) ∧
       (y.sig = true → b.sigSent = false → b.sigDone = false → validEntry y.hval = true → pre = [] →
         (QueueOf s t y.sigQ → y.sigQ / 64 = t / 16 → T.running.any (fun r => r.spec || r.verify) = false →
           let F := d.frond (t / 16)
           Gives (.streamBlockComplete t) s ((d.setTile t (withBlock T b.idx fun c => { c with sigSent := true })).setFrond (t / 16)
             { F with ops := F.ops ++ [⟨.push, y.sigQ, 0, y.hval, 0, 0, false, .stream t⟩] })) ∧
         (d.frondOn (y.sigQ / 64) = true → (∀ r, T.running = some r → (d.hq y.sigQ).owner ≠ some (r.q, r.tag)) → post = [] →
           ∃ T' : Tile, Leaves (.streamBlockComplete t) s t T' ∧ T'.mem = T.mem ∧ T'.strm.blocks = [] ∧
             T'.seq = { T.seq with st := .faulted, wait := none, fault := ⟨.address, 0x60, 0, b.at_⟩ })))) ∧
  (∀ (s : State) (t u off : Nat) (a : BitVec 44), t < 3072 → Sparse.wf Tile.reset s.dev.tiles = true →
     let d := s.dev
     let T := d.tile t
     let l := (List.range 8).map fun i => (d.tile u).mem.word (off + 8 * i)
     let x := descOf l
     let E := T.strm
     let read := d.bump 0x23 (t / 16) 1
     T.seq.wait = some .stream → E.closed = false → E.failing = none → E.waiting = none → NextMayStart d t → E.next = some a → a.toNat % 64 = 0 →
     placeOf a.toNat = .tile u off → off < 0x100000 → d.tileOn u = true → (d.tile u).badWords = [] →
     (descReserved l = false → LocalCopy x → NoOverlap x → Mem.wf T.mem = true → T.badWords = [] →
       ∃ (M : Mem) (n : Nat), Mem.wf M = true ∧
         Gives (.streamBlockStart t) s ((read.bump 0x23 (t / 16) n).setTile t
           { T with
             mem := M,
             strm := { E with
               blocks := E.blocks ++ [⟨E.count, l, E.at_, 0, 0, false, false, false⟩], count := E.count + 1, popped := none,
               next := if x.last then none else some (BitVec.ofNat 44 x.next), closed := x.last || x.yield } }) ∧
         (∀ i2 i1 i0 k, i2 < x.ext2 → i1 < x.ext1 → i0 < x.ext0 → k < x.esize →
           M.byte (packed x x.dst i2 i1 i0 + k) = T.mem.byte ((strided x x.src i2 i1 i0).toNat + k)) ∧
         ∀ y, y < x.dst ∨ x.dst + x.ext2 * x.ext1 * x.ext0 * x.esize ≤ y → M.byte y = T.mem.byte y) ∧
     (descReserved l = false → x.wait = true → x.waitUse = 0 → x.slocal = true → x.dlocal = true → x.src < 0x100000 → x.dst < 0x100000 → x.ext0 = 0 →
       x.xform = 0 → x.barrier = false → (x.sig = true → x.sigQ < 12288) → QueueOf s t x.waitQ → x.waitQ / 64 = t / 16 →
       T.running.any (fun r => r.spec || r.verify) = false →
       Gives (.streamBlockStart t) s ((read.setTile t { T with strm := { E with waiting := some l, popped := none } }).setFrond (t / 16)
         { read.frond (t / 16) with ops := (read.frond (t / 16)).ops ++ [⟨.pop, x.waitQ, 0, 0, 0, 0, false, .stream t⟩] })) ∧
     (descReserved l = true → E.blocks = [] →
       ∃ T' : Tile, Gives (.streamBlockStart t) s (read.setTile t T') ∧ T'.mem = T.mem ∧
         T'.seq = { T.seq with st := .faulted, wait := none, fault := ⟨.reservedField, 0x60, 0, E.at_⟩ } ∧ T'.running = T.running))

namespace Sys2Proof.Claims

open Sys2Proof Sys2Proof.Machine

/-- RUN r is RUNNING under its queue and tag. -/
def RunIs (d : Device) (r : Run) : Prop := d.runOf r.q r.tag = some r

/-- The device with RUN r replaced. -/
def withRun (d : Device) (r : Run) : Device :=
  { d with sched := { d.sched with runs := d.sched.runs.map fun x => if x.q = r.q ∧ x.tag = r.tag then r else x } }

/-- Frond f takes items: it is not fused off, has an available tile, and is not withheld for part II (07 R165, R455; 14 R374). -/
def InService (d : Device) (f : Nat) : Prop :=
  (d.frond f).withheld = false ∧ d.frondOn f = true ∧ ∃ i, i < 16 ∧ (d.tile (16 * f + i)).avail = .available

/-- f is the first frond of the list that takes items. -/
def FirstServing (d : Device) (l : List Nat) (f : Nat) : Prop :=
  ∃ pre post, l = pre ++ f :: post ∧ InService d f ∧ ∀ x ∈ pre, ¬InService d x

/-- The entry frond f gains for an item of RUN r. -/
def sentItem (r : Run) (w : List Word) (slot : Nat) : Waiting := ⟨r.q, r.tag, r.nextSend, w, slot, false⟩

end Sys2Proof.Claims

open Sys2Proof Sys2Proof.Machine Sys2Proof.Claims in
/-- 07 R162, R165, R455; 13 R339: ITEM_SEND sends the next item of a RUN to its home frond, or the next logical frond of that die that takes items; without
a home, to the next such frond in turn of the dies in AFFINITY, with slots 0 to 15 in turn. Its frond is woken. A frond with 1,024 undispatched items holds
it back, and so does a withheld frond where no other takes items. -/
def Obligations.ItemSending : Prop :=
  ∀ (s : State) (r : Run) (w : List Word), r.q < 64 → RunIs s.dev r → r.stopped = false → r.items[r.nextSend]? = some w →
    (∀ x ∈ s.dev.sched.runs, x.q = r.q → x.tag = r.tag → x = r) →
    let d := s.dev
    let home := d.frondsOf (fld (w.getD 0 0) 36 3)
    let at_ := fld (w.getD 0 0) 31 5
    let pool := ((List.range 8).filter fun k => bitAt (w.getD 0 0) (40 + k)).flatMap d.frondsOf
    let from' := fun (d : Device) (f slot : Nat) => d.setFrond f { d.frond f with items := (d.frond f).items ++ [sentItem r w slot] }
    (bitAt (w.getD 0 0) 39 = true → ∀ f, FirstServing d (home.drop at_ ++ home.take at_) f →
      ((d.frond f).items.length < 1024 →
        Gives (.itemSend r.q r.tag) s
          ((from' (withRun d { r with nextSend := r.nextSend + 1 }) f (fld (w.getD 0 0) 27 4)).wakeDom f)) ∧
      (1024 ≤ (d.frond f).items.length → Gives (.itemSend r.q r.tag) s d)) ∧
    (bitAt (w.getD 0 0) 39 = false → ∀ f,
      FirstServing d (pool.filter fun x => decide (r.rr ≤ x)) f ∨ ((∀ x ∈ pool, r.rr ≤ x → ¬InService d x) ∧ FirstServing d pool f) →
      let n := Sparse.get 0 r.slots f
      ((d.frond f).items.length < 1024 →
        Gives (.itemSend r.q r.tag) s
          ((from' (withRun d { r with nextSend := r.nextSend + 1, rr := f + 1, slots := Sparse.put 0 r.slots f (n + 1) }) f (n % 16)).wakeDom f)) ∧
      (1024 ≤ (d.frond f).items.length → Gives (.itemSend r.q r.tag) s d)) ∧
    (bitAt (w.getD 0 0) 39 = false → (∀ f ∈ pool, ¬InService d f) → (∃ f ∈ pool, (d.frond f).withheld = true) → Gives (.itemSend r.q r.tag) s d)

namespace Sys2Proof.Claims

open Sys2Proof Sys2Proof.Machine

/-- What a dispatch sets and keeps of its tile (04 R84, R85; 07 R162): the parameters of the item in g1 to g8, its handles h in g9 to g14. -/
structure Dispatched (T T' : Tile) (h : Nat → Word) (x : Waiting) (r : Run) (base : Nat) (d : Device) : Prop where
  state : T'.seq.st = .run ∧ T'.seq.pc = BitVec.ofNat 14 (base + fld (x.words.getD 0 0) 0 14) ∧ T'.seq.slot = BitVec.ofNat 4 x.slot ∧ T'.seq.wait = none
  params : ∀ i, i < 8 → bitAt (x.words.getD 0 0) (16 + i) = false → T'.seq.getG (i + 1) = x.words.getD (2 + i) 0
  queues : ∀ i p, i < 8 → bitAt (x.words.getD 0 0) (16 + i) = true → d.physQueue (fld (x.words.getD (2 + i) 0) 0 14) = some p →
    T'.seq.getG (i + 1) = BitVec.ofNat 64 ((x.words.getD (2 + i) 0).toNat / 2 ^ 14 * 2 ^ 14 + p % 2 ^ 14)
  handles : ∀ i, i < 6 → T'.seq.getG (9 + i) = h i
  rest : ∀ i, 15 ≤ i → i < 64 → T'.seq.getG i = 0
  cleared : T'.seq.v = [] ∧ T'.seq.p = [] ∧ T'.seq.loops = [] ∧ T'.seq.rrbG = 0 ∧ T'.seq.rrbV = 0 ∧ T'.seq.flags = ⟨false, false⟩ ∧ T'.seq.cycle = 0
  item : T'.seq.item = BitVec.ofNat 32 x.index ∧ T'.seq.seed = r.seed ∧ T'.sel.valid = false
  runs : T'.running = some ⟨x.q, x.tag, x.index, BitVec.ofNat 16 (fld (x.words.getD 1 0) 48 16), BitVec.ofNat 16 (fld (x.words.getD 1 0) 32 16),
    BitVec.ofNat 16 (fld (x.words.getD 1 0) 16 16), bitAt (x.words.getD 1 0) 15, bitAt (x.words.getD 1 0) 14, [h 4, h 5]⟩
  kept : T'.mem = T.mem ∧ T'.imem = T.imem ∧ T'.seq.fault = T.seq.fault

/-- The rest of the device as a dispatch of x on tile t of frond f leaves it: the frond with the items and reservations given, the RUN active there and with one
item more dispatched, other tiles and fronds, queues and memories as they were. -/
structure DispatchKeeps (d d' : Device) (f t : Nat) (x : Waiting) (r : Run) (items : List Waiting) (res : List Reservation) : Prop where
  tiles : ∀ u, u ≠ t → d'.tile u = d.tile u
  frond : (d'.frond f).items = items ∧ (d'.frond f).reserved = res ∧ (x.q, x.tag) ∈ (d'.frond f).activeRuns
  fronds : ∀ g, g ≠ f → d'.frond g = d.frond g
  others : d'.hqs = d.hqs ∧ d'.dram = d.dram ∧ d'.host = d.host
  count : (d'.runOf x.q x.tag).map (·.dispatched) = some (r.dispatched + 1)

/-- A literal handle as delivered on tile t: TILE 0xFFF names the tile itself (07 R163). -/
def literalOf (x : Waiting) (t i : Nat) : Word :=
  let e := x.words.getD (10 + i) 0
  if fld e 50 14 = 0x2FFF then BitVec.ofNat 64 (e.toNat % 2 ^ 50 + (0x2000 + t) * 2 ^ 50) else e

/-- Kind of handle source i of an item (07 R163). -/
def sourceKind (x : Waiting) (i : Nat) : Nat := fld (x.words.getD 1 0) (2 * i) 2

/-- Tile t is the one an item may start on (07 R166, R167, R184): that of its slot, if it is free; otherwise, outside deterministic mode, any free one. -/
def PlacedOn (d : Device) (f : Nat) (x : Waiting) (r : Run) (t : Nat) : Prop :=
  (d.tilesOf f)[x.slot % (d.tilesOf f).length]? = some t ∧ d.tileFree t = true ∨
  r.det = false ∧ (∀ u, (d.tilesOf f)[x.slot % (d.tilesOf f).length]? = some u → d.tileFree u = false) ∧ t ∈ d.tilesOf f ∧ d.tileFree t = true

end Sys2Proof.Claims

open Sys2Proof Sys2Proof.Machine Sys2Proof.Claims in
/-- 04 R84, R85; 06 R146; 07 R162, R163, R166-R168, R184: ITEM_DISPATCH starts a reserved item whose sources have been popped; with none, it chooses the oldest
ready item and the free tile of its slot or another free one: an item without queue sources starts, one with them is reserved and its first pop asked for.
Started, it has its parameters with physical queue numbers in g1 to g8, its handles in g9 to g14, all else of the sequencer as R84 says, memories untouched;
other tiles are as they were. Premises: the tables of tiles and fronds are canonical (CanonicalTables), and no item of the frond is of a consumed epoch. -/
def Obligations.ItemDispatch : Prop :=
  ∀ (s : State) (f : Nat) (x : Waiting) (r : Run) (p : Program), f < 192 →
    let d := s.dev
    let F := d.frond f
    let w := x.words
    Sparse.wf Tile.reset d.tiles = true → Sparse.wf Frond.reset d.fronds = true → d.dom f = .run →
    (∀ y ∈ F.items, d.overtaken y = false) → (∀ y ∈ F.reserved, d.overtaken y.item = false) →
    d.runOf x.q x.tag = some r → d.sched.programs.find? (fun y => y.num.toNat == fld (w.getD 0 0) 48 16) = some p →
    (∀ pre t lit post, F.reserved = pre ++ ⟨x, t, [], lit⟩ :: post → (∀ y ∈ pre, y.todo ≠ [] ∧ y.tile ≠ t) → (∀ y ∈ post, y.tile ≠ t) →
      (lit.map (·.1)).Nodup → (∀ e ∈ lit, 9 ≤ e.1 ∧ e.1 < 15) →
      ∃ d', Gives (.itemDispatch f) s d' ∧
        Dispatched (d.tile t) (d'.tile t) (fun i => ((lit.find? fun e => e.1 == 9 + i).map (·.2)).getD 0) x r p.base d ∧
        DispatchKeeps d d' f t x r F.items (pre ++ post)) ∧
    (∀ pre post, F.items = pre ++ x :: post → (∀ y ∈ F.reserved, y.todo ≠ []) → F.withheld = false → (∀ y ∈ pre, d.itemReady y = false) → x ∉ pre →
      d.itemReady x = true → (∃ t, PlacedOn d f x r t) →
      (r.det = true → ∀ y ∈ pre, y.q = x.q → y.tag = x.tag →
        (d.tilesOf f)[y.slot % (d.tilesOf f).length]? ≠ (d.tilesOf f)[x.slot % (d.tilesOf f).length]?) →
      ((∀ i, i < 6 → sourceKind x i ≠ 2) → ∃ t d', PlacedOn d f x r t ∧ Gives (.itemDispatch f) s d' ∧
        Dispatched (d.tile t) (d'.tile t) (fun i => if sourceKind x i = 1 then literalOf x t i else 0) x r p.base d ∧
          DispatchKeeps d d' f t x r (pre ++ post) F.reserved) ∧
      (∀ i q, i < 6 → sourceKind x i = 2 → (∀ j, j < i → sourceKind x j ≠ 2) → d.physQueue (fld (w.getD (10 + i) 0) 0 14) = some q → q / 64 = f →
        ∃ t d', PlacedOn d f x r t ∧ Gives (.itemDispatch f) s d' ∧ d'.tiles = d.tiles ∧ d'.sched = d.sched ∧
          ∃ todo lit, (d'.frond f) = { F with
              items := pre ++ post, reserved := F.reserved ++ [⟨x, t, (9 + i, q) :: todo, lit⟩]
              ops := F.ops ++ [⟨.pop, q, 0, 0, BitVec.ofNat 16 (fld (w.getD 1 0) 48 16), BitVec.ofNat 16 (fld (w.getD 1 0) 32 16),
                bitAt (w.getD 1 0) 15 || bitAt (w.getD 1 0) 14, .dispatch t⟩] } ∧
            (∀ e ∈ lit, ∃ j, j < 6 ∧ sourceKind x j = 1 ∧ e = (9 + j, literalOf x t j)) ∧ ∀ e ∈ todo, ∃ j, i < j ∧ j < 6 ∧ sourceKind x j = 2 ∧ e.1 = 9 + j))

namespace Sys2Proof.Claims

open Sys2Proof Sys2Proof.Machine

/-- Nothing that an item of tile t began is in flight any more (07 R170, 04 R109). -/
def AtRest (d : Device) (t : Nat) : Prop :=
  let T := d.tile t
  T.arr.blocks = [] ∧ T.arr.loading = none ∧ T.arr.ballast = 0 ∧ T.seq.ops = [] ∧ (∀ b ∈ T.strm.blocks, b.reads = 0 ∧ b.writes = 0) ∧
    ∀ e ∈ (d.frond (t / 16)).outst, ∀ h, e.2 = .hop h → h.src ≠ .tile t ∧ h.src ≠ .stream t

end Sys2Proof.Claims

open Sys2Proof Sys2Proof.Machine Sys2Proof.Claims in
/-- 02 R45; 04 R109; 07 R169, R170, R183: ITEM_END reports an ended item: the tile is IDLE and free with its memories as they were, the RUN has one item
more ended, its flags joined; an item ended by HALT counts in ITEMS_DONE, and the first failure stops the RUN and is kept with its index, status and FAULT
word. An item that was stopped frees its tile, its flags joined all the same. ITEM_TIMEOUT stops a running item under a limit: it leaves its wait and its list, its end is TIMEOUT, and FAULT stands. -/
def Obligations.ItemEnds : Prop :=
  ∀ (s : State) (t : Nat) (x : Running) (r : Run), t < 3072 →
    let d := s.dev
    let T := d.tile t
    let f := t / 16
    Sparse.wf Tile.reset d.tiles = true → Sparse.wf Frond.reset d.fronds = true → Sparse.wf Counter.zero d.ctrs = true →
    T.running = some x → d.runOf x.q x.tag = some r → x.spec = false → x.verify = false →
    (∀ e, T.ended = some e → e.status = .success → r.stopped = false → r.fails = [] → AtRest d t → r.ended + 1 ≠ r.items.length →
      ∃ d', Gives (.itemEnd t) s d' ∧ (d'.tile t).seq = { T.seq with st := .idle, wait := none } ∧ (d'.tile t).running = none ∧
        (d'.tile t).ended = none ∧ (d'.tile t).mem = T.mem ∧ (d'.tile t).imem = T.imem ∧ (∀ u, u ≠ t → d'.tile u = d.tile u) ∧
        d'.counter 0x10 f = (d.counter 0x10 f).add 1 ∧
        d'.runOf x.q x.tag = some { r with
          ended := r.ended + 1, itemsOk := r.itemsOk + 1, doneItems := insNat x.index r.doneItems,
          flags := ⟨r.flags.saturated || T.seq.flags.saturated, r.flags.nanSeen || T.seq.flags.nanSeen⟩,
          nancount := BitVec.ofNat 48 (min (2 ^ 48 - 1) (r.nancount.toNat + T.sel.nanCount.value.toNat)) }) ∧
    (∀ e, T.ended = some e → e.status ≠ .success → e.status ≠ .aborted → r.stopped = false → r.fails = [] → AtRest d t →
      ∃ d', Gives (.itemEnd t) s d' ∧ (d'.tile t).running = none ∧ (d'.tile t).seq.st = .idle ∧ (d'.tile t).seq.fault = T.seq.fault ∧
        (d'.tile t).mem = T.mem ∧
        ∀ r', d'.runOf x.q x.tag = some r' → r'.stopped = true ∧ (x.index, e.status, if e.byFault then e.code else 0) ∈ r'.fails) ∧
    (T.ended = some ⟨.aborted, 0, false⟩ → AtRest d t →
      ∃ d', Gives (.itemEnd t) s d' ∧ (d'.tile t).running = none ∧ (d'.tile t).ended = none ∧ (d'.tile t).seq.st = .idle ∧ (d'.tile t).mem = T.mem ∧
        (∀ u, u ≠ t → d'.tile u = d.tile u) ∧
        ∀ r', d'.runOf x.q x.tag = some r' →
          r'.flags = ⟨r.flags.saturated || T.seq.flags.saturated, r.flags.nanSeen || T.seq.flags.nanSeen⟩ ∧ r'.ended = r.ended) ∧
    (T.ended = none → r.itemTimeout ≠ 0 →
      ∃ d', Gives (.itemTimeout t) s d' ∧
        d'.tile t = { T with
          seq := { T.seq with wait := none, ops := [] }, ended := some ⟨.timeout, 0, false⟩,
          strm := { T.strm with closed := true, next := none, waiting := none, popped := none, failing := none } } ∧
        (∀ u, u ≠ t → d'.tile u = d.tile u) ∧ d'.sched = d.sched ∧ d'.host = d.host ∧ d'.dram = d.dram ∧
        ∀ h ∈ (d'.frond f).ops, h.src ≠ .tile t ∧ h.src ≠ .stream t)

namespace Sys2Proof.Claims

open Sys2Proof Sys2Proof.Machine

/-- The items of frond f that may be stolen (07 R162, R171, R172): marked STEAL, not stolen before, their RUN's policy with stealing on and not in
deterministic mode. -/
def stealableOf (d : Device) (f : Nat) : List Waiting :=
  (d.frond f).items.filter fun x => bitAt (x.words.getD 0 0) 26 && !x.stolen &&
    (d.sched.runs.find? (fun r => r.q == x.q && r.tag == x.tag)).any (fun r => bitAt r.policy 0 && !r.det)

/-- Of a list in rising order, v is the one with the largest value; ties go to the earlier one (07 R172). -/
def Largest (l : List Nat) (val : Nat → Nat) (v : Nat) : Prop := v ∈ l ∧ ∀ u ∈ l, val u < val v ∨ (val u = val v ∧ v ≤ u)

end Sys2Proof.Claims

open Sys2Proof Sys2Proof.Machine Sys2Proof.Claims in
/-- 07 R172, R173, R183: LOAD_REPORT and DIE_TOTAL_REPORT give the other fronds and dies their counts; a thief asks the frond of its die with the largest
count of at least 2, otherwise the largest of the die with the largest total; the victim hands over the newest half of its eligible items, at most 8, in
order and marked as stolen. A thief that finds nobody to ask is not counted; a withheld frond neither takes nor gives (14 R374). Premise: the tables are
canonical (CanonicalTables). -/
def Obligations.Stealing : Prop :=
  ∀ (s : State) (f v : Nat), f < 192 →
    let d := s.dev
    let F := d.frond f
    let k := f / 24
    let seen := fun u => Sparse.get 0 F.reports u
    let mates := (d.frondsOf k).filter fun u => u != f && !(d.frond u).withheld
    let total := fun j => Sparse.get 0 d.sched.totals (8 * k + j)
    Sparse.wf Frond.reset d.fronds = true → Sparse.wf Counter.zero d.ctrs = true → Sparse.wf 0 d.sched.totals = true →
    (∀ u, Sparse.wf 0 (d.frond u).reports = true) →
    (d.frondOn f = true → ∃ d', Gives (.loadReport f) s d' ∧ d' = { d with fronds := d'.fronds } ∧
      (∀ u ∈ d.frondsOf k, Sparse.get 0 (d'.frond u).reports f = (stealableOf d f).length) ∧
      ∀ u, d'.frond u = { d.frond u with reports := (d'.frond u).reports } ∧ ∀ g, g ≠ f → Sparse.get 0 (d'.frond u).reports g = Sparse.get 0 (d.frond u).reports g) ∧
    (∃ d', Gives (.dieTotalReport k) s d' ∧ d' = { d with sched := { d.sched with totals := d'.sched.totals } } ∧
      ∀ i j, i < 8 → j < 8 → Sparse.get 0 d'.sched.totals (8 * i + j) =
        if j = k ∧ i ≠ k then ((d.frondsOf k).map fun u => Sparse.get 0 (d.frond u).reports u).sum else Sparse.get 0 d.sched.totals (8 * i + j)) ∧
    (d.frondOn f = true → F.withheld = false → d.dom f = .run → d.freeTiles f ≠ [] → (∀ x ∈ F.items, d.itemReady x = false) →
      (∃ r ∈ d.sched.runs, bitAt r.policy 0 = true ∧ r.det = false) → (F.thief = .none ∨ F.thief = .backoff) →
      (Largest (mates.filter fun u => decide (2 ≤ seen u)) seen v ∨
        ((∀ u ∈ mates, seen u < 2) ∧ d.rst.st = .ready ∧ ∃ j, Largest ((List.range 8).filter (· != k)) total j ∧
          Largest ((d.frondsOf j).filter fun u => u != f && !(d.frond u).withheld) (fun u => Sparse.get 0 (d.frond u).reports u) v)) →
      Gives (.stealRequest f) s ((d.bump 0x17 f 1).setFrond f { F with thief := .asked v })) ∧
    (d.frondOn f = true → F.withheld = false → d.dom f = .run → d.freeTiles f ≠ [] → (∀ x ∈ F.items, d.itemReady x = false) →
      (∃ r ∈ d.sched.runs, bitAt r.policy 0 = true ∧ r.det = false) → (F.thief = .none ∨ F.thief = .backoff) → (∀ u ∈ mates, seen u < 2) → d.rst.st ≠ .ready →
      Gives (.stealRequest f) s (d.setFrond f { F with thief := .backoff })) ∧
    (F.thief = .asked v → v ≠ f →
      let l := (stealableOf d v).filter fun x => bitAt (x.words.getD 0 0) (40 + k)
      let n := if F.withheld = true ∨ (d.frond v).withheld = true then 0 else min (min 8 (l.length / 2)) (1024 - F.items.length)
      let got := l.drop (l.length - n)
      (n = 0 → Gives (.stealAnswer f) s (d.setFrond f { F with thief := .backoff })) ∧
      (0 < n → ∃ d', Gives (.stealAnswer f) s d' ∧ (d'.frond f).items = F.items ++ got.map (fun x => { x with stolen := true }) ∧
        (d'.frond f).thief = .none ∧ (d'.frond v).items = (d.frond v).items.filter (fun x => !got.elem x) ∧
        (∀ u, u ≠ f → u ≠ v → d'.frond u = d.frond u) ∧ d'.counter 0x18 f = (d.counter 0x18 f).add n ∧
        d'.counter 0x19 f = (if v / 24 = k then d.counter 0x19 f else (d.counter 0x19 f).add n) ∧ d'.tiles = d.tiles ∧ d'.sched = d.sched))

namespace Sys2Proof.Claims

open Sys2Proof Sys2Proof.Machine

/-- A queue's entries after a commit of epoch e of sequence q (07 R180 steps 3 and 4): its tags cleared, and without KEEP the later epochs' entries gone. -/
def committed (q e : BitVec 16) (keep : Bool) (l : List QEntry) : List QEntry :=
  (l.filter fun y => !(!keep && y.tag.any (fun g => g.1 == q && decide (1 ≤ (g.2 - e).toNat) && decide ((g.2 - e).toNat ≤ 32767)))).map fun y =>
    if y.tag = some (q, e) then { y with tag := none } else y

/-- A queue's entries after a rejection of epoch e of sequence q (07 R181 step 1). -/
def rejected (q e : BitVec 16) (l : List QEntry) : List QEntry :=
  l.filter fun y => !y.tag.any (fun g => g.1 == q && (g.2 == e || (decide (1 ≤ (g.2 - e).toNat) && decide ((g.2 - e).toNat ≤ 32767))))

/-- Tokens of a commit as ring entries in host memory from slot first on, without wrap (07 R180 step 1). -/
def tokensAt (m : Mem) (a : Nat) (c : Commit) (len : BitVec 32) : Prop :=
  ∀ i, i < c.accept → m.num (a + 8 * i) 4 = (c.tokens.getD i 0).toNat ∧ m.num (a + 8 * i + 4) 2 = c.seq.toNat ∧
    m.num (a + 8 * i + 6) 2 = (len.toNat + i) % 2 ^ 16

end Sys2Proof.Claims

open Sys2Proof Sys2Proof.Machine Sys2Proof.Claims in
/-- 07 R178-R183: COMMIT_APPLY at the head of a RUN: a record of another epoch than EPOCH_C + 1 counts in SPEC_STALE and does nothing else; one without
ACCEPT rejects its epoch: EPOCH_C moves to e + 8, LEN stays, the epoch's and later ones' entries leave the RUN's queues; otherwise, with room in the ring,
its tokens enter the ring in host memory, LEN and EPOCH_C move on, tags are cleared, and PROD advances. Without room it waits, and CONS_RECHECK applies it
once CONS makes room. Premises: no speculative-class item waits at a frond, the RUN is not at its end, no operation is parked on its queues. -/
def Obligations.Commits : Prop :=
  ∀ (s : State) (r : Run) (c : Commit) (rest : List Commit) (z : RunSeq), r.q < 64 →
    let d := s.dev
    let n := r.ringEntries
    let used := (r.prod + 2 * n - r.cons) % (2 * n)
    let e := z.epochC + 1
    let popped := { r with commits := rest, waitRoom := false }
    RunIs d r → (∀ x ∈ d.sched.runs, x.q = r.q → x.tag = r.tag → x = r) → r.stopped = false → r.commits = c :: rest → r.ended < r.items.length →
    Sparse.wf HQueue.reset d.hqs = true → Sparse.wf Counter.zero d.ctrs = true → Mem.wf d.hostMem = true →
    (∀ g, (∀ x ∈ (d.frond g).items, itSpecc x.words = false) ∧ ∀ x ∈ (d.frond g).reserved, itSpecc x.item.words = false) → (∀ k ∈ r.queues, (d.hq k).parked = []) → r.queues.Nodup →
    (r.waitRoom = false → r.seqs[c.seq.toNat]? = none ∨ (∃ y, r.seqs[c.seq.toNat]? = some y ∧ c.epoch ≠ y.epochC + 1) →
      ∃ d', Acts (.commitApply r.q r.tag) s d' ∧ d'.runOf r.q r.tag = some popped ∧ d'.counter 0x16 0 = (d.counter 0x16 0).add 1 ∧
        d'.hqs = d.hqs ∧ d'.dram = d.dram ∧ d'.hostMem = d.hostMem ∧ d'.tiles = d.tiles) ∧
    (r.waitRoom = false → r.seqs[c.seq.toNat]? = some z → c.epoch = e → c.bad = true ∨ c.accept = 0 →
      ∃ d', Acts (.commitApply r.q r.tag) s d' ∧
        d'.runOf r.q r.tag = some { popped with
          seqs := r.seqs.set c.seq.toNat { z with epochC := e + 8 },
          specEnds := r.specEnds.filter fun y => !(y.1 == c.seq && Run.consumed { r with seqs := r.seqs.set c.seq.toNat { z with epochC := e + 8 } } y.1 y.2.1) } ∧
        (∀ k ∈ r.queues, (d'.hq k).entries = rejected c.seq e (d.hq k).entries) ∧ (∀ k, k ∉ r.queues → d'.hq k = d.hq k) ∧
        d'.counter 0x14 0 = (d.counter 0x14 0).add 1 ∧ d'.hostMem = d.hostMem) ∧
    (r.seqs[c.seq.toNat]? = some z → c.epoch = e → c.bad = false → 1 ≤ c.accept → c.accept ≤ 9 → isHost r.ringAddr = true → isHost r.prodAddr = true →
      0 < n → r.prod < 2 * n → r.cons < 2 * n →
      (r.waitRoom = false → n < used + c.accept → Acts (.commitApply r.q r.tag) s (withRun d { r with waitRoom := true })) ∧
      (r.waitRoom = false → used + c.accept ≤ n → r.prod % n + c.accept ≤ n → d.cxl.up = true → d.cxl.bme = true → d.cxl.d3 = false → r.specEnds = [] →
        hostAddr r.ringAddr + 8 * n ≤ hostAddr r.prodAddr ∨ hostAddr r.prodAddr + 4 ≤ hostAddr r.ringAddr → hostAddr r.ringAddr + 8 * n < 2 ^ 63 →
        n < 2 ^ 25 →
        ∃ d', Acts (.commitApply r.q r.tag) s d' ∧ tokensAt d'.hostMem (hostAddr r.ringAddr + 8 * (r.prod % n)) c z.len ∧
          d'.hostMem.num (hostAddr r.prodAddr) 4 = (r.prod + c.accept) % (2 * n) ∧
          d'.runOf r.q r.tag = some { popped with
            prod := (r.prod + c.accept) % (2 * n),
            seqs := r.seqs.set c.seq.toNat { z with len := z.len + BitVec.ofNat 32 c.accept, epochC := if c.keep then e else e + 8 } } ∧
          (∀ k ∈ r.queues, (d'.hq k).entries = committed c.seq e c.keep (d.hq k).entries) ∧ (∀ k, k ∉ r.queues → d'.hq k = d.hq k) ∧
          d'.counter 0x13 0 = (d.counter 0x13 0).add 1 ∧ d'.counter 0x15 0 = (d.counter 0x15 0).add c.accept)) ∧
    (r.waitRoom = true → ∀ v, d.readCons r = (some v, d) →
      ∃ d', Acts (.consRecheck r.q r.tag) s d' ∧ Acts (.commitApply r.q r.tag) { s with dev := withRun d { r with waitRoom := false, cons := v } } d')

namespace Sys2Proof.Claims

open Sys2Proof Sys2Proof.Machine

/-- Command c has been fetched and starts: it is of opcode op, has not started, is not held back by ORDER, and its opcode is served in the device's state
(08 R197, R201, R204). -/
structure Starts (d : Device) (op : Nat) (c : Cmd) : Prop where
  queue : c.q < 64
  fetched : d.cmdOf c.q c.tag.toNat = some c
  opcode : c.op.toNat = op
  queued : c.st = .queued
  inOrder : c.order = true → d.earlierDone c = true
  served : opServed d.rst.st op = true

/-- Every parameter bit outside the masks of P1, P2, … is 0: no reserved bit is set (08 R197; 00 R12). -/
def Plain (c : Cmd) (masks : List Word) : Prop := ∀ i, i < 7 → c.pw (i + 1) &&& ~~~(masks.getD i 0) = 0

/-- The bits an address in the form of 08 R192 may set: all in host memory, the lower 44 otherwise. -/
def addrMask (a : Word) : Word := if bitAt a 63 then 0xFFFFFFFFFFFFFFFF else 0x00000FFFFFFFFFFF

/-- A command's buffer is written at address a, named by the parameter at byte off, and the command completes with p; what the write meets instead is
its status (08 R192, R204). -/
def Outputs (i : Instr) (s : State) (d : Device) (c : Cmd) (off : Nat) (a : Word) (l : List Byte) (p : Cpl) : Prop :=
  (d.farRange a l.length = true → Acts i s (d.finish c (cplOf .notReady))) ∧
  (d.farRange a l.length = false → ∀ st d', d.addrWrite 2 a l = (st, d') →
    Acts i s (d'.finish c (if st = .success then p else if st = .invalidParam then cplBad off else cplOf st)))

/-- One row of the host commands: its queue and tag, its opcode, and for the rows of one opcode where OP lies (parameter word, lowest bit, width) and
its value. -/
def hostRow : Instr → Option (Nat × Nat × Nat × Option (Nat × Nat × Nat × Nat))
  | .nop q g => some (q, g, 0x00, none) | .identify q g => some (q, g, 0x01, none) | .getStatus q g => some (q, g, 0x02, none)
  | .setPowerPolicy q g => some (q, g, 0x03, none) | .resetWarm q g => some (q, g, 0x04, none)
  | .setQueueCreate q g => some (q, g, 0x05, some (1, 0, 2, 0)) | .setQueueDelete q g => some (q, g, 0x05, some (1, 0, 2, 1))
  | .setQueueWeights q g => some (q, g, 0x05, some (1, 0, 2, 2)) | .getCounters q g => some (q, g, 0x06, none)
  | .clearCounters q g => some (q, g, 0x07, none) | .getAvailability q g => some (q, g, 0x08, none) | .setEventMask q g => some (q, g, 0x09, none)
  | .copy q g => some (q, g, 0x10, none) | .fill q g => some (q, g, 0x11, none) | .biasSet q g => some (q, g, 0x12, none)
  | .cacheInvalidate q g => some (q, g, 0x13, none) | .loadProgram q g => some (q, g, 0x20, none) | .run q g => some (q, g, 0x21, none)
  | .abort q g => some (q, g, 0x22, none) | .queryRun q g => some (q, g, 0x23, none) | .setSchedPolicy q g => some (q, g, 0x24, none)
  | .fabricLoad q g => some (q, g, 0x30, none) | .patchLoad q g => some (q, g, 0x31, none) | .patchClear q g => some (q, g, 0x32, none)
  | .capture q g => some (q, g, 0x33, none) | .readback q g => some (q, g, 0x34, none) | .scrubSetPeriod q g => some (q, g, 0x35, some (1, 0, 2, 0))
  | .scrubPause q g => some (q, g, 0x35, some (1, 0, 2, 1)) | .scrubResume q g => some (q, g, 0x35, some (1, 0, 2, 2))
  | .scrubRebuild q g => some (q, g, 0x35, some (1, 0, 2, 3)) | .gpioRead q g => some (q, g, 0x36, some (2, 0, 1, 0))
  | .gpioReleaseKeepers q g => some (q, g, 0x36, some (2, 0, 1, 1)) | .linkDisable q g => some (q, g, 0x40, some (2, 0, 3, 0))
  | .linkEnableTrain q g => some (q, g, 0x40, some (2, 0, 3, 1)) | .linkRetrain q g => some (q, g, 0x40, some (2, 0, 3, 2))
  | .linkAllowLowPower q g => some (q, g, 0x40, some (2, 0, 3, 3)) | .linkHoldRun q g => some (q, g, 0x40, some (2, 0, 3, 4))
  | .linkStatus q g => some (q, g, 0x41, none) | .routeSet q g => some (q, g, 0x42, none) | .collectiveSetup q g => some (q, g, 0x43, none)
  | .attest q g => some (q, g, 0x50, none) | .getMeasurements q g => some (q, g, 0x51, none) | .getCert q g => some (q, g, 0x52, none)
  | .fwStage q g => some (q, g, 0x53, none) | .fwActivate q g => some (q, g, 0x54, none) | .debugChallenge q g => some (q, g, 0x55, some (1, 0, 1, 0))
  | .debugResponse q g => some (q, g, 0x55, some (1, 0, 1, 1)) | .diagRead q g => some (q, g, 0x60, none) | .mcThaw q g => some (q, g, 0x61, none)
  | .traceStart q g => some (q, g, 0x62, some (1, 0, 1, 1)) | .traceStop q g => some (q, g, 0x62, some (1, 0, 1, 0))
  | .bistRun q g _ => some (q, g, 0x63, none)
  | _ => none

/-- The command carries this row's OP. -/
def opFits (c : Cmd) : Option (Nat × Nat × Nat × Nat) → Prop
  | none => True
  | some (w, lo, n, v) => fld (c.pw w) lo n = v

/-- Where an opcode is not served: the table of 08 R204, by STATE 0 to 4. -/
def notServed (op st : Nat) : Prop :=
  (op ∈ [0x03, 0x04, 0x07] ∧ st ∉ [2, 3]) ∨ (op ∈ [0x10, 0x11, 0x12, 0x13, 0x20, 0x21, 0x22, 0x23, 0x24] ∧ st ∉ [2, 3]) ∨
  (op ∈ [0x30, 0x31, 0x32, 0x33, 0x34, 0x35, 0x36, 0x40, 0x41, 0x42, 0x43] ∧ st ≠ 3) ∨ (op ∈ [0x53, 0x54, 0x55] ∧ st ∉ [3, 4])

end Sys2Proof.Claims

open Sys2Proof Sys2Proof.Machine Sys2Proof.Claims in
/-- 08 R197, R200, R204: every host command waits while it is not in the in-flight table, has another opcode or OP, has started, or has ORDER set
behind a command of its queue that is not DONE; one whose opcode is not served in the state completes NOT_READY; and an unused
word that is not 0 completes NOP with INVALID_PARAM, its DETAIL the first byte of that field, the first such word of the entry (log entry 53). -/
def Obligations.CommandChecks : Prop :=
  ∀ (s : State) (i : Instr) (q g op : Nat) (o : Option (Nat × Nat × Nat × Nat)), hostRow i = some (q, g, op, o) → q < 64 →
    let d := s.dev
    (d.cmdOf q g = none → Acts i s d) ∧
    (∀ c, d.cmdOf q g = some c →
      (c.op.toNat ≠ op → Acts i s d) ∧ (¬opFits c o → Acts i s d) ∧ (c.st ≠ .queued → Acts i s d) ∧
      (c.order = true → (∃ pre e post, d.host.inflight = pre ++ e :: post ∧ e.q = q ∧ (∀ x ∈ pre, (x.q, x.tag.toNat) ≠ (q, g)) ∧ e.tag.toNat ≠ g) → Acts i s d) ∧
      (c.op.toNat = op → opFits c o → c.st = .queued → (c.order = true → d.earlierDone c = true) → notServed op d.rst.st.code →
        ∃ p : Cpl, Acts i s (d.complete q g p) ∧ p.status = .notReady ∧ p.detail = 0 ∧ p.r1 = 0 ∧ p.r2 = 0 ∧
          p.r0 = if op = 0x21 then BitVec.ofNat 64 (0xFFFFFFFF * 2 ^ 32) else 0)) ∧
    (∀ c w, Starts d 0x00 c → w < 7 → (∀ j, j < w → c.pw (j + 1) = 0) → c.pw (w + 1) ≠ 0 →
      Acts (.nop c.q c.tag.toNat) s (d.finish c (cplBad (8 + 8 * w))))

open Sys2Proof Sys2Proof.Machine Sys2Proof.Claims in
/-- 07 R171, 08 R205-R210, R213, R222: NOP, IDENTIFY, GET_STATUS, GET_AVAILABILITY, QUERY_RUN, SET_EVENT_MASK, SET_SCHED_POLICY and SET_POWER_POLICY: what each
writes, changes and answers. A V bit of 0 leaves a power setting; T_DAMP above T_DRY, W above 1,024 and a CAP outside its range name their word. -/
def Obligations.InformationCommands : Prop :=
  ∀ (s : State) (c : Cmd),
    let d := s.dev
    let g := c.tag.toNat
    let derated := if d.tilesAvail < d.variant.tiles then Status.successDerated else .success
    (Starts d 0x00 c → Plain c [] → Acts (.nop c.q g) s (d.finish c (cpl .success 0 0 0))) ∧
    (Starts d 0x01 c → Plain c [addrMask (c.pw 1)] → Outputs (.identify c.q g) s d c 8 (c.pw 1) d.identify ⟨derated, 0, d.identifyWord, 0, 0⟩) ∧
    d.identify.length = 4096 ∧ leAt d.identify 0 8 = d.idDevice.toNat ∧ leAt d.identify 8 8 = d.fuses.serial.toNat ∧ leAt d.identify 16 8 = d.idRev.toNat ∧
    leAt d.identify 24 8 = d.identifyWord.toNat ∧ leAt d.identify 32 8 = d.variant.dram ∧ leAt d.identify 56 8 = d.svc ∧
    (Starts d 0x02 c → Plain c [] → ∃ p, Acts (.getStatus c.q g) s (d.finish c p) ∧ p.status = .success ∧ p.detail = 0 ∧ p.r0 = d.devStatus ∧
      p.r2 = BitVec.ofNat 64 (d.rstCause.toNat % 2 ^ 16) ∧ fld p.r1 0 16 = d.pwr.watts % 65536) ∧
    (Starts d 0x08 c → Plain c [addrMask (c.pw 1)] → ∃ p, Outputs (.getAvailability c.q g) s d c 8 (c.pw 1) d.availMap p ∧ p.status = derated ∧
      p.detail = 0 ∧ p.r1 = 0 ∧ p.r2 = 0 ∧ fld p.r0 0 12 = d.tilesAvail % 4096 ∧ fld p.r0 32 16 = d.fuses.linkEn.toNat) ∧
    (Starts d 0x23 c → Plain c [0xFFFF003F] →
      (d.cmdOf (fld (c.pw 1) 0 6) (fld (c.pw 1) 16 16) = none → Acts (.queryRun c.q g) s (d.finish c (cplOf .alreadyComplete))) ∧
      (∀ x, d.cmdOf (fld (c.pw 1) 0 6) (fld (c.pw 1) 16 16) = some x → ∃ p, Acts (.queryRun c.q g) s (d.finish c p) ∧ p.status = .success ∧
        p.r0 = (match x.st with | .queued => 0 | .running => 1 | .completing => 2) ∧
        (d.runOf (fld (c.pw 1) 0 6) (fld (c.pw 1) 16 16) = none → fld p.r1 0 32 = x.counts.1 % 2 ^ 32 ∧ fld p.r1 32 32 = x.counts.2 % 2 ^ 32) ∧
        ∀ r, d.runOf (fld (c.pw 1) 0 6) (fld (c.pw 1) 16 16) = some r → fld p.r1 0 32 = r.dispatched % 2 ^ 32 ∧ fld p.r1 32 32 = r.ended % 2 ^ 32)) ∧
    (Starts d 0x09 c → Plain c [0xFFFFFFFFFFFFFFFF] →
      Acts (.setEventMask c.q g) s
        (({ d with host := { d.host with mask := c.pw 1 ||| 0x0000010004000100 } }).finish c (cpl .success (d.host.mask ||| 0x0000010004000100) 0 0))) ∧
    (Starts d 0x24 c → Plain c [3] →
      Acts (.setSchedPolicy c.q g) s
        (({ d with sched := { d.sched with policy := BitVec.ofNat 2 (fld (c.pw 1) 0 2) } }).finish c
          (cpl .success (BitVec.ofNat 64 d.sched.policy.toNat) 0 0))) ∧
    (Starts d 0x03 c → Plain c [0x80FFFFFF00FFFFFF, 0x8000000000000FFF, 0x800000000000FFFF] →
      let vt := bitAt (c.pw 1) 63
      let vb := bitAt (c.pw 2) 63
      let vc := bitAt (c.pw 3) 63
      let damp := fld (c.pw 1) 0 24
      let dry := fld (c.pw 1) 32 24
      let capBad := vc = true ∧ fld (c.pw 3) 0 16 ≠ 0 ∧ (fld (c.pw 3) 0 16 < 400 ∨ d.variant.power < fld (c.pw 3) 0 16)
      (vt = true → dry < damp → Acts (.setPowerPolicy c.q g) s (d.finish c (cplBad 8))) ∧
      ((vt = true → damp ≤ dry) → vb = true → 1024 < fld (c.pw 2) 0 11 → Acts (.setPowerPolicy c.q g) s (d.finish c (cplBad 16))) ∧
      ((vt = true → damp ≤ dry) → (vb = true → fld (c.pw 2) 0 11 ≤ 1024) → capBad → Acts (.setPowerPolicy c.q g) s (d.finish c (cplBad 24))) ∧
      ((vt = true → damp ≤ dry) → (vb = true → fld (c.pw 2) 0 11 ≤ 1024) → ¬capBad →
        let p := { d.pwr with
          tDamp := if vt then BitVec.ofNat 24 damp else d.pwr.tDamp
          tDry := if vt then BitVec.ofNat 24 dry else d.pwr.tDry
          window := if vb then BitVec.ofNat 11 (fld (c.pw 2) 0 11) else d.pwr.window
          lead := if vb then bitAt (c.pw 2) 11 else d.pwr.lead
          cap := if vc then BitVec.ofNat 16 (fld (c.pw 3) 0 16) else d.pwr.cap }
        ∃ r : Cpl, Acts (.setPowerPolicy c.q g) s (({ d with pwr := p }).finish c r) ∧ r.status = .success ∧
          fld r.r0 0 24 = p.tDamp.toNat ∧ fld r.r0 32 24 = p.tDry.toNat ∧ bitAt r.r0 63 = true ∧ fld r.r1 0 11 = p.window.toNat ∧
          bitAt r.r1 11 = p.lead ∧ fld r.r2 0 16 = p.cap.toNat))

namespace Sys2Proof.Claims

open Sys2Proof Sys2Proof.Machine

/-- A ring's base passes the check of 08 R193: 4 KiB aligned, in host memory or populated DRAM. -/
def GoodBase (d : Device) (a : Word) : Prop :=
  fld a 0 12 = 0 ∧ (bitAt a 63 = true ∨ (bitAt a 63 = false ∧ fld a 44 19 = 0 ∧ d.dramRange (fld a 0 44) 1 = true))

/-- A Q_CFG image passes the checks of 08 R193: neither size field is 0, and COAL_TIME is not 0 where COAL_COUNT is above 1. -/
def GoodCfg (w : Word) : Prop := fld w 0 12 ≠ 0 ∧ fld w 16 12 ≠ 0 ∧ (1 < fld w 40 8 → fld w 28 12 ≠ 0)

/-- A queue that has just become ACTIVE under a Q_CFG image, its rings empty (08 R193). -/
def freshQueue (x : HostQueue) (w time : Word) : HostQueue :=
  { x with
    vector := BitVec.ofNat 6 (fld w 50 6), ien := bitAt w 49, coalCount := BitVec.ofNat 8 (fld w 40 8), coalTime := BitVec.ofNat 12 (fld w 28 12)
    cqSize := BitVec.ofNat 12 (fld w 16 12), sqSize := BitVec.ofNat 12 (fld w 0 12), enable := true, st := .active, error := 0
    sqHead := 0, cqTail := 0, cqPhase := true, sqTail := 0, cqHead := 0, coalPosted := 0, tf := time, hint := 0 }

end Sys2Proof.Claims

open Sys2Proof Sys2Proof.Machine Sys2Proof.Claims in
/-- 08 R193, R202, R205, R219, R220: SET_QUEUE creates, deletes and weighs queues, and its refusals; GET_COUNTERS writes the counters of its selection, and
CLEAR_COUNTERS sets exactly those to zero. Premise: the counter table is canonical (CanonicalTables). A deleted queue's registers read as after reset:
the model's choice (log entry 62). -/
def Obligations.QueueAndCounterCommands : Prop :=
  ∀ (s : State) (c : Cmd),
    let d := s.dev
    let g := c.tag.toNat
    let n := fld (c.pw 1) 8 6
    let x := d.queue n
    (Starts d 0x05 c → fld (c.pw 1) 0 2 = 0 → Plain c [0x3F03, 0xFFFFFFFFFFFFFFFF, 0xFFFFFFFFFFFFFFFF, 0xFFFFFFFFFFFFFFFF] →
      (n = 0 → Acts (.setQueueCreate c.q g) s (d.finish c (cplBad 9))) ∧
      (n ≠ 0 → x.st ≠ .disabled → Acts (.setQueueCreate c.q g) s (d.finish c (cpl .busy x.stateWord 0 0))) ∧
      (n ≠ 0 → x.st = .disabled →
        (¬GoodBase d (c.pw 2) → Acts (.setQueueCreate c.q g) s (d.finish c (cplBad 16))) ∧
        (GoodBase d (c.pw 2) → ¬GoodBase d (c.pw 3) → Acts (.setQueueCreate c.q g) s (d.finish c (cplBad 24))) ∧
        (GoodBase d (c.pw 2) → GoodBase d (c.pw 3) →
          (c.pw 4 &&& ~~~0x83FEFFFFFFFF0FFF ≠ 0 ∨ fld (c.pw 4) 56 2 = 3 ∨ ¬GoodCfg (c.pw 4) → Acts (.setQueueCreate c.q g) s (d.finish c (cplBad 32))) ∧
          (c.pw 4 &&& ~~~0x83FEFFFFFFFF0FFF = 0 → fld (c.pw 4) 56 2 ≠ 3 → GoodCfg (c.pw 4) →
            let y := { freshQueue x (c.pw 4) (d.time 0) with sqBase := c.pw 2, cqBase := c.pw 3, cls := BitVec.ofNat 2 (fld (c.pw 4) 56 2) }
            Acts (.setQueueCreate c.q g) s ((d.setQueue n y).finish c (cpl .success y.stateWord 0 0)))))) ∧
    (Starts d 0x05 c → fld (c.pw 1) 0 2 = 1 → Plain c [0x3F03] →
      (n = 0 → Acts (.setQueueDelete c.q g) s (d.finish c (cplBad 9))) ∧
      (n ≠ 0 → ∀ pre e post, d.host.inflight = pre ++ e :: post → e.q = n → (∀ y ∈ pre, y.q ≠ n) →
        Acts (.setQueueDelete c.q g) s (d.finish c { cpl .busy x.stateWord 0 0 with detail := e.tag })) ∧
      (n ≠ 0 → (∀ y ∈ d.host.inflight, y.q ≠ n) →
        Acts (.setQueueDelete c.q g) s ((d.setQueue n HostQueue.reset).finish c (cpl .success HostQueue.reset.stateWord 0 0)))) ∧
    (Starts d 0x05 c → fld (c.pw 1) 0 2 = 2 → Plain c [0x3F03, 0xFFFFFF] →
      (n ≠ 0 → Acts (.setQueueWeights c.q g) s (d.finish c (cplBad 9))) ∧
      (n = 0 → ∀ i, i < 3 → fld (c.pw 2) (8 * i) 8 = 0 → (∀ j, j < i → fld (c.pw 2) (8 * j) 8 ≠ 0) →
        Acts (.setQueueWeights c.q g) s (d.finish c (cplBad (16 + i)))) ∧
      (n = 0 → (∀ i, i < 3 → fld (c.pw 2) (8 * i) 8 ≠ 0) →
        Acts (.setQueueWeights c.q g) s
          (({ d with host := { d.host with
              wh := BitVec.ofNat 8 (fld (c.pw 2) 0 8), wm := BitVec.ofNat 8 (fld (c.pw 2) 8 8), wl := BitVec.ofNat 8 (fld (c.pw 2) 16 8) } }).finish c
            (cpl .success (BitVec.ofNat 64 (fld (c.pw 2) 0 24)) 0 0)))) ∧
    (let lo := fld (c.pw 2) 0 12
     let k := fld (c.pw 2) 16 12
     let scope := fld (c.pw 3) 0 2
     let unit := fld (c.pw 3) 16 16
     let far := d.rst.st = .fiddlehead ∧ scope = 1 ∧ unit ≠ 0
     (∀ off, ctrBad lo k scope unit = some off →
       (Starts d 0x06 c → Plain c [addrMask (c.pw 1), 0x0FFF0FFF, 0xFFFF0003] → Acts (.getCounters c.q g) s (d.finish c (cplBad off))) ∧
       (Starts d 0x07 c → Plain c [0, 0x0FFF0FFF, 0xFFFF0003] → Acts (.clearCounters c.q g) s (d.finish c (cplBad off)))) ∧
     (ctrBad lo k scope unit = none → 1 ≤ k ∧ k ≤ 512 ∧ lo + k ≤ 4096 ∧ scope ≠ 3) ∧
     (ctrBad lo k scope unit = none → far →
       (Starts d 0x06 c → Plain c [addrMask (c.pw 1), 0x0FFF0FFF, 0xFFFF0003] → Acts (.getCounters c.q g) s (d.finish c (cplOf .notReady))) ∧
       (Starts d 0x07 c → Plain c [0, 0x0FFF0FFF, 0xFFFF0003] → Acts (.clearCounters c.q g) s (d.finish c (cplOf .notReady)))) ∧
     (ctrBad lo k scope unit = none → ¬far → Sparse.wf Counter.zero d.ctrs = true →
       (Starts d 0x06 c → Plain c [addrMask (c.pw 1), 0x0FFF0FFF, 0xFFFF0003] → ∃ l, l.length = 8 * k ∧
         (∀ i, i < k → leAt l (8 * i) 8 = (d.ctrWord (lo + i) scope unit).toNat) ∧
         Outputs (.getCounters c.q g) s d c 8 (c.pw 1) l (cpl .success (BitVec.ofNat 64 k) 0 0)) ∧
       (Starts d 0x07 c → Plain c [0, 0x0FFF0FFF, 0xFFFF0003] →
         ∃ d' : Device, Acts (.clearCounters c.q g) s (d'.finish c (cpl .success 0 0 0)) ∧ d' = { d with ctrs := d'.ctrs } ∧
           ∀ i u, u < 65536 → d'.counter i u =
             if lo ≤ i ∧ i < lo + k ∧ (∃ y, ctrKind i = some y ∧ u ∈ scopeUnits y scope unit) then Counter.zero else d.counter i u)))

open Sys2Proof Sys2Proof.Machine Sys2Proof.Claims in
/-- 07 R186, 08 R193, R195, R198, R212, R228, 15 R384: how a command completes: it leaves the in-flight table, its 32-byte entry is written at CQ_TAIL with the
phase bit, the tail advances and the phase inverts at the wrap, and the entry counts; the vector is signalled as coalescing says, and not at all with NOINT.
Nothing is written for a command whose queue was disabled (discarded), or over a lost link; with bus mastering off the completion is held. -/
def Obligations.CompletionPosted : Prop :=
  ∀ (c : Cmd) (p : Cpl) (d : Device), d.cmdOf c.q c.tag.toNat = some c → c.q < 64 →
    Sparse.wf HostQueue.reset d.host.queues = true → Sparse.wf Counter.zero d.ctrs = true →
    let x := d.queue c.q
    let host := bitAt x.cqBase 63
    let out := d.host.inflight.filter fun e => !(e.q == c.q && e.tag.toNat == c.tag.toNat)
    let entry := leBytes 2 c.tag.toNat ++ leBytes 1 p.status.code ++ leBytes 1 (b2n x.cqPhase) ++ leBytes 2 x.sqHead.toNat ++ leBytes 2 p.detail.toNat ++
      leBytes 8 p.r0.toNat ++ leBytes 8 p.r1.toNat ++ leBytes 8 p.r2.toNat
    (c.discard = true → (d.finish c p).host.inflight = out ∧ (d.finish c p).hostMem = d.hostMem ∧ (d.finish c p).dram = d.dram ∧
      (d.finish c p).host.queues = d.host.queues) ∧
    (c.discard = false → host = true → d.cxl.up = false → (d.finish c p).host.inflight = out ∧ (d.finish c p).hostMem = d.hostMem ∧
      (d.finish c p).host.queues = d.host.queues ∧ (d.finish c p).counter 4 0 = (d.counter 4 0).add 1) ∧
    (c.discard = false → host = true → d.cxl.up = true → (d.cxl.bme = false ∨ d.cxl.d3 = true) → (d.finish c p).hostMem = d.hostMem ∧
      (d.finish c p).cmdOf c.q c.tag.toNat = some { c with st := .completing, held := some p } ∧ some (c.q, c.tag.toNat) ∈ (d.finish c p).host.heldOrder) ∧
    (c.discard = false → (host = true → d.cxl.up = true ∧ d.cxl.bme = true ∧ d.cxl.d3 = false) →
      let d' := d.finish c p
      let y := d'.queue c.q
      let sends := x.ien = true ∧ bitAt d.host.msix.unmasked x.vector.toNat = true ∧ d.cxl.up = true ∧ d.cxl.bme = true ∧ d.cxl.d3 = false ∧
        d.cxl.msixEn = true ∧ d.cxl.msixMask = false
      d'.host.inflight = out ∧ d'.tiles = d.tiles ∧
      (host = true → d'.hostMem = d.hostMem.write (fld x.cqBase 0 63 + 32 * x.cqTail.toNat) entry ∧ d'.dram = d.dram) ∧
      (host = false → d'.hostMem = d.hostMem ∧ d'.dram = (d.dramWrite (fld x.cqBase 0 44 + 32 * x.cqTail.toNat) entry).2.dram) ∧
      y.cqTail = (if x.cqTail = x.cqSize then 0 else x.cqTail + 1) ∧ y.cqPhase = (if x.cqTail = x.cqSize then !x.cqPhase else x.cqPhase) ∧
      y.sqHead = x.sqHead ∧ y.cqHead = x.cqHead ∧ y.st = x.st ∧ d'.counter 0 c.q = (d.counter 0 c.q).add 1 ∧
      d'.counter 1 c.q = (if 3 ≤ p.status.code then (d.counter 1 c.q).add 1 else d.counter 1 c.q) ∧
      (∀ q, q ≠ c.q → d'.queue q = d.queue q) ∧
      (c.noint = true → y.coalPosted = x.coalPosted ∧ d'.host.msix = d.host.msix) ∧
      (c.noint = false → x.coalPosted + 1 < max 1 x.coalCount.toNat → y.coalPosted = x.coalPosted + 1 ∧ d'.host.msix = d.host.msix) ∧
      (c.noint = false → max 1 x.coalCount.toNat ≤ x.coalPosted + 1 → y.coalPosted = 0 ∧
        (x.ien = false → d'.host.msix = d.host.msix) ∧
        (x.ien = true → ¬sends → bitAt d'.host.msix.pba x.vector.toNat = true ∧ d'.host.msix.sent = d.host.msix.sent) ∧
        (sends → ∃ a v, d'.host.msix.sent = (x.vector.toNat, a, v) :: d.host.msix.sent ∧ bitAt d'.host.msix.pba x.vector.toNat = false)))

namespace Sys2Proof.Claims

open Sys2Proof Sys2Proof.Machine

/-- Byte i of what an address in the form of 08 R192 names. -/
def byteAt (d : Device) (a : Word) (i : Nat) : Byte := if bitAt a 63 then d.hostMem.byte (fld a 0 63 + i) else d.dram.byte (fld a 0 44 + i)

/-- n bytes of DRAM from internal address a lie in populated DRAM whose controllers are trained and not frozen. -/
def Served (d : Device) (a n : Nat) : Prop :=
  d.dramRange a n = true ∧ ∀ c, a / 64 ≤ c → c < (a + n) / 64 → d.cwServed c = true ∧ (d.mc (d.cwLoc c).mc).st ≠ .frozen

/-- n bytes at an address can be read without error: host memory the port may read (15 R382, R384), or served DRAM none of whose codewords is poisoned (08 R209). -/
def Readable (d : Device) (a : Word) (n : Nat) : Prop :=
  if bitAt a 63 then d.hostReadable = true ∧ fld a 0 63 + n ≤ 2 ^ 63
  else Served d (fld a 0 44) n ∧ ∀ c, fld a 0 44 / 64 ≤ c → c < (fld a 0 44 + n) / 64 → (d.drainCw c).cwPoison c = false

/-- n bytes at an address can be written: host memory while writes to it may be sent, or served DRAM. -/
def Writable (d : Device) (a : Word) (n : Nat) : Prop := if bitAt a 63 then d.hostUp = true ∧ fld a 0 63 + n ≤ 2 ^ 63 else Served d (fld a 0 44) n

/-- Byte x is not among the n bytes at an address; host says whether it is one of host memory or of DRAM. -/
def Outside (a : Word) (n x : Nat) (host : Bool) : Prop :=
  bitAt a 63 ≠ host ∨ x < (if host then fld a 0 63 else fld a 0 44) ∨ (if host then fld a 0 63 else fld a 0 44) + n ≤ x

/-- The tables the memory commands use are canonical, and every buffered write holds a whole codeword's bytes (CanonicalTables). -/
def MemTables (d : Device) : Prop :=
  d.dram.wf = true ∧ d.side.wf = true ∧ d.hostMem.wf = true ∧ Sparse.wf MemCtl.reset d.mcs = true ∧
    ∀ m, Sparse.wf Channel.reset (d.mc m).ch = true ∧ ∀ ci, ∀ e ∈ ((d.mc m).chan ci).wbuf, e.data.length = 64

end Sys2Proof.Claims

open Sys2Proof Sys2Proof.Machine Sys2Proof.Claims in
/-- 08 R209, 15 R395: COPY moves LENGTH bytes between host memory and DRAM, or within DRAM, and FILL writes its pattern, each in 64-byte lines; nothing outside the
destination changes, but that buffered writes to what is read reach the DRAM first. Lines of host-bias pages among them are touched, and wait (15 R389). A misaligned or empty range names its parameter. Overlapping ranges
and failing lines are not covered here. -/
def Obligations.CopyAndFill : Prop :=
  ∀ (s : State) (c : Cmd),
    let d := s.dev
    let g := c.tag.toNat
    MemTables d →
    (Starts d 0x10 c → Plain c [addrMask (c.pw 1), addrMask (c.pw 2), 0x000000FFFFFFFFFF] →
      let src := c.pw 1
      let dst := c.pw 2
      let n := fld (c.pw 3) 0 40
      (fld src 0 6 ≠ 0 → Acts (.copy c.q g) s (d.finish c (cplBad 8))) ∧
      (fld src 0 6 = 0 → fld dst 0 6 ≠ 0 ∨ (bitAt src 63 = true ∧ bitAt dst 63 = true) → Acts (.copy c.q g) s (d.finish c (cplBad 16))) ∧
      (fld src 0 6 = 0 → fld dst 0 6 = 0 → ¬(bitAt src 63 = true ∧ bitAt dst 63 = true) → n % 64 ≠ 0 ∨ n = 0 →
        Acts (.copy c.q g) s (d.finish c (cplBad 24))) ∧
      (fld src 0 6 = 0 → fld dst 0 6 = 0 → ¬(bitAt src 63 = true ∧ bitAt dst 63 = true) → n % 64 = 0 → n ≠ 0 →
        d.farRange src n = true ∨ d.farRange dst n = true → Acts (.copy c.q g) s (d.finish c (cplOf .notReady))) ∧
      (fld src 0 6 = 0 → fld dst 0 6 = 0 → ¬(bitAt src 63 = true ∧ bitAt dst 63 = true) → n % 64 = 0 → n ≠ 0 →
        d.farRange src n = false → d.farRange dst n = false → Readable d src n → Writable d dst n →
        (bitAt src 63 = false → bitAt dst 63 = false → fld src 0 44 + n ≤ fld dst 0 44 ∨ fld dst 0 44 + n ≤ fld src 0 44) →
        ∃ d' : Device, Acts (.copy c.q g) s (d'.finish c (cpl .success (BitVec.ofNat 64 n) 0 0)) ∧
          (∀ i, i < n → byteAt d' dst i = byteAt d' src i) ∧
          (∀ x, Outside dst n x true → d'.hostMem.byte x = d.hostMem.byte x) ∧
          (∀ x, Outside dst n x false → Outside src n x false → d'.dram.byte x = d.dram.byte x) ∧
          d'.tiles = d.tiles ∧ d'.fronds = d.fronds ∧ d'.host = d.host ∧ d'.sched = d.sched ∧ d'.free = d.free ∧
          d'.cxl = { d.cxl with touched := d'.cxl.touched } ∧ (d.hostCaches = false → d'.cxl = d.cxl))) ∧
    (Starts d 0x11 c → Plain c [0x00000FFFFFFFFFFF, 0x000000FFFFFFFFFF, 0xFFFFFFFFFFFFFFFF] →
      let dst := c.pw 1
      let n := fld (c.pw 2) 0 40
      (fld dst 0 6 ≠ 0 → Acts (.fill c.q g) s (d.finish c (cplBad 8))) ∧
      (fld dst 0 6 = 0 → n % 64 ≠ 0 ∨ n = 0 → Acts (.fill c.q g) s (d.finish c (cplBad 16))) ∧
      (fld dst 0 6 = 0 → n % 64 = 0 → n ≠ 0 → d.farRange dst n = true → Acts (.fill c.q g) s (d.finish c (cplOf .notReady))) ∧
      (fld dst 0 6 = 0 → n % 64 = 0 → n ≠ 0 → d.farRange dst n = false → Writable d dst n →
        ∃ d' : Device, Acts (.fill c.q g) s (d'.finish c (cpl .success (BitVec.ofNat 64 n) 0 0)) ∧
          (∀ i, i < n → byteAt d' dst i = BitVec.ofNat 8 ((c.pw 3).toNat >>> (8 * (i % 8)))) ∧
          (∀ x, Outside dst n x false → d'.dram.byte x = d.dram.byte x) ∧ d'.hostMem = d.hostMem ∧
          d'.tiles = d.tiles ∧ d'.fronds = d.fronds ∧ d'.host = d.host ∧ d'.sched = d.sched ∧ d'.free = d.free ∧
          d'.cxl = { d.cxl with touched := d'.cxl.touched } ∧ (d.hostCaches = false → d'.cxl = d.cxl)))

open Sys2Proof Sys2Proof.Machine Sys2Proof.Claims in
/-- 06 R148, 08 R209, 15 R389, R390: an act that touches no host-bias line is done; one that touches lines which the port has resolved is done and uses them up;
any other waits, nothing of it is done, and the port asks for what is missing. BIAS_SET gives every page of its range host bias, and no other page; device
bias too where the host can hold no copy, and otherwise it starts asking for its lines. CACHE_INVALIDATE drops the lines of its range, or all lines
with LENGTH 0, from the weight caches of the fronds of the named dies, keeps fills of it, pending or begun meanwhile, from being installed, and waits for the pending ones. Premise: the
frond table is canonical (CanonicalTables). -/
def Obligations.BiasAndInvalidate : Prop :=
  (∀ (old new : Device),
    let t := new.cxl.touched
    (t = [] → old.settled new = new) ∧
    (t ≠ [] → (∀ x ∈ t, x ∈ new.cxl.owned) → ∃ l, old.settled new = { new with cxl := { new.cxl with touched := [], owned := l } } ∧
      ∀ x, x ∈ l ↔ x ∈ new.cxl.owned ∧ x ∉ t) ∧
    ((∃ x ∈ t, x ∉ new.cxl.owned) → ∃ l, old.settled new = { old with cxl := { old.cxl with asked := l } } ∧
      ∀ x, x ∈ l ↔ x ∈ old.cxl.asked ∨ (x ∈ t ∧ x ∉ new.cxl.owned))) ∧
  ∀ (s : State) (c : Cmd),
    let d := s.dev
    let g := c.tag.toNat
    let a := fld (c.pw 1) 0 44
    let n := fld (c.pw 2) 0 40
    (Starts d 0x12 c → Plain c [0x00000FFFFFFFFFFF, 0x000000FFFFFFFFFF, 1] →
      (a % 4096 ≠ 0 ∨ d.dramRange a 4096 = false → Acts (.biasSet c.q g) s (d.finish c (cplBad 8))) ∧
      (a % 4096 = 0 → d.dramRange a 4096 = true → n % 4096 ≠ 0 ∨ n = 0 ∨ d.dramRange a n = false → Acts (.biasSet c.q g) s (d.finish c (cplBad 16))) ∧
      (a % 4096 = 0 → n % 4096 = 0 → n ≠ 0 → d.dramRange a 4096 = true → d.dramRange a n = true →
        (d.rst.st = .fiddlehead → 0x1000000000 < a + n → Acts (.biasSet c.q g) s (d.finish c (cplOf .notReady))) ∧
        ((d.rst.st = .fiddlehead → a + n ≤ 0x1000000000) → bitAt (c.pw 3) 0 = true → d.hostCaches = true →
          Acts (.biasSet c.q g) s
            (({ d with cxl := { d.cxl with biasJobs := d.cxl.biasJobs ++ [(⟨c.q, g, a / 64, (a + n) / 64⟩ : BiasJob)] } }).running c)) ∧
        ((d.rst.st = .fiddlehead → a + n ≤ 0x1000000000) → bitAt (c.pw 3) 0 = false ∨ d.hostCaches = false →
          ∃ d' : Device, Acts (.biasSet c.q g) s (d'.finish c (cpl .success 0 0 0)) ∧ d' = { d with cxl := { d.cxl with devBias := d'.cxl.devBias } } ∧
            ∀ p, p ∈ d'.cxl.devBias ↔ if a / 4096 ≤ p ∧ p < (a + n) / 4096 then bitAt (c.pw 3) 0 = true else p ∈ d.cxl.devBias))) ∧
    (Starts d 0x13 c → Plain c [0x00000FFFFFFFFFFF, 0x000000FFFFFFFFFF, 0xFF] → Sparse.wf Frond.reset d.fronds = true →
      let dies := fld (c.pw 3) 0 8
      let hit := fun (line : Nat) => n = 0 ∨ (a ≤ 512 * line ∧ 512 * line < a + n)
      let named := fun (f : Nat) => f < 192 ∧ d.frondOn f = true ∧ dies.testBit (f / 24) = true
      (a % 512 ≠ 0 → Acts (.cacheInvalidate c.q g) s (d.finish c (cplBad 8))) ∧
      (a % 512 = 0 → n % 512 ≠ 0 → Acts (.cacheInvalidate c.q g) s (d.finish c (cplBad 16))) ∧
      (a % 512 = 0 → n % 512 = 0 → dies = 0 → Acts (.cacheInvalidate c.q g) s (d.finish c (cplBad 24))) ∧
      (a % 512 = 0 → n % 512 = 0 → d.rst.st = .fiddlehead → 1 < dies → Acts (.cacheInvalidate c.q g) s (d.finish c (cplOf .notReady))) ∧
      (a % 512 = 0 → n % 512 = 0 → dies ≠ 0 → (d.rst.st = .fiddlehead → dies = 1) → (∀ f, ∀ i ∈ (d.frond f).invals, (i.1, i.2.1) ≠ (c.q, g)) →
        ∃ d' : Device, d' = { d with fronds := d'.fronds } ∧
          (∀ f, ¬named f → d'.frond f = d.frond f) ∧
          (∀ f, named f → (∀ x, x ∈ (d'.frond f).wcLines ↔ x ∈ (d.frond f).wcLines ∧ ¬hit x.line) ∧ (d'.frond f).items = (d.frond f).items ∧
            (d'.frond f).wcFills.map (·.line) = (d.frond f).wcFills.map (·.line) ∧ (∀ x ∈ (d'.frond f).wcFills, hit x.line → x.install = false) ∧
            (d'.frond f).invalRanges = (d.frond f).invalRanges ++ [(c.q, g, a / 512, n / 512)]) ∧
          ((∀ f, named f → ∀ x ∈ (d.frond f).wcFills, ¬hit x.line) → ∃ e : Device, e = { d' with fronds := e.fronds } ∧
            (∀ f, ∃ l, e.frond f = { d'.frond f with invalRanges := l } ∧ ∀ x, x ∈ l ↔ x ∈ (d'.frond f).invalRanges ∧ (x.1, x.2.1) ≠ (c.q, g)) ∧
            Acts (.cacheInvalidate c.q g) s (e.finish c (cpl .success 0 0 0))) ∧
          ((∃ f, named f ∧ ∃ x ∈ (d.frond f).wcFills, hit x.line) → Acts (.cacheInvalidate c.q g) s (d'.running c))))

namespace Sys2Proof.Claims

open Sys2Proof Sys2Proof.Machine

/-- The queues a RUN owns, emptied and marked with their owner; no other queue changes (06 R150, 07 R159, R186). -/
def TakenOn (r : Run) (d d' : Device) : Prop :=
  (∀ k ∈ r.queues, (d'.hq k).entries = [] ∧ (d'.hq k).owner = some (r.q, r.tag)) ∧ ∀ k, k ∉ r.queues → d'.hq k = d.hq k

/-- The parameters of RUN are in their ranges: no address that a count of 0 leaves without use, a ring of a power of two entries, 256 or more, and aligned
indices (08 R212). -/
def RingOk (c : Cmd) : Prop :=
  let n := fld (c.pw 5) 0 25
  fld (c.pw 1) 0 6 = 0 ∧ (bitAt (c.pw 2) 2 = false → fld (c.pw 2) 0 2 = 0) ∧ (n = 0 → c.pw 4 = 0 ∧ c.pw 6 = 0 ∧ c.pw 7 = 0) ∧
  (n ≠ 0 → 256 ≤ n ∧ ∃ k, n = 2 ^ k) ∧ fld (c.pw 6) 0 3 = 0 ∧ fld (c.pw 7) 0 3 = 0

/-- What the checks of a command have read leaves the device as it was but for memory, events and the coherency cache. -/
def OnlyRead (d d' : Device) : Prop :=
  d'.tiles = d.tiles ∧ d'.fronds = d.fronds ∧ d'.hqs = d.hqs ∧ d'.sched = d.sched ∧ d'.fab = d.fab ∧ d'.host.inflight = d.host.inflight ∧ d'.rst.st = d.rst.st

/-- A resident program that a load of n instructions at base as program number p replaces (08 R211). -/
abbrev Replaced (p base n : Nat) (x : Program) : Prop := x.num.toNat = p ∨ (x.base < base + n ∧ base < x.base + x.n)

end Sys2Proof.Claims

open Sys2Proof Sys2Proof.Machine Sys2Proof.Claims in
/-- 07 R158, R164, R186-R188, 08 R201, R211-R213: RUN starts the RUN its work list describes, taking its queues, or completes with what validation finds and no item
(FAIL_ITEM all ones); the 65th waits. LOAD_PROGRAM starts its broadcast once the image passes, or names what stands in its way. ABORT stops a RUN that
runs, completes one that has not started as ABORTED, and finds a command that is done ALREADY_COMPLETE. -/
def Obligations.ProgramAndRunCommands : Prop :=
  ∀ (s : State) (c : Cmd),
    let d := s.dev
    let g := c.tag.toNat
    (Starts d 0x21 c → Plain c [0x00000FFFFFFFFFFF, 0xF, 0xFFFFFFFFFFFFFFFF, addrMask (c.pw 4), 0x1FFFFFF, addrMask (c.pw 6), addrMask (c.pw 7)] →
      (64 ≤ d.activeRunCount → Acts (.run c.q g) s d) ∧
      (d.activeRunCount < 64 → fld (c.pw 1) 0 6 ≠ 0 → ∃ p, Acts (.run c.q g) s (d.finish c p) ∧ p.status = .invalidParam ∧ p.detail = 8 ∧
        fld p.r0 32 32 = 0xFFFFFFFF) ∧
      (d.activeRunCount < 64 → ¬RingOk c → ∃ p, Acts (.run c.q g) s (d.finish c p) ∧ p.status = .invalidParam ∧ fld p.r0 32 32 = 0xFFFFFFFF) ∧
      (d.activeRunCount < 64 → RingOk c → ∀ x d', d.validate c = (x, d') →
        OnlyRead d d' ∧
        (∀ p, x = .error p → fld p.r0 32 32 = 0xFFFFFFFF ∧ Acts (.run c.q g) s (d'.finish c p)) ∧
        (∀ r, x = .ok r → Sparse.wf HQueue.reset d.hqs = true →
          r.q = c.q ∧ r.tag = g ∧ r.seed = c.pw 3 ∧ r.det = bitAt (c.pw 2) 3 ∧ r.ringEntries = fld (c.pw 5) 0 25 ∧
          r.nextSend = 0 ∧ r.ended = 0 ∧ r.stopped = false ∧
          r.policy = (if bitAt (c.pw 2) 2 then BitVec.ofNat 2 (fld (c.pw 2) 0 2) else d.sched.policy) ∧
          ∃ e : Device, Acts (.run c.q g) s e ∧ TakenOn r d' e ∧
            e = { d'.running c with hqs := e.hqs, sched := { d'.sched with runs := d'.sched.runs ++ [r] } }))) ∧
    (Starts d 0x20 c → Plain c [0x00000FFFFFFFFFFF, 0xFFFFFFFF, 0xFF3FFFFFFF] →
      let prog := fld (c.pw 3) 0 16
      let base := fld (c.pw 3) 16 14
      let dies := fld (c.pw 3) 32 8
      let image := d.readImage false d.contentKeys (BitVec.ofNat 64 (fld (c.pw 1) 0 44)) (fld (c.pw 2) 0 32)
      (d.sched.spore ≠ none → Acts (.loadProgram c.q g) s d) ∧
      (d.sched.spore = none → d.rst.st = .fiddlehead → 1 < dies → Acts (.loadProgram c.q g) s (d.finish c (cplOf .notReady))) ∧
      (d.sched.spore = none → (d.rst.st = .fiddlehead → dies ≤ 1) →
        (∀ p d', image = (.error p, d') → OnlyRead d d' ∧ Acts (.loadProgram c.q g) s (d'.finish c p)) ∧
        (∀ img d', image = (.ok img, d') → OnlyRead d d' ∧ (
          let n := imgBody img / 8
          let fits := base + n ≤ 16384 ∧ (d.rst.st ≠ .ready → base + n ≤ 14336)
          let uses := fun (r : Run) => ∃ x ∈ d'.sched.programs, Replaced prog base n x ∧ ∃ w ∈ r.items, fld (w.getD 0 0) 48 16 = x.num.toNat
          let left := d'.sched.programs.filter fun x => decide (¬Replaced prog base n x)
          (¬fits → Acts (.loadProgram c.q g) s (d'.finish c (cplBad 26))) ∧
          (fits → ∀ pre r post, d'.sched.runs = pre ++ r :: post → r.q < 64 → uses r → (∀ y ∈ pre, ¬uses y) →
            Acts (.loadProgram c.q g) s (d'.finish c { cplOf .busy with detail := BitVec.ofNat 16 r.tag })) ∧
          (fits → (∀ r ∈ d'.sched.runs, ¬uses r) →
            (64 ≤ left.length → Acts (.loadProgram c.q g) s (d'.finish c (cplOf .noResource))) ∧
            (left.length < 64 → ∃ (e : Device) (y : Spore), Acts (.loadProgram c.q g) s (e.running c) ∧
              e = { d' with sched := { d'.sched with programs := left, spore := some y, image := d'.sched.image + 1 } } ∧
              y.cmd = some (c.q, g) ∧ y.base = base ∧ y.body = (List.range n).map (fun i => BitVec.ofNat 64 (leAt img (256 + 8 * i) 8)) ∧
              y.dies = BitVec.ofNat 8 dies ∧ y.prog.toNat = prog ∧ y.image = d'.sched.image ∧ y.setupDone = false)))))) ∧
    (Starts d 0x22 c → Plain c [0xFFFF003F] →
      let q' := fld (c.pw 1) 0 6
      let g' := fld (c.pw 1) 16 16
      (d.cmdOf q' g' = none → Acts (.abort c.q g) s (d.finish c (cplOf .alreadyComplete))) ∧
      (∀ x, d.cmdOf q' g' = some x →
        (x.op ≠ 0x21 → Acts (.abort c.q g) s (d.finish c (cplBad 8))) ∧
        (x.op = 0x21 → x.st = .completing → Acts (.abort c.q g) s (d.finish c (cplOf .alreadyComplete))) ∧
        (x.op = 0x21 → x.st = .queued → ∃ p, Acts (.abort c.q g) s ((d.finish x p).finish c (cpl .success 0 0 0)) ∧ p.status = .aborted ∧
          fld p.r0 32 32 = 0xFFFFFFFF ∧ fld p.r0 0 32 = 0) ∧
        (x.op = 0x21 → x.st = .running → Acts (.abort c.q g) s ((d.stopRun q' g' true).finish c (cpl .success 0 0 0)))))

namespace Sys2Proof.Claims

open Sys2Proof Sys2Proof.Machine

/-- The PT operand w names region g, which the part has: a patch, or where static is allowed a static region (08 R214). -/
def Names (d : Device) (static : Bool) (w : Word) (g : Nat) : Prop :=
  (bitAt w 6 = false ∧ fld w 7 3 = 0 ∧ bitAt d.fuses.patchEn (fld w 0 6) = true ∧ g = 9 * (fld w 0 6 / 8) + fld w 0 6 % 8) ∨
  (bitAt w 6 = true ∧ fld w 0 6 = 0 ∧ static = true ∧ g = 9 * fld w 7 3 + 8)

/-- No load works on region g, and no CAPTURE waits for its patch to wake (12 R320). -/
def NoLoad (d : Device) (g : Nat) : Prop := ∀ l ∈ d.fab.loads, l.die = g / 9 → l.kind ≠ .full ∧ l.region ≠ some g
def Unused (d : Device) (g : Nat) : Prop := NoLoad d g ∧ ∀ c ∈ d.fab.captures, c.2.2 ≠ g

/-- The tag by which DETAIL names a command: 0 for the firmware's own load, and for a command that a FUNCTION reset has killed (08 R200; log entry 117). -/
def tagOf : Option (Nat × Nat) → BitVec 16
  | some c => if c.1 < 64 then BitVec.ofNat 16 c.2 else 0
  | none => 0

/-- The command in progress on region g: the first load that works on it, or where none does the first CAPTURE that waits for it; its tag. -/
def Uses (d : Device) (g : Nat) (tag : BitVec 16) : Prop :=
  (∃ pre l post, d.fab.loads = pre ++ l :: post ∧ l.die = g / 9 ∧ (l.kind = .full ∨ l.region = some g) ∧
    (∀ x ∈ pre, x.die = g / 9 → x.kind ≠ .full ∧ x.region ≠ some g) ∧ tag = tagOf l.cmd) ∨
  (NoLoad d g ∧ ∃ pre c post, d.fab.captures = pre ++ c :: post ∧ c.2.2 = g ∧ (∀ x ∈ pre, x.2.2 ≠ g) ∧ tag = tagOf (some (c.1, c.2.1)))

/-- What REGION_BUSY answers (08 R200). -/
def busyCpl (tag : BitVec 16) (r0 : Word) : Cpl := { cplOf .regionBusy with detail := tag, r0 := r0 }

/-- A region whose clear has begun: isolated, its clock and its DLL's lock gone (12 R313, R315, R319). -/
def Clearing (x : Region) : Prop := x.st = .clearing ∧ x.isolated = true ∧ x.fclk = 0 ∧ x.lock = false ∧ x.gsr = true ∧ x.writesOn = false

/-- The pads' keepers stand in rising order of the pads 0 to 63 (CanonicalTables). -/
def KeepersOk (d : Device) : Prop := d.fab.keepers.Pairwise (fun a b => a.1 < b.1) ∧ ∀ e ∈ d.fab.keepers, e.1 < 64

/-- The levels of the pins agree with the keepers that drive (11 R301). -/
def PinsFollow (d : Device) : Prop := ∀ e ∈ d.fab.keepers, e.2.1 = true → bitAt d.fab.pins e.1 = e.2.2.1

end Sys2Proof.Claims

open Sys2Proof Sys2Proof.Machine Sys2Proof.Claims in
/-- 08 R200, R214, 12 R312, R313, R318-R321: FABRIC_LOAD and PATCH_CLEAR begin with the clear of what they name, PATCH_LOAD with its verification pass, which
touches nothing; a region in use answers REGION_BUSY with the tag of the command that has it. Premise: the region table is canonical (CanonicalTables).
08 R214, 11 R301, 12 R322-R324, R332: CAPTURE samples flip-flops into the capture frames alone, READBACK writes a region's frames, SCRUB_CTL sets its period, pauses
(once a frame that did not match has been read again), resumes and rebuilds, GPIO_CTL reads the pins and releases keepers. An encrypted region that does not allow it denies CAPTURE and READBACK. What user
logic holds is open (log entry 41). -/
def Obligations.FabricCommands : Prop :=
  (∀ (s : State) (c : Cmd),
     let d := s.dev
     let g := c.tag.toNat
     let a := fld (c.pw 1) 0 44
     let len := fld (c.pw 2) 0 32
     Sparse.wf Region.reset d.fab.regions = true →
     (Starts d 0x30 c → Plain c [0x00000FFFFFFFFFFF, 0xFFFFFFFF, 0xFF] →
       let dies := (List.range 8).filter fun k => (fld (c.pw 3) 0 8).testBit k
       (a % 64 ≠ 0 → Acts (.fabricLoad c.q g) s (d.finish c (cplBad 8))) ∧
       (a % 64 = 0 → ∀ x d', d.checkImage 0 false a len dies 15 = (x, d') → OnlyRead d d' ∧
         (∀ p, x = .error p → Acts (.fabricLoad c.q g) s (d'.finish c p)) ∧
         (∀ h l, x = .ok (h, l) →
           (∀ k ∈ dies, ∀ n, n < 9 → ∀ tag, Uses d (9 * k + n) tag → (∀ j ∈ dies, ∀ r, r < 9 → 9 * j + r < 9 * k + n → Unused d (9 * j + r)) →
             Acts (.fabricLoad c.q g) s (d'.finish c (busyCpl tag 0))) ∧
           ((∀ k ∈ dies, ∀ n, n < 9 → Unused d (9 * k + n)) → dies ≠ [] →
             ∃ e : Device, Acts (.fabricLoad c.q g) s e ∧ e.cmdOf c.q g = some { c with st := .running } ∧
               (∀ k ∈ dies, (∃ y ∈ e.fab.loads, y.die = k ∧ y.cmd = some (c.q, g) ∧ y.kind = .full ∧ y.phase = .clearing ∧ y.hdr = h) ∧
                 ∀ r, r < 9 → d.regionOn (9 * k + r) = true → Clearing (e.region (9 * k + r))) ∧
               (∀ r, r / 9 ∉ dies → e.region r = d.region r) ∧ (∃ y, e.fab.cmds = d.fab.cmds ++ [y] ∧ y.cmd = some (c.q, g) ∧ y.left = dies) ∧
               e.fab.cfg = d.fab.cfg ∧ e.tiles = d.tiles ∧ e.dram = d'.dram)))) ∧
     (∀ r, Names d false (c.pw 3) r →
       (Starts d 0x31 c → Plain c [0x00000FFFFFFFFFFF, 0xFFFFFFFF, 0x3FF] →
         (a % 64 ≠ 0 → Acts (.patchLoad c.q g) s (d.finish c (cplBad 8))) ∧
         (a % 64 = 0 → ∀ x d', d.checkImage 1 false a len [r / 9] (r % 9) = (x, d') → OnlyRead d d' ∧
           (∀ p, x = .error p → Acts (.patchLoad c.q g) s (d'.finish c p)) ∧
           (∀ h m, x = .ok (h, m) →
             (∀ tag, Uses d r tag → Acts (.patchLoad c.q g) s (d'.finish c (busyCpl tag 0))) ∧
             (Unused d r → ∃ l : Load, Acts (.patchLoad c.q g) s (({ d' with fab := { d'.fab with loads := d'.fab.loads ++ [l] } }).running c) ∧
               l.cmd = some (c.q, g) ∧ l.region = some r ∧ l.die = r / 9 ∧ l.phase = .verifying ∧ l.hdr = h ∧ l.taken = [])))) ∧
       (Starts d 0x32 c → Plain c [0, 0, 0x3FF] →
         (∀ tag, Uses d r tag → Acts (.patchClear c.q g) s (d.finish c (busyCpl tag 0))) ∧
         (Unused d r → ∃ d', Acts (.patchClear c.q g) s d' ∧ d'.cmdOf c.q g = some { c with st := .running } ∧ Clearing (d'.region r) ∧
           (∀ y, y ≠ r → d'.region y = d.region y) ∧
           (∃ l, d'.fab.loads = d.fab.loads ++ [l] ∧ l.cmd = some (c.q, g) ∧ l.region = some r ∧ l.phase = .clearing) ∧
           d'.fab.cfg = d.fab.cfg ∧ d'.tiles = d.tiles ∧ d'.dram = d.dram)))) ∧
  (∀ (s : State) (c : Cmd) (r : Nat),
     let d := s.dev
     let g := c.tag.toNat
     let x := d.region r
     Sparse.wf Region.reset d.fab.regions = true → d.fab.cfg.wf = true →
     (Names d true (c.pw 3) r →
       (∀ tag, Uses d r tag →
         (Starts d 0x33 c → Plain c [0, 0, 0x3FF] → Acts (.capture c.q g) s (d.finish c (busyCpl tag 0))) ∧
         (Starts d 0x35 c → Plain c [3, 0x3FFF, 0x3FF] → fld (c.pw 1) 0 2 = 1 →
           Acts (.scrubPause c.q g) s (d.finish c (busyCpl tag (BitVec.ofNat 64 x.passes.toNat))))) ∧
       (Unused d r →
         (Starts d 0x33 c → Plain c [0, 0, 0x3FF] →
           (x.st ≠ .active → Acts (.capture c.q g) s (d.finish c (cplOf .notReady))) ∧
           (x.st = .active → x.enc = true → x.captureOk = false → d.sec.session = 0 → Acts (.capture c.q g) s (d.finish c (cplBad 24))) ∧
           (x.st = .active → (x.enc = true → x.captureOk = true ∨ d.sec.session ≠ 0) → r % 9 ≠ 8 → d.dom (domPatch (regionPatch r)) ≠ .run →
             Acts (.capture c.q g) s
               ((({ d with fab := { d.fab with captures := d.fab.captures ++ [(c.q, g, r)] } }).running c).wakeDom (domPatch (regionPatch r)))) ∧
           (x.st = .active → (x.enc = true → x.captureOk = true ∨ d.sec.session ≠ 0) → (r % 9 ≠ 8 → d.dom (domPatch (regionPatch r)) = .run) →
             ∃ d' : Device, Acts (.capture c.q g) s (d'.finish c (cpl .success (d.time (r / 9)) 0 0)) ∧
               d'.region r = { x with captured := true, ffs := (d'.region r).ffs } ∧
               (∀ n, n < tuftsIn r → Sparse.get 0 (d'.region r).ffs n = d'.fab.cfg.byte (512 * faOf r 2 0 + n)) ∧ (∀ y, y ≠ r → d'.region y = d.region y) ∧
               (∀ a, faRegion a ≠ some r ∨ faType a ≠ 2 → d'.frame a = d.frame a) ∧ d'.tiles = d.tiles ∧ d'.host = d.host)) ∧
         (Starts d 0x35 c → Plain c [3, 0x3FFF, 0x3FF] →
           let n := fld (c.pw 2) 0 14
           let passes := BitVec.ofNat 64 x.passes.toNat
           (fld (c.pw 1) 0 2 = 0 → n < 10 ∨ 10000 < n → Acts (.scrubSetPeriod c.q g) s (d.finish c { cplBad 16 with r0 := passes })) ∧
           (fld (c.pw 1) 0 2 = 0 → 10 ≤ n → n ≤ 10000 →
             Acts (.scrubSetPeriod c.q g) s
               ((d.setRegion r { x with nextPeriod := BitVec.ofNat 14 n, period := if x.passing then x.period else BitVec.ofNat 14 n }).finish c
                 (cpl .success passes 0 0))) ∧
           (fld (c.pw 1) 0 2 = 1 → x.scrubbed = true → x.passing = true → x.reread = true →
             let e := d.frameStep r
             Acts (.scrubPause c.q g) s
               ((e.setRegion r { e.region r with paused := true }).finish c (cpl .success (BitVec.ofNat 64 (e.region r).passes.toNat) 0 0))) ∧
           (fld (c.pw 1) 0 2 = 1 → ¬(x.scrubbed = true ∧ x.passing = true ∧ x.reread = true) → Acts (.scrubPause c.q g) s ((d.setRegion r { x with paused := true }).finish c (cpl .success passes 0 0))) ∧
           (fld (c.pw 1) 0 2 = 2 → Acts (.scrubResume c.q g) s ((d.setRegion r { x with paused := false }).finish c (cpl .success passes 0 0))) ∧
           (fld (c.pw 1) 0 2 = 3 → x.st ≠ .active ∨ x.source = none → Acts (.scrubRebuild c.q g) s (d.finish c { cplBad 24 with r0 := passes })) ∧
           (fld (c.pw 1) 0 2 = 3 → ∀ flash a m st l d', x.st = .active → x.source = some (flash, a, m) → d.srcRead flash a m = (st, l, d') →
             (st ≠ .success → Acts (.scrubRebuild c.q g) s (d'.finish c (cpl st passes 0 0))) ∧
             (st = .success → (crc32c (l.take (m - 4))).toNat ≠ leAt l (m - 4) 4 ∨ Config.shake256 l 32 ≠ x.digest →
               Acts (.scrubRebuild c.q g) s
                 ((d'.setRegion r { x with unverified := true, passing := false, passDue := false, reread := false }).finish c
                   (cpl .signatureInvalid passes 0 0))) ∧
             (st = .success → (crc32c (l.take (m - 4))).toNat = leAt l (m - 4) 4 → Config.shake256 l 32 = x.digest →
               ∃ y : Region, Acts (.scrubRebuild c.q g) s ((d'.setRegion r y).finish c (cpl .success passes 0 0)) ∧
                 y = { x with unverified := false, golden := y.golden, masks := y.masks }))))) ∧
     (Starts d 0x34 c → Plain c [addrMask (c.pw 1), 0xFFFFFFFF, 0x7FFFFF] →
       let a := fld (c.pw 2) 0 32
       let n := fld (c.pw 3) 0 23
       faRegion a = some r → d.regionOn r = true → faOk a = true →
       (frameCount (faType a) (r % 9 == 8) < faIndex a + n → Acts (.readback c.q g) s (d.finish c (cplBad 24))) ∧
       (faIndex a + n ≤ frameCount (faType a) (r % 9 == 8) → Unused d r → (faType a < 2 → x.enc = true → x.readbackOk = true ∨ d.sec.session ≠ 0) →
         ∃ (l : List Byte) (d' : Device), d' = { d with free := d'.free, fab := { d.fab with cfg := d'.fab.cfg } } ∧ l.length = 512 * n ∧
           (∀ i, i < n → (l.drop (512 * i)).take 512 = d'.frame (a + i)) ∧ (∀ b, b < a ∨ a + n ≤ b → d'.frame b = d.frame b) ∧
           (faType a = 2 ∨ x.writesOn = false → d' = d) ∧
           (faType a = 0 → ∀ i b, i < n → b < 4096 → x.masked r (faIndex a + i) b = false →
             bitAt ((d'.frame (a + i)).getD (b / 8) 0) (b % 8) = bitAt ((d.frame (a + i)).getD (b / 8) 0) (b % 8)) ∧
           Outputs (.readback c.q g) s d' c 8 (c.pw 1) l (cpl .success (BitVec.ofNat 64 n) 0 0))) ∧
     (Starts d 0x36 c → Plain c [0xFFFFFFFFFFFFFFFF, 1] → KeepersOk d →
       (bitAt (c.pw 2) 0 = false → ∃ d' : Device, Acts (.gpioRead c.q g) s (d'.finish c (cpl .success d'.fab.pins 0 0)) ∧
         d' = { d with free := d'.free, fab := { d.fab with pins := d'.fab.pins } } ∧ PinsFollow d') ∧
       (bitAt (c.pw 2) 0 = true → ∃ d' : Device, Acts (.gpioReleaseKeepers c.q g) s (d'.finish c (cpl .success d'.fab.pins 0 0)) ∧
         d' = { d with
           free := d'.free
           fab := { d.fab with keepers := d.fab.keepers.filter (fun e => !bitAt (c.pw 1) e.1), pins := d'.fab.pins } } ∧ PinsFollow d')))

namespace Sys2Proof.Claims

open Sys2Proof Sys2Proof.Machine

/-- The first load of die k in a set of phases. -/
def LoadIs (d : Device) (k : Nat) (p : LoadPhase → Bool) (l : Load) : Prop :=
  ∃ pre post, d.fab.loads = pre ++ l :: post ∧ l.die = k ∧ p l.phase = true ∧ ∀ x ∈ pre, ¬(x.die = k ∧ p x.phase = true)

/-- Logic is started in region g and released (11 R290). -/
def Live (d : Device) (g : Nat) : Prop := d.regionOn g = true ∧ (d.region g).isolated = false ∧ (d.region g).lock = true

/-- The scrubber checks region g (12 R328, R330). -/
def Checked (x : Region) : Prop := x.st = .active ∧ x.paused = false ∧ x.unverified = false

/-- What a load's command becomes with the load's end: it completes once its measurements are appended; firmware's own load has none (12 R319, 17 R435). -/
def ended (e : Device) (cmd : Option (Nat × Nat)) (p : Cpl) : Device :=
  match cmd with
  | some c => e.completeAfter c.1 c.2 p
  | none => e

/-- A load of one patch is over: it has left the list, and every load that stays stood there before. -/
def Gone (d e : Device) (l : Load) : Prop := ∀ x ∈ e.fab.loads, x ∈ d.fab.loads ∧ x ≠ l

end Sys2Proof.Claims

open Sys2Proof Sys2Proof.Machine Sys2Proof.Claims in
/-- 12 R313, R316-R319, R321: CONFIG_CLEAR_DONE leaves every frame of the cleared regions zero and, for a load, starts the writing pass; a PATCH_CLEAR and a failed
load of a patch are then over. CONFIG_FRAME takes the next word or frame record of the section, refuses a record out of its place, and in the writing pass writes the frame and
no other; STARTUP_STEP takes the next step once every started DLL is locked, and with the last one the regions are ACTIVE; a DLL that is not locked in time fails the
load. Premise: the tables are canonical (CanonicalTables). -/
def Obligations.LoadEvents : Prop :=
  ∀ (s : State) (k : Nat) (l : Load), k < 8 →
    let d := s.dev
    Sparse.wf Region.reset d.fab.regions = true → d.fab.cfg.wf = true →
    (LoadIs d k (fun p => decide (p = .clearing)) l →
      let cleared := fun (g : Nat) => g ∈ l.regions ∧ d.regionOn g = true
      let zeroed := fun (e : Device) => (∀ a g, faRegion a = some g → cleared g → ∀ b ∈ e.frame a, b = 0) ∧
        (∀ a, (∀ g, cleared g → faRegion a ≠ some g) → e.frame a = d.frame a) ∧ (∀ y, ¬cleared y → e.region y = d.region y) ∧
        e.tiles = d.tiles ∧ e.dram = d.dram ∧ e.host = d.host
      ((∀ c, l.kind ≠ .clear c) → l.failing = none → ∃ e : Device, Gives (.configClearDone k) s e ∧ zeroed e ∧
        (∀ g, cleared g → (e.region g).st = .writing) ∧ { l with phase := .writing, taken := [] } ∈ e.fab.loads) ∧
      (∀ c, l.kind = .clear c → l.failing = none → ∃ e : Device, zeroed e ∧ Gives (.configClearDone k) s (ended e l.cmd (cplOf .success)) ∧
        (∀ g, cleared g → (e.region g).st = .blank) ∧ Gone d e l ∧ ∃ m : Meas, e.sec.inbox = d.sec.inbox ++ [m] ∧ m.kind = 8 ∧ m.cause = l.cmd) ∧
      (∀ st, l.failing = some st → l.kind ≠ .full → ∃ e : Device, zeroed e ∧
        Gives (.configClearDone k) s (ended e l.cmd (if st = .invalidParam then cplStruct 7 0 else cplOf st)) ∧
        (∀ g, cleared g → (e.region g).st = .blank) ∧ Gone d e l) ∧
      (∀ st, l.failing = some st → l.kind = .full → ∃ e : Device, zeroed e ∧ Gives (.configClearDone k) s (e.dieDone l.cmd k (some st)) ∧
        (∀ g, cleared g → (e.region g).st = .blank) ∧ Gone d e l)) ∧
    (LoadIs d k (fun p => decide (p = .verifying) || decide (p = .writing)) l →
      ∀ (item : List Byte) (d1 : Device), d.srcRead l.flash (l.sect + l.taken.length) l.unit = (.success, item, d1) →
      let w := secWord l.taken 3
      let n := (l.taken.length - 20) / 516
      let a := leAt item 0 4
      let taken := { l with taken := l.taken ++ item }
      (l.unit = 4 → l.taken.length + 8 < l.len →
        (l.taken.length + 4 = 20 → d.secStart l.die l.target (hdrEnc l.hdr) l.len (l.taken ++ item) = true) →
        ∃ e : Device, Acts (.configFrame k) s e ∧ taken ∈ e.fab.loads ∧ e.fab.cfg = d.fab.cfg ∧ e.fab.regions = d.fab.regions) ∧
      (l.unit = 516 → recordFault l.die w n a (if n = 0 then none else some (recordAddr l.taken (n - 1))) = none → n + 1 < secWord l.taken 2 →
        (l.phase = .writing → ∃ e : Device, Acts (.configFrame k) s e ∧ taken ∈ e.fab.loads ∧
          e.frame a = plainFrame d.fuses.ownerAes (sectionIv l.hdr l.die) (hdrEnc l.hdr) n ((item.drop 4).take 512) ∧
          (∀ b, b ≠ a → e.frame b = d.frame b) ∧ e.fab.regions = d.fab.regions) ∧
        (l.phase = .verifying → ∃ e : Device, Acts (.configFrame k) s e ∧ taken ∈ e.fab.loads ∧ e.fab.cfg = d.fab.cfg ∧ e.fab.regions = d.fab.regions)) ∧
      (l.unit = 516 → (faOk a = false ∨ faDie a ≠ l.die) → l.phase = .verifying → l.kind ≠ .full →
        ∃ e : Device, Acts (.configFrame k) s (ended e l.cmd (cplOf .frameOutOfRegion)) ∧ Gone d e l ∧ e.fab.cfg = d.fab.cfg ∧
          e.fab.regions = d.fab.regions)) ∧
    (LoadIs d k (fun p => decide (p = .starting)) l → (∀ g ∈ l.started, (d.region g).lock = true) → ∀ st rest, l.steps = st :: rest →
      st = 1 ∨ st = 2 ∨ st = 3 →
      (rest ≠ [] → ∃ e : Device, Gives (.startupStep k) s e ∧ { l with steps := rest } ∈ e.fab.loads ∧
        (st = 2 → ∀ g, e.region g = if g ∈ l.started then { d.region g with gsr := false } else d.region g) ∧
        (st = 3 → ∀ g, e.region g = if g ∈ l.started then { d.region g with writesOn := true } else d.region g) ∧
        (st = 1 → ∀ g, let x := d.region g
          let y := e.region g
          y = { x with
            isolated := if g ∈ l.started then false else x.isolated
            sleepOk := y.sleepOk, border := y.border, isoHold := y.isoHold, isoLevel := y.isoLevel } ∧
          ((∀ y ∈ l.started, y % 9 ≠ 8) → g ∉ l.started → y = x)) ∧
        (st = 1 → ∀ g ∈ l.started, ∀ n ∈ regionPorts g, 1 ≤ (e.fport n).tgtTimeout.toNat ∧ (e.fport n).tgtTimeout.toNat ≤ 1000)) ∧
      (rest = [] → ∀ p, l.kind = .patch p → ∃ (e : Device) (m : Meas), Gives (.startupStep k) s (ended e l.cmd (cplOf .success)) ∧ Gone d e l ∧
        e.sec.inbox = d.sec.inbox ++ [m] ∧ m.kind = 7 ∧ m.digest = Config.shake256 l.hdr 64 ∧ m.cause = l.cmd ∧
        (∀ g, g ∉ l.started → (e.region g).st = (d.region g).st) ∧
        ∀ g ∈ l.started, (e.region g).st = .active ∧ (e.region g).passes = 0 ∧ (e.region g).frame = 0) ∧
      (rest = [] → l.kind = .full → ∃ (e : Device) (m : Meas), Gives (.startupStep k) s (e.dieDone l.cmd k none) ∧ Gone d e l ∧
        e.sec.inbox = d.sec.inbox ++ [m] ∧ m.kind = 6 ∧ m.digest = Config.shake256 l.hdr 64 ∧ m.cause = l.cmd ∧
        ∀ g ∈ l.started, (e.region g).st = .active ∧ (e.region g).passes = 0 ∧ (e.region g).frame = 0)) ∧
    (∀ g pre post, g < 72 → d.fab.loads = pre ++ l :: post → l.phase = .starting → g ∈ l.started →
      (∀ x ∈ pre, ¬(x.phase = .starting ∧ g ∈ x.started)) →
      ((d.region g).lock = true → Gives (.dllLockTimeout g) s d) ∧
      ((d.region g).lock = false → ∃ e : Device, Gives (.dllLockTimeout g) s e ∧ { l with phase := .clearing, failing := some .notReady } ∈ e.fab.loads ∧
        ∀ y ∈ l.regions, d.regionOn y = true → Clearing (e.region y)))

open Sys2Proof Sys2Proof.Machine Sys2Proof.Claims in
/-- 11 R287, R289, R290, R296, 12 R328-R331: DLL_LOCK and DLL_LOCK_LOSS, which isolates the region at its isolation values and counts; a scrub pass starts, reads frame
after frame, repairs a frame that is wrong twice from its record, leaves a region without a good record UNVERIFIED, and counts the pass at its end; the
watchdog starts every pass of a die with a stalled region again. Premise: the tables are canonical (CanonicalTables). -/
def Obligations.LockAndScrub : Prop :=
  ∀ (s : State) (g : Nat), g < 72 →
    let d := s.dev
    let x := d.region g
    let n := frameCount 0 (g % 9 == 8)
    let a := faOf g 0 x.frame
    Sparse.wf Region.reset d.fab.regions = true → Sparse.wf FPort.reset d.fab.ports = true → Sparse.wf Counter.zero d.ctrs = true → d.fab.cfg.wf = true →
    (x.st = .starting ∨ x.st = .active → Gives (.dllLock g) s (d.setRegion g { x with lock := true })) ∧
    (x.lock = true → ∃ e : Device, Gives (.dllLockLoss g) s e ∧
      (let y := e.region g
       y = { x with lock := false, isolated := true, border := y.border, sleepOk := y.sleepOk } ∧
       (x.isolated = true ∨ g % 9 = 8 → y.border = x.border ∧ y.sleepOk = x.sleepOk) ∧
       (x.isolated = false → g % 9 ≠ 8 → y.border &&& ~~~x.isoHold = x.isoLevel &&& ~~~x.isoHold ∧
         y.sleepOk = if x.isoHold.getLsbD 256 then x.sleepOk else x.isoLevel.getLsbD 256)) ∧
      (∀ y, y ≠ g → e.region y = d.region y) ∧
      (∀ p ∈ regionPorts g, (e.fport p).lockLoss = (d.fport p).lockLoss.incReg ∧ (e.fport p).tq = [] ∧ (e.fport p).tqOut = [] ∧ (e.fport p).irOut = [] ∧
        ∀ z ∈ (e.fport p).iq, z.live = false) ∧
      e.fab.cfg = d.fab.cfg ∧ e.tiles = d.tiles ∧ e.host = d.host) ∧
    (Checked x →
      (x.passing = true → Gives (.scrubPassStart g) s (d.setRegion g { x with passDue := true })) ∧
      (x.passing = false →
        Gives (.scrubPassStart g) s (d.setRegion g { x with passing := true, frame := 0, reread := false, period := x.nextPeriod }))) ∧
    (Checked x → x.passing = true → ∀ (u : List (Nat × Bool)) (sig : SigRead),
      let l := upsetBits (d.frame a) u
      let good := x.signature g x.frame l = Sparse.get 0 x.golden x.frame
      let onward := fun (y : Region) => if x.frame + 1 < n then { y with frame := x.frame + 1, reread := false } else
        { y with frame := 0, reread := false, passes := x.passes + 1, passing := x.passDue, passDue := false, period := x.nextPeriod }
      let bad := { x with unverified := true, passing := false, passDue := false, reread := false }
      (sig = .uncorrectable → ∃ e : Device, Acts (.scrubFrameRead g u sig) s e ∧ e.region g = bad) ∧
      (sig ≠ .uncorrectable → good → Acts (.scrubFrameRead g u sig) s ((d.setFrame a l).setRegion g (onward x))) ∧
      (sig ≠ .uncorrectable → ¬good → x.reread = false → Acts (.scrubFrameRead g u sig) s ((d.setFrame a l).setRegion g { x with reread := true })) ∧
      (sig ≠ .uncorrectable → ¬good → x.reread = true →
        (x.source = none → ∃ e : Device, Acts (.scrubFrameRead g u sig) s e ∧ e.region g = bad) ∧
        (∀ flash src len st rec d1, x.source = some (flash, src, len) →
          d.srcRead flash (src + 24 + 516 * (x.first + x.frame)) 512 = (st, rec, d1) →
          let r := plainFrame d.fuses.ownerAes x.iv x.enc (x.first + x.frame) rec
          (st ≠ .success ∨ x.signature g x.frame r ≠ Sparse.get 0 x.golden x.frame → ∃ e : Device, Acts (.scrubFrameRead g u sig) s e ∧ e.region g = bad) ∧
          (st = .success → x.signature g x.frame r = Sparse.get 0 x.golden x.frame →
            ∃ e : Device, Acts (.scrubFrameRead g u sig) s e ∧ e.region g = onward x ∧ e.frame a = x.merge g x.frame r l ∧
              e.counter 0x40 (scrubUnit g) = (d.counter 0x40 (scrubUnit g)).add 1 ∧ (∀ b, b ≠ a → e.frame b = d.frame b) ∧ e.tiles = d.tiles)))) ∧
    (d.regionOn g = true → Checked x →
      (x.passes ≠ x.seenPasses → Gives (.scrubWatchdog g) s (d.setRegion g { x with seenPasses := x.passes })) ∧
      (x.passes = x.seenPasses → ∃ e : Device, Gives (.scrubWatchdog g) s e ∧ g / 9 ∈ e.fab.stalled ∧ e.rst.fatal = true ∧
        ∀ y, e.region y = if y / 9 = g / 9 ∧ d.regionOn y = true then
          { d.region y with
            passes := 0, seenPasses := 0, frame := 0, reread := false, passDue := false
            passing := decide ((d.region y).st = .active ∧ (d.region y).unverified = false) }
          else d.region y))

namespace Sys2Proof.Claims

open Sys2Proof Sys2Proof.Machine

/-- Local port lp of router r is port A or B of a fabric region (01 R18). -/
def FabricPort (r lp g : Nat) : Prop :=
  r < 384 ∧ ((∃ p b, unitAt r lp = .patch p b ∧ g = 9 * (p / 8) + p % 8) ∨ ∃ k b, unitAt r lp = .static k b ∧ g = 9 * k + 8)

/-- A packet waits to be sent at a local port, with the address its destination follows from. -/
def Sends (d d' : Device) (p : PortId) (a : Option Nat) (k : Packet) : Prop :=
  Sparse.get [] (d'.router p.r).outbox p.lp = Sparse.get [] (d.router p.r).outbox p.lp ++ [(a, k)]

/-- Fabric port n has become z; no other port, no region, no tile, and nothing of the host side has changed. -/
def PortIs (d e : Device) (n : Nat) (z : FPort) : Prop :=
  e.fport n = z ∧ (∀ i, i ≠ n → e.fport i = d.fport i) ∧ e.fab.regions = d.fab.regions ∧ e.tiles = d.tiles ∧ e.host = d.host

/-- What user logic has accepted at a port leaves the channels; with the last beat of an answer on IR its request is over (11 R292, R293). -/
def TakesBeats (x y : FPort) (acc : Accepted) : Prop :=
  y = { x with tqOut := x.tqOut.drop acc.tq, tqTaken := (x.tqOut.take acc.tq).reverse ++ x.tqTaken, irOut := x.irOut.drop acc.ir
               irTaken := (x.irOut.take acc.ir).reverse ++ x.irTaken, iq := y.iq } ∧
  (acc.ir = 0 ∨ x.irOut = [] → y.iq = x.iq) ∧
  (∀ b r, x.irOut = b :: r → acc.ir = 1 →
    (b.frees = none → y.iq = x.iq) ∧
    (∀ t pre e post, b.frees = some t → x.iq = pre ++ e :: post → e.live = true → e.answered = true → e.tag = t →
      (∀ z ∈ pre, ¬(z.live = true ∧ z.answered = true ∧ z.tag = t)) → y.iq = pre ++ post))

/-- A WRITE or WRITEM that has not been sent. -/
def Unsent (e : IqEntry) : Prop := e.live = true ∧ (e.beat.op = 1 ∨ e.beat.op = 2) ∧ e.answered = false ∧ e.num = none

/-- SUB k is in use by a WRITE or WRITEM of the port (09 R234). -/
def SubUsed (x : FPort) (k : Nat) : Prop := ∃ e ∈ x.iq, (e.beat.op = 1 ∨ e.beat.op = 2) ∧ e.num = some (BitVec.ofNat 16 k)

end Sys2Proof.Claims

open Sys2Proof Sys2Proof.Machine Sys2Proof.Claims in
/-- 11 R291-R296, 09 R234: what user logic accepted leaves the port's channels. A live fabric port sends a READ, a WRITE of one to four beats, a WRITEM or a HOP of its user
logic under the beat's TAG, a write under a SUB that none in the network has, answers a misshapen one INVALID_PARAM at once, and takes none whose TAG is
outstanding; it answers its target requests with the logic's data and status, or TIMEOUT, and counts an answer to none; SLEEP_OK follows port A, and WAKE
wakes a patch in DAMP. Premise: the tables are canonical (CanonicalTables). Which SUB and TXID are taken is the model's choice (log entry 122). -/
def Obligations.FabricPorts : Prop :=
  ∀ (s : State) (r lp g : Nat), FabricPort r lp g → lp < 2 → ∀ acc : Accepted,
    let d := s.dev
    let n := 2 * r + lp
    let x := d.fport n
    let y := x.accept acc
    let at_ : PortId := ⟨r, lp⟩
    let awake := ∀ p b, unitAt r lp = .patch p b → d.dom (domPatch p) = .run
    TakesBeats x y acc ∧
    (Sparse.wf Region.reset d.fab.regions = true → Sparse.wf FPort.reset d.fab.ports = true → Sparse.wf Router.reset d.routers = true →
    (∀ i, Sparse.wf [] (d.router i).outbox = true) →
    (Live d g → awake →
      (∀ b : IqBeat, (∃ e ∈ y.iq, e.live = true ∧ e.tag = b.tag) → ∃ e : Device, Gives (.iqRequest r lp ⟨b, acc⟩) s e ∧ PortIs d e n y) ∧
      (∀ b : IqBeat, (∀ e ∈ y.iq, e.live = true → e.tag ≠ b.tag) →
        let fits := fun (c : IqBeat) (bytes : Nat) => c.addr.toNat / 512 = (c.addr.toNat + bytes - 1) / 512
        let opened := fun (e : Device) (tx : BitVec 16) => PortIs d e n { y with iq := y.iq ++ [⟨b.tag, b, some tx, [], true, false⟩] } ∧ fld tx 0 8 = b.tag.toNat ∧
          ((y.iq.filter fun z => !z.isWrite).length < 256 → ∀ z ∈ y.iq, z.isWrite = false → z.num ≠ some tx)
        let refused := fun (e : Device) (c : IqBeat) => PortIs d e n
          { y with iq := y.iq ++ [⟨c.tag, c, none, [], true, true⟩], partial_ := if b.op = 1 then [] else y.partial_, irOut := y.irOut ++ [.done c.tag 0x11] }
        let written := fun (c : IqBeat) (bytes : List Byte) (k : Nat → Packet) => (∀ z ∈ y.iq, z.live = true → z.tag ≠ c.tag) →
          let part := if b.op = 1 then [] else y.partial_
          (∀ m, m < 64 → (∀ z ∈ y.iq, ¬Unsent z) → ¬SubUsed y m → (∀ j, j < m → SubUsed y j) → ∃ e : Device, Gives (.iqRequest r lp ⟨b, acc⟩) s e ∧
            PortIs d e n { y with iq := y.iq ++ [⟨c.tag, c, some (BitVec.ofNat 16 m), [], true, false⟩], partial_ := part } ∧
            Sends d e at_ (some c.addr.toNat) (k m)) ∧
          ((∀ j, j < 64 → SubUsed y j) → ∃ e : Device, Gives (.iqRequest r lp ⟨b, acc⟩) s e ∧
            PortIs d e n { y with iq := y.iq ++ [⟨c.tag, c, none, bytes, true, false⟩], partial_ := part } ∧ e.routers = d.routers)
        (b.op = 0 → b.addr.toNat % 64 = 0 → fits b (64 * (b.len.toNat + 1)) → ∃ (e : Device) (tx : BitVec 16), Gives (.iqRequest r lp ⟨b, acc⟩) s e ∧ opened e tx ∧
          Sends d e at_ (some b.addr.toNat) (mkRead false at_ tx b.addr.toNat (64 * (b.len.toNat + 1)))) ∧
        (b.op = 0 → ¬(b.addr.toNat % 64 = 0 ∧ fits b (64 * (b.len.toNat + 1))) → ∃ e : Device, Gives (.iqRequest r lp ⟨b, acc⟩) s e ∧ refused e b) ∧
        (b.op = 1 → b.last = false → ∃ e : Device, Gives (.iqRequest r lp ⟨b, acc⟩) s e ∧ PortIs d e n { y with partial_ := y.partial_ ++ [b] }) ∧
        (b.op = 1 → b.last = true →
          let beats := y.partial_ ++ [b]
          let c := beats.headD b
          let ok := c.addr.toNat % 128 = 0 ∧ beats.length ≤ 4 ∧ beats.length = c.len.toNat + 1 ∧ fits c (128 * beats.length)
          let bytes := beats.flatMap fun (z : IqBeat) => leBytes 128 z.data.toNat
          (¬ok → ∃ e : Device, Gives (.iqRequest r lp ⟨b, acc⟩) s e ∧ refused e c) ∧
          (ok → c.op = 1 → written c bytes fun m => mkWrite false at_ m c.addr.toNat bytes)) ∧
        (b.op = 2 → ¬(b.addr.toNat % 128 = 0 ∧ b.last = true) → ∃ e : Device, Gives (.iqRequest r lp ⟨b, acc⟩) s e ∧ refused e b) ∧
        (b.op = 2 → b.last = true → b.addr.toNat % 128 = 0 →
          written b (leBytes 128 b.data.toNat) fun m => mkWriteM false at_ m b.addr.toNat (leBytes 128 b.data.toNat) b.mask) ∧
        (b.op = 3 → ∃ (e : Device) (tx : BitVec 16) (k : Packet), Gives (.iqRequest r lp ⟨b, acc⟩) s e ∧ opened e tx ∧ Sends d e at_ none k ∧ k.type = 6 ∧ k.txid = tx ∧
          fld (k.pay.headD 0) 0 8 = b.hopop.toNat ∧ fld (k.pay.headD 0) 16 14 = b.queue.toNat ∧ fld (k.pay.headD 0) 64 64 = b.entry.toNat)) ∧
      (∀ (b : TrBeat) pre q post, y.tq = pre ++ q :: post → q.ttag = b.ttag → (∀ z ∈ pre, z.ttag ≠ b.ttag) → (∀ z ∈ post, z.ttag ≠ b.ttag) →
        let st : Nat := if b.status = 0x00 ∨ b.status = 0x11 ∨ b.status = 0x12 ∨ b.status = 0x20 ∨ b.status = 0x22 then b.status.toNat else 0x22
        let bad := if q.bad ≠ none ∨ st = 0 then q.bad else some (BitVec.ofNat 8 st)
        let code := (bad.map (·.toNat)).getD 0
        let beats := q.beats ++ [b.data]
        (beats.length < q.need → ∃ e : Device, Gives (.trResponse r lp ⟨b, acc⟩) s e ∧
          PortIs d e n { y with tq := pre ++ { q with beats := beats, bad := bad } :: post }) ∧
        (q.need ≤ beats.length → ∃ e : Device, Gives (.trResponse r lp ⟨b, acc⟩) s e ∧
          PortIs d e n { y with tq := pre ++ post, tqOut := y.tqOut.filter fun z => z.ttag != some b.ttag } ∧
          (q.pkt.type = 1 → Sends d e at_ none
            (mkRdResp q.pkt.hdr at_ code (if code = 0 then (bytesOf beats).take q.pkt.readLen else poisonData q.pkt.readAddr q.pkt.readLen))) ∧
          (q.pkt.type ≠ 1 → Sends d e at_ none (mkWrAck q.pkt.hdr at_ code)))) ∧
      (∀ (b : TrBeat), (∀ z ∈ y.tq, z.ttag ≠ b.ttag) → ∃ (e : Device) (l : List (BitVec 6)), Gives (.trResponse r lp ⟨b, acc⟩) s e ∧
        PortIs d e n (if b.last then { y with late := y.late.incReg, lateTags := l } else y))) ∧
    (∀ (tt : BitVec 6),
      let z := fun (b : Bool) => if b then y else x
      ∀ b : Bool, (b = true ↔ Live d g ∧ awake) →
        ((∀ q ∈ x.tq, q.ttag ≠ tt) → ∃ e : Device, Gives (.tgtTimeout r lp ⟨tt, acc⟩) s e ∧ PortIs d e n (z b)) ∧
        (∀ pre q post, x.tq = pre ++ q :: post → q.ttag = tt → (∀ y ∈ pre, y.ttag ≠ tt) → (∀ y ∈ post, y.ttag ≠ tt) →
          ∃ e : Device, Gives (.tgtTimeout r lp ⟨tt, acc⟩) s e ∧
          PortIs d e n { z b with
            tq := pre ++ post, timeouts := x.timeouts.incReg, tqOut := (z b).tqOut.filter fun y => y.ttag != some tt
            lateTags := if ((z b).tqOut.filter fun y => y.ttag == some tt).length < (q.pkt.tqBeats tt 0).length then x.lateTags ++ [tt] else x.lateTags } ∧
          (q.pkt.type ≠ 1 → Sends d e at_ none (mkWrAck q.pkt.hdr at_ 0x61)) ∧
          (q.pkt.type = 1 → Sends d e at_ none (mkRdResp q.pkt.hdr at_ 0x61 (poisonData q.pkt.readAddr q.pkt.readLen))))) ∧
    (∀ h level, h < 72 →
      let k := domPatch (8 * (h / 9) + h % 9)
      let t := d.setRegion h { d.region h with sleepOk := level }
      (Live d h → ¬(level = false ∧ h % 9 ≠ 8 ∧ d.dom k = .enterDamp) → Gives (.sleepOkChange h level) s t) ∧
      (Live d h → level = false → h % 9 ≠ 8 → d.dom k = .enterDamp → Gives (.sleepOkChange h level) s (t.setDom k .run)) ∧
      (¬Live d h → Gives (.sleepOkChange h level) s d)) ∧
    (∀ p, p < 64 →
      let k := domPatch p
      let wakes := Live d (9 * (p / 8) + 8) ∧ (d.dom k = .damp ∨ d.dom k = .enterDamp)
      (wakes → Gives (.patchWake p) s (d.setDom k (.waking false))) ∧ (¬wakes → Gives (.patchWake p) s d)))

namespace Sys2Proof.Claims

open Sys2Proof Sys2Proof.Machine

/-- Only link engines differ, and among them only those that satisfy p. -/
def OnlyLinks (d d' : Device) (p : Nat → Prop) : Prop :=
  d' = { d with bad := { d.bad with links := d'.bad.links } } ∧ ∀ n, ¬p n → d'.link n = d.link n

/-- Port n is in RUN, and none of its traffic is unacknowledged or waiting (16 R405, R412). -/
def Drained (l : Link) : Prop := l.inRun = true ∧ l.retry = [] ∧ l.txq = []

/-- A port as it enters DETECT (16 R405). -/
def detecting (l : Link) : Link :=
  { l with
    st := .detect, lanes := 0, partnerRdy := false, fromDry := false, retrain := false, txPow := .run, rxPow := .run
    taps := if l.st = .disabled then [0, -8, 48, -8, 0] else l.taps }

end Sys2Proof.Claims

namespace Sys2Proof.Claims

open Sys2Proof Sys2Proof.Machine

/-- A port as it enters ALIGN: what it has aligned to is forgotten, and the line side begins anew (16 R405). -/
def aligning (l : Link) : Link := { l with st := .align, markers := 0, skewOk := false, codewords := 0, tx := l.tx.start, rx := l.rx.start }

/-- A port as it enters EQUALIZE, from preset P4 (16 R405, R407). -/
def equalizing (l : Link) : Link :=
  { l with st := .equalize, taps := [0, -8, 48, -8, 0], iter := 0, acnt := 0, astat := 0, ask := 0, rcnt := 0, answered := true }

/-- The own receiver's side of a frame: it waits for the answer to its last request, and then asks for what it wants next, or for HOLD (16 R406, R407). -/
def AskNext (l : Link) (f : BitVec 128) (want : BitVec 8) (m : Link) : Prop :=
  let done := l.answered = true ∨ (fld f 75 2 ≠ 0 ∧ fld f 71 4 = l.rcnt.toNat)
  (¬done → m = l) ∧ (done → fld want 3 2 = 0 → m = { l with answered := true, ask := 0 }) ∧
  (done → fld want 3 2 ≠ 0 → m = { l with answered := false, ask := want, rcnt := l.rcnt + 1 })

/-- A receiver is where the transmitter of its lanes is: scramblers, runs, filler and stuff symbols counted, and no lane owes more than a block can give back
(16 R399-R403). -/
def InStep (t : LineTx) (r : LineRx) : Prop :=
  r.scram = t.scram ∧ r.runs = t.runs ∧ r.count = t.count ∧ r.extra = t.extra ∧ r.stuffed = t.stuffed ∧
  (∀ x ∈ t.runs, x.2 < 24) ∧ (∀ x ∈ t.stuffed, x ≤ 288) ∧ t.place ≤ 81664

/-- It knows whether a marker stands among the next codeword's symbols, and where: 81,664 symbols from the last one, a filler block counted as 320 (16 R401;
log entry 102). -/
def MarkerDue (t : LineTx) (r : LineRx) : Prop :=
  let long := t.place + (if 8192 ≤ t.count ∨ t.extra = true then 320 else 0) + 340
  (81664 < long → r.split = some (81664 - t.place)) ∧ (long ≤ 81664 → r.split = none)

/-- The flits that a stream of bits completes, each with its mark, and what is left of the stream (16 R399, R410). -/
def CutsTo (stream : List Bool) (mark : Nat → Bool) (flits : List (BitVec 1184 × Bool)) (rest : List Bool) : Prop :=
  let k := stream.length / 1184
  flits = (List.range k).map (fun i => (BitVec.ofNat 1184 (natOfBits ((stream.drop (1184 * i)).take 1184)), mark i)) ∧ rest = stream.drop (1184 * k)

end Sys2Proof.Claims

open Sys2Proof Sys2Proof.Machine Sys2Proof.Claims in
/-- 08 R200, R215, 16 R405, R409, R413, R414, R417, R421: LINK_CTL enables, disables, retrains, and allows or forbids low power at the named ports and no others; a port
that was in RUN reports LINK_DOWN; LINK_STATUS reads a port; ROUTE_SET takes the shape and the address while no collective is set up; COLLECTIVE_SETUP sets up or removes a
collective. RESULT0 of LINK_CTL names the ports that carried the operation out, and LINK_DOWN says that not all did: a DISABLED port can neither be allowed low power
nor held in RUN (log entry 50). Premise: the link table is canonical (CanonicalTables).
16 R399-R403, R405-R408, R421: a port trains: DETECT collects its lanes and dwells, ACQUIRE waits for all lanes and RDY, EQUALIZE answers requests within the limits of
the taps and asks for its own until both hold or 512 requests are carried out, ALIGN counts markers and codewords, PARAM takes the partner's parameters, and a good port of
a READY device is admitted; time-outs. A receiver in step with the transmitter finds its codeword on the lanes among stuff symbols, markers and filler; one with up to 15 wrong symbols counts as corrected and its flits are whole, an
uncorrectable one counts and damages every flit it touches. Premise: the tables are canonical (CanonicalTables). -/
def Obligations.LinkManagement : Prop :=
  (∀ (s : State) (c : Cmd),
     let d := s.dev
     let g := c.tag.toNat
     let named := fun (n : Nat) => n < 16 ∧ bitAt (c.pw 1) n = true
     let all := BitVec.ofNat 64 (fld (c.pw 1) 0 16)
     Sparse.wf Link.reset d.bad.links = true →
     (Starts d 0x40 c → Plain c [0xFFFF, 7] → (∃ n, named n ∧ d.linkOn n = false) →
       (fld (c.pw 2) 0 3 = 0 → Acts (.linkDisable c.q g) s (d.finish c (cplBad 8))) ∧
       (fld (c.pw 2) 0 3 = 1 → Acts (.linkEnableTrain c.q g) s (d.finish c (cplBad 8)))) ∧
     (Starts d 0x40 c → Plain c [0xFFFF, 7] → (∀ n, named n → d.linkOn n = true) →
       (fld (c.pw 2) 0 3 = 0 → (∀ n, named n → (d.link n).live = false) →
         ∃ d' : Device, Acts (.linkDisable c.q g) s (d'.finish c (cpl .success all 0 0)) ∧ OnlyLinks d d' named ∧
           ∀ n, named n → d'.link n = { detecting (d.link n) with st := .disabled }) ∧
       (fld (c.pw 2) 0 3 = 0 → ∀ n, fld (c.pw 1) 0 16 = 2 ^ n → Drained (d.link n) → ∃ d' : Device,
         Acts (.linkDisable c.q g) s (d'.finish c (cpl .success all 0 0)) ∧ (d'.link n).st = .disabled ∧ (d'.link n).lastDown = 5 ∧
           (∀ i, i ≠ n → d'.link i = d.link i) ∧ d'.host.events = (d.raise 0x20 (BitVec.ofNat 64 n) 0).host.events) ∧
       (fld (c.pw 2) 0 3 = 1 → ∃ d' : Device, Acts (.linkEnableTrain c.q g) s (d'.finish c (cpl .success all 0 0)) ∧
         OnlyLinks d d' (fun n => named n ∧ (d.link n).st = .disabled) ∧ (∀ n, named n → (d.link n).st = .disabled → d'.link n = detecting (d.link n))) ∧
       (fld (c.pw 2) 0 3 = 2 → (∀ n, named n → (d.link n).live = false) →
         ∃ d' : Device, Acts (.linkRetrain c.q g) s (d'.finish c (cpl .success all 0 0)) ∧ OnlyLinks d d' named ∧
           ∀ n, named n → d'.link n = detecting (d.link n)) ∧
       (∀ p : Cpl,
         let some' := fun (n : Nat) => named n ∧ (d.link n).st ≠ .disabled
         let answers := p.detail = 0 ∧ p.r1 = 0 ∧ p.r2 = 0 ∧ (∀ n, n < 64 → (bitAt p.r0 n = true ↔ some' n)) ∧
           ((∀ n, named n → some' n) → p.status = .success) ∧ ((∃ n, named n ∧ ¬some' n) → p.status = .linkDown)
         answers →
         (fld (c.pw 2) 0 3 = 3 → ∃ d' : Device, Acts (.linkAllowLowPower c.q g) s (d'.finish c p) ∧ OnlyLinks d d' some' ∧
           ∀ n, some' n → d'.link n = { d.link n with allowed := true }) ∧
         (fld (c.pw 2) 0 3 = 4 → (∀ n, some' n → (d.link n).st = .run → (d.link n).txPow = .run) →
           ∃ d' : Device, Acts (.linkHoldRun c.q g) s (d'.finish c p) ∧ OnlyLinks d d' some' ∧
             ∀ n, some' n → d'.link n = { d.link n with allowed := false })) ∧
       (fld (c.pw 2) 0 3 = 4 → ∀ n, fld (c.pw 1) 0 16 = 2 ^ n → (d.link n).st = .run → (d.link n).txPow = .damp →
         ∃ d' : Device, Acts (.linkHoldRun c.q g) s (d'.finish c (cpl .success all 0 0)) ∧ (d'.link n).allowed = false ∧ (d'.link n).st = .run ∧
           (d'.link n).txPow = .run ∧ ∀ i, i ≠ n → d'.link i = d.link i) ∧
       (fld (c.pw 2) 0 3 = 4 → ∀ n, fld (c.pw 1) 0 16 = 2 ^ n → (d.link n).st = .run → (d.link n).txPow = .dry →
         ∃ d' : Device, Acts (.linkHoldRun c.q g) s (d'.finish c (cpl .success all 0 0)) ∧ (d'.link n).allowed = false ∧ (d'.link n).st = .acquire ∧
           (d'.link n).fromDry = true ∧ (d'.link n).taps = (d.link n).taps ∧ ∀ i, i ≠ n → d'.link i = d.link i)) ∧
     (Starts d 0x41 c → Plain c [0xF] →
       let n := fld (c.pw 1) 0 4
       (d.linkOn n = false → Acts (.linkStatus c.q g) s (d.finish c (cplBad 8))) ∧
       (d.linkOn n = true → ∃ p, Acts (.linkStatus c.q g) s (d.finish c p) ∧ p.status = .success ∧ fld p.r0 0 8 = (d.link n).st.code ∧
         fld p.r0 8 8 = (d.link n).lanes.toNat ∧ fld p.r0 32 18 = (d.link n).partner.toNat ∧ p.r1 = (d.counter 0x50 n).word ∧ p.r2 = (d.counter 0x51 n).word)) ∧
     (Starts d 0x42 c → Plain c [addrMask (c.pw 1), 0x0000FFFF0003FFFF] →
       let own : BitVec 18 := BitVec.ofNat 18 (fld (c.pw 2) 0 18)
       (fld (c.pw 2) 32 16 ≠ 1 → Acts (.routeSet c.q g) s (d.finish c (cplStruct 8 0))) ∧
       (fld (c.pw 2) 32 16 = 1 → d.bad.colls ≠ [] → Acts (.routeSet c.q g) s (d.finish c (cplOf .busy))) ∧
       (fld (c.pw 2) 32 16 = 1 → d.bad.colls = [] → ∀ l d1, d.addrRead true (c.pw 1) 8 = (.success, l, d1) →
         let w : Word := BitVec.ofNat 64 (leNat l)
         let shape := (fld w 0 4, fld w 4 4, fld w 8 5, fld w 13 5)
         (fld w 56 8 ≠ 1 ∨ fld w 18 38 ≠ 0 → Acts (.routeSet c.q g) s (d1.finish c (cplStruct 8 0))) ∧
         (fld w 56 8 = 1 → fld w 18 38 = 0 → inShape shape own = false → Acts (.routeSet c.q g) s (d1.finish c (cplBad 16))) ∧
         (fld w 56 8 = 1 → fld w 18 38 = 0 → inShape shape own = true → ∃ e : Device, Acts (.routeSet c.q g) s (e.finish c (cpl .success 0 0 0)) ∧
           e.bad.shape = some shape ∧ e.bad.addr = some own) ∧
         (fld w 56 8 = 1 → fld w 18 38 = 0 → inShape shape own = true → (∀ n, n < 16 → (d.link n).live = false ∧ (d.link n).st ≠ .admitted) →
           Acts (.routeSet c.q g) s (({ d1 with bad := { d1.bad with shape := some shape, addr := some own } }).finish c (cpl .success 0 0 0))))) ∧
     (Starts d 0x43 c → Plain c [addrMask (c.pw 1), 0xFF] →
       let num := fld (c.pw 2) 0 8
       (63 < num → Acts (.collectiveSetup c.q g) s (d.finish c (cplBad 16))) ∧
       (num ≤ 63 → ∀ l d1, d.addrRead true (c.pw 1) 64 = (.success, l, d1) →
         (leAt l 0 1 = 0 → tearForm l = false → Acts (.collectiveSetup c.q g) s (d1.finish c (cplStruct 9 0))) ∧
         (leAt l 0 1 = 0 → tearForm l = true → Acts (.collectiveSetup c.q g) s
           (({ d1 with bad := { d1.bad with colls := Sparse.del d1.bad.colls num } }).finish c (cpl .success 0 0 0))) ∧
         (leAt l 0 1 ≠ 0 → collForm l = false → Acts (.collectiveSetup c.q g) s (d1.finish c (cplStruct 9 0))) ∧
         (leAt l 0 1 ≠ 0 → collForm l = true → ∀ src dst free ml d2 ms n, d1.collPlaces l = some (src, dst, free) →
           d1.agentRead (leAt l 40 8) (4 * leAt l 3 1) = (.success, ml, d2) → membersOf ml (leAt l 3 1) = .ok ms →
           d2.collPort (ms.getD ((leAt l 4 1 + 1) % leAt l 3 1) 0) = .ok n →
           (16 ≤ d2.collsAt num n → Acts (.collectiveSetup c.q g) s (d2.finish c (cplOf .noResource))) ∧
           (d2.collsAt num n < 16 → ∃ x : Coll, Acts (.collectiveSetup c.q g) s ((d2.setColl num x).finish c (cpl .success 0 0 0)) ∧
             x.kind = leAt l 0 1 ∧ x.fmt = leAt l 1 1 ∧ x.op = leAt l 2 1 ∧ x.n = leAt l 3 1 ∧ x.pos = leAt l 4 1 ∧ x.window = leAt l 8 8 ∧
             x.wlen = leAt l 16 8 ∧ x.seg = leAt l 32 4 ∧ x.srcq = src ∧ x.dstq = dst ∧ x.freeq = free ∧ x.members = ms ∧ x.port = n ∧ x.failed = false ∧
             x.entry = none ∧ x.unacked = [] ∧ x.slot = 0))))) ∧
  (∀ (s : State) (n : Nat), n < 16 →
     let d := s.dev
     let l := d.link n
     Sparse.wf Link.reset d.bad.links = true → Sparse.wf Counter.zero d.ctrs = true →
     (∀ (lane : Nat) (f : BitVec 128) (want : BitVec 8),
       (d.linkOn n = false ∨ frameOk f = false ∨ 8 ≤ lane ∨ fld f 90 3 ≠ lane → Gives (.trainingFrame n lane f want) s d) ∧
       (d.linkOn n = true → frameOk f = true → lane < 8 → fld f 90 3 = lane →
       let lanes : Byte := BitVec.ofNat 8 (l.lanes.toNat ||| 2 ^ lane)
       (l.st = .detect → Gives (.trainingFrame n lane f want) s (d.setLink n { l with lanes := lanes })) ∧
       (l.st = .acquire → ¬(lanes = 0xFF ∧ bitAt f 89 = true) →
         Gives (.trainingFrame n lane f want) s (d.setLink n { l with lanes := lanes, partnerRdy := bitAt f 89 })) ∧
       (l.st = .acquire → lanes = 0xFF → bitAt f 89 = true →
         let m := { l with lanes := 0xFF, partnerRdy := true }
         Gives (.trainingFrame n lane f want) s (d.setLink n (if l.fromDry then aligning m else equalizing m))) ∧
       (l.st = .equalize → ∀ m, AskNext l f want m →
         let new := fld f 84 2 ≠ 0 ∧ (l.astat = 0 ∨ fld f 77 4 ≠ l.acnt.toNat)
         let a := ffeRequest l.taps (fld f 86 3) (fld f 84 2) (fld f 81 3)
         ∀ k, (new → k = { m with taps := a.2, astat := BitVec.ofNat 2 a.1, acnt := BitVec.ofNat 4 (fld f 77 4), iter := m.iter + 1 }) → (¬new → k = m) →
         let finished := (fld f 84 2 = 0 ∧ m.answered = true ∧ m.ask = 0) ∨ 512 ≤ k.iter.toNat
         (¬finished → Gives (.trainingFrame n lane f want) s (d.setLink n k)) ∧ (finished → Gives (.trainingFrame n lane f want) s (d.setLink n (aligning k)))))) ∧
     (∀ (taps : List Int) (tap op preset : Nat), tapsOk taps = true → tapsOk (ffeRequest taps tap op preset).2 = true) ∧
     (l.st = .detect → l.lanes = 0xFF → Gives (.detectDwell n) s (d.setLink n { l with st := .acquire, lanes := 0, partnerRdy := false })) ∧
     (l.st = .acquire ∨ l.st = .align ∨ l.st = .param → l.live = false → Gives (.linkStateTimeout n) s (d.setLink n (detecting l))) ∧
     (l.st = .equalize → Gives (.linkStateTimeout n) s (d.setLink n (aligning l))) ∧
     (∀ (marks : List (BitVec 512)) (skew pos : Nat), l.st = .align →
       let rx := { l.rx with split := some (min pos 660) }
       (∀ q : BitVec 32, l.markers < 15 → (∀ m, m < 8 → leBytes 64 (marks.getD m 0).toNat = markerBytes m q) →
         Gives (.linkMarker n marks ⟨skew, pos⟩) s (d.setLink n { l with
           markers := if l.markers = 0 ∨ q = l.markerSeq + 1 then l.markers + 1 else 1, markerSeq := q, skewOk := decide (skew ≤ 3584), rx := rx })) ∧
       ((∃ m, m < 8 ∧ ∀ q : BitVec 32, leBytes 64 (marks.getD m 0).toNat ≠ markerBytes m q) →
         Gives (.linkMarker n marks ⟨skew, pos⟩) s (d.setLink n { l with markers := 0, skewOk := false, rx := rx }))) ∧
     (∀ (t : LineTx) (r : LineRx) (idle : BitVec 1184), InStep t r → MarkerDue t r →
       let t' := t.send idle
       (r.word t'.out).1 = rsEncode (symbolsOf (t.takeBits idle).1 514) ∧
       ((∀ x ∈ t'.stuffed, x ≤ 288) → InStep t' (r.passed t'.out))) ∧
     (∀ lanes : List (List Nat), l.rx.rest.length < 1184 → l.st = .run ∨ l.st = .align →
       let w := (l.rx.word lanes).1
       let c := rsDecode w
       let stream := l.rx.rest ++ symbolBits ((match c with | some x => x.1 | none => w).take 514)
       let begun := l.rx.bad && !l.rx.rest.isEmpty
       (l.st = .align → l.markers < 16 ∨ l.skewOk = false ∨ l.codewords < 4095) →
       ∃ (e : Device) (fs : List (BitVec 1184 × Bool)) (rest : List Bool),
         Gives (.fecCodewordReceive n lanes) s e ∧ (∀ i, i ≠ n → e.link i = d.link i) ∧
         CutsTo stream (fun i => if c.isNone then true else begun && i == 0) fs rest ∧
         (∃ b, (e.link n).rx = { l.rx.passed lanes with flits := l.rx.flits ++ fs, rest := rest, bad := b }) ∧
         (e.link n).codewords = (if l.st = .run then l.codewords else if c.isSome then l.codewords + 1 else 0) ∧ (e.link n).st = l.st ∧
         (c = none → e.counter 0x51 n = (d.counter 0x51 n).add 1 ∧ e.counter 0x50 n = d.counter 0x50 n) ∧
         (∀ x k, c = some (x, k) → e.counter 0x51 n = d.counter 0x51 n ∧ e.counter 0x50 n = if k = 0 then d.counter 0x50 n else (d.counter 0x50 n).add 1)) ∧
     (∀ w : List Nat, (rsSyndromes w).all (· == 0) = true → rsDecode w = some (w, 0)) ∧
     (∀ (a : BitVec 18) (v : Bool) (dir : BitVec 3), l.st = .param → ∃ d', Gives (.linkParam n a v dir) s d' ∧
       (∀ i, i ≠ n → d'.link i = d.link i) ∧ (d'.link n).partner = a ∧ (d'.link n).pvalid = v ∧ (d'.link n).pdir = dir ∧
       ((d.bad.shape = none ∨ v = false) → (d'.link n).miscabled = false) ∧
       (∀ own sh, d.bad.addr = some own → d.bad.shape = some sh → v = true →
         ((d'.link n).miscabled = false ↔ dir.toNat = (if n / 2 % 2 = 0 then n / 2 + 1 else n / 2 - 1) ∧ ∀ i, i < 4 → coord a i = neighbourCoord sh own (n / 2) i)) ∧
       ((d'.link n).miscabled = false → d.rst.st = .ready → (d'.link n).st = .run) ∧
       ((d'.link n).miscabled = true ∨ d.rst.st ≠ .ready → (d'.link n).st = .admitted)))

namespace Sys2Proof.Claims

open Sys2Proof Sys2Proof.Machine

/-- A flit is whole: its CRC-32C holds and no uncorrectable codeword overlaps it (16 R399, R410). -/
def WholeFlit (f : BitVec 1184) : Prop := fld f 1152 32 = (crc32c (leBytes 144 (fld f 0 1152))).toNat

/-- The next transit message of a kind at an engine (16 R415). -/
def CtrlIs (l : Link) (kind : Nat) (p : Packet) (rest : List (Nat × Packet)) : Prop :=
  ∃ pre post, l.ctrl = pre ++ (kind, p) :: post ∧ rest = pre ++ post ∧ ∀ e ∈ pre, e.1 ≠ kind

/-- The next packet of an engine that is no RACK, and what is left behind it (16 R417). -/
def PacketIs (l : Link) (inRx : Bool) (p : LPkt) (rest : List (Bool × LPkt)) : Prop :=
  ∃ pre post, l.rxq = pre ++ (inRx, p) :: post ∧ rest = pre ++ post ∧ p.kind ≠ 2 ∧ ∀ e ∈ pre, e.2.kind = 2

/-- The device once engine n has taken that packet: its place in the receive buffer is free. -/
def takenAt (d : Device) (n : Nat) (inRx : Bool) (p : LPkt) (rest : List (Bool × LPkt)) : Device :=
  let d' := d.setLink n { d.link n with rxq := rest }
  if inRx then d'.freeRx n p else d'

end Sys2Proof.Claims

open Sys2Proof Sys2Proof.Machine Sys2Proof.Claims in
/-- 16 R399, R409-R412, R421: a damaged flit, or one out of sequence, is dropped and named by one NAK; one in sequence joins its packet, whose last flit delivers it; a
NAK brings the kept flits out again, and after the sixteenth time the port retrains; a port in RUN is lost on a missing marker, the partner's DOWN or idle lanes, with its
LAST_DOWN; its directions sleep and wake. Premise: the link table is canonical (CanonicalTables). -/
def Obligations.LinkTraffic : Prop :=
  ∀ (s : State) (n : Nat), n < 16 →
    let d := s.dev
    let l := d.link n
    Sparse.wf Link.reset d.bad.links = true → Sparse.wf Counter.zero d.ctrs = true →
    (∀ f damaged, l.rx.flits.head? ≠ some (f, damaged) → Gives (.linkDataFlit n f damaged) s d) ∧
    (∀ (f : BitVec 1184) (damaged : Bool) fs, l.rx.flits = (f, damaged) :: fs →
      let l' := { l with rx := { l.rx with flits := fs } }
      (l.st ≠ .run → l.st ≠ .admitted → Gives (.linkDataFlit n f damaged) s (d.setLink n l')) ∧
      (l.st = .run ∨ l.st = .admitted →
      (damaged = true ∨ ¬WholeFlit f →
        (l.nakSent = true → Gives (.linkDataFlit n f damaged) s (d.setLink n l')) ∧
        (l.nakSent = false → ∃ d', Gives (.linkDataFlit n f damaged) s d' ∧ OnlyLinks d d' (· = n) ∧
          d'.link n = { l' with nakSent := true, sent := .nak l.rxSeq :: l.sent, tx := (d'.link n).tx } ∧
          (d'.link n).tx = { l.tx with flits := (d'.link n).tx.flits } ∧ ∃ x, (d'.link n).tx.flits = l.tx.flits ++ [x] ∧ fld x 124 4 = 2)) ∧
      (damaged = false → WholeFlit f → 2 < fld f 124 4 → Gives (.linkDataFlit n f damaged) s (d.setLink n l')) ∧
      (damaged = false → WholeFlit f → fld f 124 4 = 1 → fld f 112 12 ≠ l.rxSeq.toNat → ∃ d', Gives (.linkDataFlit n f damaged) s d' ∧
        (d'.link n).rxSeq = l.rxSeq ∧ (d'.link n).rxq = l.rxq ∧ (d'.link n).nakSent = true ∧ ∀ i, i ≠ n → d'.link i = d.link i) ∧
      (damaged = false → WholeFlit f → fld f 124 4 = 1 → fld f 112 12 = l.rxSeq.toNat → fld f 81 2 = 0 → Sparse.find l.rxPart (fld f 87 2) = none →
        some (BitVec.ofNat 18 (fld f 60 18)) = d.bad.addr → d.bad.shape ≠ none → fld f 78 3 ≤ 3 → ∃ (d' : Device) (p : LPkt), Gives (.linkDataFlit n f damaged) s d' ∧
          (d'.link n).rxSeq = l.rxSeq + 1 ∧ (d'.link n).nakSent = false ∧ (d'.link n).rxq = l.rxq ++ [(true, p)] ∧ p.pay = [BitVec.ofNat 1024 (fld f 128 1024)] ∧
          p.kind = fld f 78 3 ∧ p.tag = BitVec.ofNat 16 (fld f 26 16) ∧ p.coll = fld f 18 8 ∧ p.offset = fld f 0 18 ∧ (d'.link n).rx.flits = fs ∧
          (∀ i, i ≠ n → d'.link i = d.link i) ∧ d'.dram = d.dram ∧ d'.hqs = d.hqs))) ∧
    (∀ (seq : BitVec 12), l.st = .run →
      let left := l.retry.filter fun r => seqDone (BitVec.ofNat 12 (fld r 112 12)) seq
      let k := if left.length < l.retry.length then 1 else l.resent + 1
      (left = [] → Gives (.linkNak n seq) s d) ∧
      (left ≠ [] → ∃ d', Gives (.linkNak n seq) s d' ∧ (d'.link n).retry = left ∧ d'.counter 0x52 n = (d.counter 0x52 n).add 1 ∧
        (d'.link n).sent.length = l.sent.length + left.length ∧ (∀ i, i ≠ n → d'.link i = d.link i) ∧
        (k < 16 → (d'.link n).st = .run ∧ (d'.link n).resent = k) ∧
        (16 ≤ k → (d'.link n).st = .acquire ∧ (d'.link n).retrain = true ∧ (d'.link n).resent = 0))) ∧
    (l.live = false → Gives (.linkMarkerLoss n) s d ∧ Gives (.linkDownNotice n) s d ∧ Gives (.linkElectricalIdle n) s d) ∧
    (Drained l → ∀ i cause, (i = .linkMarkerLoss n ∧ cause = 1) ∨ (i = .linkDownNotice n ∧ cause = 3) ∨ (i = .linkElectricalIdle n ∧ cause = 4 ∧ l.rxPow = .run) →
      ∃ d', Gives i s d' ∧ (d'.link n).st = .detect ∧ (d'.link n).lastDown = cause ∧ (d'.link n).credits = [] ∧ (d'.link n).txSeq = 0 ∧ (d'.link n).rxSeq = 0 ∧
        (d'.link n).rxPart = [] ∧ (d'.link n).rxq = l.rxq ∧ (∀ j, j ≠ n → d'.link j = d.link j) ∧
        d'.host.events = (d.raise 0x20 (BitVec.ofNat 64 n) 0).host.events) ∧
    (l.st = .run →
      (l.allowed = true → l.txPow = .run → l.quietTx = true →
        Gives (.linkIdleTimeout n true) s (d.setLink n ({ l with txPow := .damp }.wire .damp)) ∧ ({ l with txPow := .damp }.wire .damp).sent = .damp :: l.sent) ∧
      (l.allowed = false ∨ l.txPow ≠ .run ∨ l.quietTx = false → Gives (.linkIdleTimeout n true) s d) ∧
      (l.rxPow = .run → Gives (.linkIdleTimeout n false) s (d.setLink n { l with rxPow := .damp })) ∧
      (l.allowed = true → l.txPow = .damp → l.rxPow = .damp → l.quietTx = true →
        Gives (.linkDryTimeout n true) s (d.setLink n { l with txPow := .dry, rxPow := .dry }) ∧ Gives (.linkDryTimeout n false) s d) ∧
      (l.rxPow = .damp → l.txPow ≠ .dry → Gives (.linkWake n false true) s (d.setLink n { l with rxPow := .run })) ∧
      (l.txPow = .damp → Gives (.linkWake n true true) s ((d.setLink n { l with txPow := .run }).pump n)) ∧
      (l.txPow = .dry → Gives (.linkWake n false true) s (d.setLink n { l with fromDry := true, st := .acquire, lanes := 0, partnerRdy := false }) ∧
        Gives (.linkWake n true true) s (d.setLink n { l with sent := .wake :: l.sent, fromDry := true, st := .acquire, lanes := 0, partnerRdy := false })))

open Sys2Proof Sys2Proof.Machine Sys2Proof.Claims in
/-- 16 R415, R421: a packet for another port's side of the device asks its egress engine for a slot: TREQ reserves the lowest free one of 768 and grants it, TGRANT sends the payloads to it,
TDATA collects them, and the whole packet joins the egress port's queue. Premise: the tables are canonical (CanonicalTables). -/
def Obligations.LinkTransit : Prop :=
  ∀ (s : State) (n : Nat) (p : Packet) (rest : List (Nat × Packet)), n < 16 →
    let d := s.dev
    let l := d.link n
    let at_ := linkPort n
    Sparse.wf Link.reset d.bad.links = true → Sparse.wf Router.reset d.routers = true → (∀ i, Sparse.wf [] (d.router i).outbox = true) →
    (CtrlIs l 0 p rest →
      (∀ i, i < 768 → (∀ x ∈ l.slots, x.slot ≠ i) → (∀ j, j < i → ∃ x ∈ l.slots, x.slot = j) → ∃ (d' : Device) (k : Packet), Gives (.treq n) s d' ∧
        d'.link n = { l with ctrl := rest, slots := l.slots ++ [⟨i, BitVec.ofNat 128 (fld (p.pay.headD 0) 0 89), []⟩] } ∧ (∀ j, j ≠ n → d'.link j = d.link j) ∧
        Sends d d' at_ none k ∧ k.type = 11 ∧ fld k.hdr 32 3 = 1 ∧ fld k.hdr 16 16 = fld p.hdr 16 16 ∧ fld k.hdr 6 10 = i) ∧
      ((∀ i, i < 768 → ∃ x ∈ l.slots, x.slot = i) → Gives (.treq n) s d)) ∧
    (CtrlIs l 1 p rest →
      (∀ pre tx q e inRx post, l.transit = pre ++ (tx, q, e, inRx) :: post → tx.toNat = fld p.hdr 16 16 → (∀ x ∈ pre ++ post, x.1 ≠ tx) → e < 16 →
        ∃ d', Gives (.tgrant n) s (if inRx then d'.freeRx n q else d') ∧ d'.link n = { l with ctrl := rest, transit := pre ++ post } ∧ (∀ j, j ≠ n → d'.link j = d.link j) ∧
          Sparse.get [] (d'.router at_.r).outbox at_.lp = Sparse.get [] (d.router at_.r).outbox at_.lp ++
            (q.pay.zipIdx.map fun x => (none, mkTransit l.panic 2 at_ (linkPort e) ((fld p.hdr 6 10 <<< 22) + (x.2 <<< 20)) x.1)))) ∧
    (CtrlIs l 2 p rest →
      (∀ pre x post, l.slots = pre ++ x :: post → x.slot = fld p.hdr 22 10 → (∀ y ∈ pre ++ post, y.slot ≠ x.slot) →
        let got := Sparse.ins x.got (fld p.hdr 20 2) (p.pay.headD 0)
        let k : LPkt := ⟨x.hdr, got.map (·.2)⟩
        (got.length < k.flits → ∃ d', Gives (.tdata n) s d' ∧ d'.link n = { l with ctrl := rest, slots := pre ++ { x with got := got } :: post } ∧
          d'.routers = d.routers ∧ ∀ j, j ≠ n → d'.link j = d.link j) ∧
        (k.flits ≤ got.length → l.live = true →
          Gives (.tdata n) s ((d.setLink n { l with ctrl := rest, slots := pre ++ post, txq := l.txq ++ [k] }).pump n)) ∧
        (k.flits ≤ got.length → l.live = false → Gives (.tdata n) s ((d.setLink n { l with ctrl := rest, slots := pre ++ post }).routeFrom n k))))

open Sys2Proof Sys2Proof.Machine Sys2Proof.Claims in
/-- 16 R417-R421: an engine takes SRCQ entries, receives pieces into a window or into a ring's buffer, combined where it reduces, pushes to DSTQ, and answers each packet
with a RACK; a RACK acknowledges, asks for a resend, or fails the collective, as does one that stays away; the failure's token goes to DSTQ. What happens beside the rule, as the entry a ring
refuses, is log entry 51. -/
def Obligations.Collectives : Prop :=
  ∀ (s : State) (n c : Nat) (x : Coll), n < 16 → c < 64 →
    let d := s.dev
    let l := d.link n
    Sparse.wf Link.reset d.bad.links = true →
    (∀ inRx p rest, PacketIs l inRx p rest →
      let t := takenAt d n inRx p rest
      (d.coll p.coll = none → (p.kind = 0 → Acts (.rwrite n) s (t.sendRack n p .notReady)) ∧ (p.kind = 1 → Gives (.rpush n) s (t.sendRack n p .notReady)) ∧
        (p.kind = 3 → Acts (.cdata n) s (t.sendRack n p .notReady))) ∧
      (d.coll p.coll = some x → x.failed = true → (p.kind = 0 → Acts (.rwrite n) s t) ∧ (p.kind = 1 → Gives (.rpush n) s t) ∧ (p.kind = 3 → Acts (.cdata n) s t)) ∧
      (d.coll p.coll = some x → x.failed = false →
        (p.kind = 0 → x.kind = 1 → x.pos = 1 → 128 * p.offset + 128 * p.flits ≤ x.wlen →
          ∀ st e, t.agentWrite (x.window + 128 * p.offset) (bytesOf p.pay) = (st, e) → Acts (.rwrite n) s (e.sendRack n p st)) ∧
        (p.kind = 1 → x.kind = 1 → x.pos = 1 →
          let e : Word := BitVec.ofNat 64 ((p.pay.headD 0).toNat % 2 ^ 64)
          (fld e 62 2 = 1 → fld e 32 30 = 0 →
            (256 ≤ (d.hq x.dstq).entries.length → Gives (.rpush n) s (t.sendRack n p .notReady)) ∧
            ((d.hq x.dstq).entries.length < 256 → (d.hq x.dstq).parked = [] →
              Gives (.rpush n) s ((t.setHq x.dstq { d.hq x.dstq with entries := (d.hq x.dstq).entries ++ [⟨e, none⟩] }).sendRack n p .success))) ∧
          (2 ≤ fld e 62 2 → validEntry e = true → x.window + x.slot * x.seg < 2 ^ 39 → (d.hq x.dstq).entries.length < 256 → (d.hq x.dstq).parked = [] →
            ∃ (h : Word) (k : Nat), fld h 62 2 = 3 ∧ fld h 29 33 = (x.window + x.slot * x.seg) / 64 ∧
              Gives (.rpush n) s (((({ t with free := k } : Device).setHq x.dstq { d.hq x.dstq with entries := (d.hq x.dstq).entries ++ [⟨h, none⟩] }).setColl p.coll
                { x with slot := (x.slot + 1) % (x.wlen / x.seg) }).sendRack n p .success))) ∧
        (p.kind = 3 → x.kind = 2 → ∀ e, x.entry = some e →
          let off := 128 * p.offset
          let seg := off / x.seg
          let at_ := fld e 29 33 * 64 + off
          let u := upFrom (((x.stepOf seg - 1) * x.seg + off % x.seg) / 128) p.flits
          fld e 62 2 = 3 → seg < x.n → x.stepOf seg ≠ 0 → off % x.seg + 128 * p.flits ≤ x.seg → (∀ i ∈ u, i ∉ x.got) →
          ∀ old t1 t2, t.agentRead at_ (128 * p.flits) = (.success, old, t1) → t1.agentWrite at_ (collCombine x.fmt x.op (bytesOf p.pay) old) = (.success, t2) →
            Acts (.cdata n) s (((t2.setColl p.coll { x with got := u.foldl (fun l k => insNat k l) x.got }).sendRack n p .success).collGo p.coll)))) ∧
    (∀ a b, a < 2 ^ 32 → b < 2 ^ 32 →
      sext 32 (collElem 3 0 a b) = max (-2147483648) (min 2147483647 (sext 32 a + sext 32 b)) ∧ sext 32 (collElem 3 1 a b) = max (sext 32 a) (sext 32 b) ∧
      sext 32 (collElem 3 2 a b) = min (sext 32 a) (sext 32 b)) ∧
    (∀ inRx p pre post, l.rxq = pre ++ (inRx, p) :: post → p.kind = 2 → (∀ e ∈ pre, e.2.kind ≠ 2) →
      let t := takenAt d n inRx p (pre ++ post)
      (d.coll p.coll = none → Acts (.rack n) s t) ∧
      (∀ ua k ub, d.coll p.coll = some x → x.unacked = ua ++ (p.tag, k) :: ub → (∀ e ∈ ua ++ ub, e.1 ≠ p.tag) → x.failed = false →
        let y := { x with unacked := ua ++ ub }
        (fld p.hdr 0 8 = 0 → Acts (.rack n) s ((t.setColl p.coll y).collGo p.coll)) ∧
        (fld p.hdr 0 8 = 0x12 → Acts (.rack n) s (t.setColl p.coll { y with resend := y.resend ++ [k] })) ∧
        (fld p.hdr 0 8 = 0x40 → Acts (.rack n) s ((t.setColl p.coll y).collFail p.coll .linkDown)))) ∧
    (d.coll c = some x →
      (x.resend = [] → x.unacked = [] → Gives (.rackResendTimer c) s (d.setColl c x) ∧ Gives (.collectiveRackTimeout c) s d) ∧
      (∀ p e, x.resend = [p] → d.wayOf p = .port e →
        Gives (.rackResendTimer c) s ((d.setColl c { x with resend := [], unacked := x.unacked ++ [(p.tag, p)] }).handOver x.port e p false)) ∧
      (x.unacked ≠ [] → x.failed = false → x.out = [] → (d.hq x.dstq).entries.length < 256 → (d.hq x.dstq).parked = [] → Sparse.wf HQueue.reset d.hqs = true →
        ∃ d', Gives (.collectiveRackTimeout c) s d' ∧ d'.coll c = some { x with failed := true, unacked := [], resend := [] } ∧
          (d'.hq x.dstq).entries = (d.hq x.dstq).entries ++ [⟨BitVec.ofNat 64 (2 ^ 62 + 0x80000061), none⟩] ∧
          (∀ q, q ≠ x.dstq → d'.hq q = d.hq q) ∧ d'.tiles = d.tiles ∧ d'.dram = d.dram) ∧
      (x.failed = false → ¬(x.kind = 1 ∧ x.pos = 1) → x.entry = none → ∀ e d1, d.popNow x.srcq = some (e, d1) →
        (x.kind = 1 → fld e 62 2 = 1 → Acts (.collectiveSrcPop c) s ((d1.setColl c { x with entry := some e }).collGo c)) ∧
        (x.kind = 2 → fld e 62 2 = 3 → Acts (.collectiveSrcPop c) s ((d1.setColl c { x with entry := some e }).collGo c)) ∧
        (x.kind = 1 → 2 ≤ fld e 62 2 → (handleBuf e).2 ≤ x.seg → x.credit = false → ∀ y d2, (d1.setColl c { x with entry := some e }).popNow x.freeq = some (y, d2) →
          Acts (.collectiveSrcPop c) s ((d2.setColl c { x with entry := some e, credit := true }).collGo c))))

namespace Sys2Proof.Claims

open Sys2Proof Sys2Proof.Machine

/-- Queue q may be granted a fetch (08 R201): it is ACTIVE and holds an entry, the rings and the in-flight table have room for its completion, queue 0 keeping 16
slots for event records and 32 places of the table for itself. -/
def Grantable (d : Device) (q : Nat) : Prop :=
  let x := d.queue q
  let own := (d.host.inflight.filter fun c => c.q == q).length
  let queue0 := (d.host.inflight.filter fun c => c.q == 0).length
  let slots := (x.cqHead.toNat + (x.cqSize.toNat + 1) - x.cqTail.toNat - 1) % (x.cqSize.toNat + 1)
  x.st = .active ∧ x.sqHead ≠ x.sqTail ∧ d.host.inflight.length < 2048 ∧
  (q = 0 → own + (16 - d.host.evSlots.length) < slots) ∧ (q ≠ 0 → own < slots ∧ d.host.inflight.length - queue0 < 2016)

/-- Queue q is the one of class c granted next: the first that may be, after the one served last (08 R202). -/
def FirstQueueOf (d : Device) (c q : Nat) : Prop :=
  ∃ i, i < 64 ∧ q = (d.host.arb.lastOf c + 1 + i) % 64 ∧ (d.queue q).cls.toNat = c ∧ Grantable d q ∧
    ∀ j, j < i → ¬((d.queue ((d.host.arb.lastOf c + 1 + j) % 64)).cls.toNat = c ∧ Grantable d ((d.host.arb.lastOf c + 1 + j) % 64))

/-- No queue of class c may be granted. -/
def NoneOf (d : Device) (c : Nat) : Prop := ∀ q, q < 64 → ¬((d.queue q).cls.toNat = c ∧ Grantable d q)

/-- The arbiter grants queue q of class c, which has n grants of its turn left before this one (08 R202): the class in turn as long as it has grants and a queue,
otherwise the classes after it in order, each with its weight. -/
inductive Granted (d : Device) (q : Nat) : Nat → Nat → Prop
  | same : d.host.arb.left ≠ 0 → FirstQueueOf d d.host.arb.cls q → Granted d q d.host.arb.cls d.host.arb.left
  | second (c : Nat) : c = (d.host.arb.cls + 1) % 3 → (d.host.arb.left = 0 ∨ NoneOf d d.host.arb.cls) → d.host.weight c ≠ 0 → FirstQueueOf d c q →
      Granted d q c (d.host.weight c)
  | third (b c : Nat) : b = (d.host.arb.cls + 1) % 3 → c = (d.host.arb.cls + 2) % 3 → (d.host.arb.left = 0 ∨ NoneOf d d.host.arb.cls) →
      (d.host.weight b = 0 ∨ NoneOf d b) → d.host.weight c ≠ 0 → FirstQueueOf d c q → Granted d q c (d.host.weight c)
  | again (a b c : Nat) : a = (d.host.arb.cls + 1) % 3 → b = (d.host.arb.cls + 2) % 3 → c = d.host.arb.cls % 3 → d.host.arb.left = 0 →
      (d.host.weight a = 0 ∨ NoneOf d a) → (d.host.weight b = 0 ∨ NoneOf d b) → d.host.weight c ≠ 0 → FirstQueueOf d c q → Granted d q c (d.host.weight c)

/-- An opcode is allocated and permitted on queue q (08 R204). -/
def Permitted (op q : Nat) : Prop :=
  op ∈ [0, 1, 2, 0x10, 0x11, 0x12, 0x13, 0x20, 0x21, 0x22, 0x23, 0x24, 0x30, 0x31, 0x32, 0x33, 0x34, 0x35, 0x36, 0x40, 0x41, 0x42, 0x43, 0x50, 0x51, 0x52, 0x60] ∨
  (q = 0 ∧ op ∈ [3, 4, 5, 6, 7, 8, 9, 0x53, 0x54, 0x55, 0x61, 0x62, 0x63])

/-- The command of queue q that a submission entry of 64 bytes spells (08 R197). -/
def Spelt (c : Cmd) (q : Nat) (l : List Byte) : Prop :=
  c.q = q ∧ c.op = l.getD 0 0 ∧ c.order = bitAt (l.getD 1 0) 0 ∧ c.noint = bitAt (l.getD 1 0) 1 ∧ c.tag.toNat = leAt l 2 2 ∧
  (∀ i, i < 7 → c.pw (i + 1) = BitVec.ofNat 64 (leAt l (8 + 8 * i) 8)) ∧ c.p.length = 7 ∧ c.st = .queued ∧ c.discard = false ∧ c.held = none ∧ c.counts = (0, 0)

/-- OP of its own field that no form of the opcode has (08 R205, R215, R217), and the byte it stands in. -/
def NoForm (c : Cmd) (off : Nat) : Prop :=
  (c.op = 0x05 ∧ fld (c.pw 1) 0 2 = 3 ∧ off = 8) ∨ (c.op = 0x40 ∧ 4 < fld (c.pw 2) 0 3 ∧ off = 16) ∨ (c.op = 0x63 ∧ fld (c.pw 1) 0 2 = 3 ∧ off = 8)

/-- Messages may be sent: MSI-X is enabled and the function not masked, the link is up, bus mastering on, the function in D0 (08 R225, 15 R384, R385). -/
def MayInterrupt (d : Device) : Prop := d.cxl.up = true ∧ d.cxl.bme = true ∧ d.cxl.d3 = false ∧ d.cxl.msixEn = true ∧ d.cxl.msixMask = false

/-- The message of vector v goes out with the data of its table entry, if it is not masked and messages may be sent; otherwise it is pending (08 R225). -/
def Signals (d d' : Device) (v : Nat) : Prop :=
  let m := d.host.msix
  (bitAt m.unmasked v = true ∧ MayInterrupt d →
    (∃ a : Word, fld a 0 32 = (Sparse.get 0 m.table (4 * v)).toNat ∧ fld a 32 32 = (Sparse.get 0 m.table (4 * v + 1)).toNat ∧
      d'.host.msix.sent = (v, a, Sparse.get 0 m.table (4 * v + 2)) :: m.sent) ∧ bitAt d'.host.msix.pba v = false) ∧
  (¬(bitAt m.unmasked v = true ∧ MayInterrupt d) → d'.host.msix.sent = m.sent ∧ bitAt d'.host.msix.pba v = true)

end Sys2Proof.Claims

open Sys2Proof Sys2Proof.Machine Sys2Proof.Claims in
/-- 08 R189, R190, R193, R194, R225, 15 R384, R394: writes of BAR0. Queue 0's bases and Q_CFG are written while it is disabled; setting ENABLE checks them and makes the queue ACTIVE
or leaves it DISABLED with INVALID_PARAM; clearing ENABLE discards its commands; a doorbell moves SQ_TAIL or CQ_HEAD, or is ignored, counted and reported; the MSI-X table
and its masks are written; unmasking a pending vector sends its message; nothing else is written, by no other size, and not while the link is down, memory space
disabled, in D3 or in RESET. -/
def Obligations.RegisterWrites : Prop :=
  ∀ (s : State) (v : Word) (q : Nat) (w : BitVec 32), q < 64 →
    let d := s.dev
    let x := d.queue 0
    let y := d.queue q
    let served := d.cxl.up = true ∧ d.cxl.mse = true ∧ d.cxl.d3 = false ∧ d.rst.st ≠ .reset
    let good := GoodBase d x.sqBase ∧ GoodBase d x.cqBase ∧ GoodCfg v
    let configured := { x with
      vector := BitVec.ofNat 6 (fld v 50 6), ien := bitAt v 49, coalCount := BitVec.ofNat 8 (fld v 40 8), coalTime := BitVec.ofNat 12 (fld v 28 12)
      cqSize := BitVec.ofNat 12 (fld v 16 12), sqSize := BitVec.ofNat 12 (fld v 0 12) }
    let bad := fun (cq : Nat) => (d.bump 2 q 1).raise 3 (BitVec.ofNat 64 (q + 64 * cq + 65536 * fld w 0 12)) 0
    (¬served → ∀ off size, Gives (.registerWrite off size v) s d ∧ Gives (.qEnable v) s d ∧ Gives (.qDisable v) s d ∧ Gives (.sqTailDoorbell q w) s d ∧
      Gives (.cqHeadDoorbell q w) s d) ∧
    (x.enable = true ∨ bitAt v 63 = false → Gives (.qEnable v) s d) ∧
    (served → x.enable = false → bitAt v 63 = true →
      (¬good → Gives (.qEnable v) s (d.setQueue 0 { configured with enable := true, st := .disabled, error := 0x11 })) ∧
      (good → Gives (.qEnable v) s { d.setQueue 0 (freshQueue x v (d.time 0)) with
          host := { (d.setQueue 0 (freshQueue x v (d.time 0))).host with evSlots := [], fetchStopped := false } })) ∧
    (x.enable = false ∨ bitAt v 63 = true → Gives (.qDisable v) s d) ∧
    (served → x.enable = true → bitAt v 63 = false → Sparse.wf HostQueue.reset d.host.queues = true → ∃ d', Gives (.qDisable v) s d' ∧
      d'.queue 0 = { x with enable := false, st := .disabled } ∧ (∀ i, i ≠ 0 → d'.queue i = d.queue i) ∧
      d'.host.inflight = d.host.inflight.map fun c => if c.q = 0 then { c with discard := true } else c) ∧
    (served →
      (y.st ≠ .active ∨ y.sqSize.toNat < fld w 0 12 → Gives (.sqTailDoorbell q w) s (bad 0)) ∧
      (y.st = .active → fld w 0 12 ≤ y.sqSize.toNat → Gives (.sqTailDoorbell q w) s (d.setQueue q { y with sqTail := BitVec.ofNat 12 (fld w 0 12) })) ∧
      (y.st ≠ .active ∨ y.cqSize.toNat < fld w 0 12 → Gives (.cqHeadDoorbell q w) s (bad 1)) ∧
      (q ≠ 0 → y.st = .active → fld w 0 12 ≤ y.cqSize.toNat →
        Gives (.cqHeadDoorbell q w) s (d.setQueue q { y with cqHead := BitVec.ofNat 12 (fld w 0 12) })) ∧
      (q = 0 → y.st = .active → fld w 0 12 ≤ y.cqSize.toNat → ∃ d', Gives (.cqHeadDoorbell q w) s d' ∧
        d' = { d.setQueue 0 { y with cqHead := BitVec.ofNat 12 (fld w 0 12) } with host := { (d.setQueue 0 { y with cqHead := BitVec.ofNat 12 (fld w 0 12) }).host with
          evSlots := d'.host.evSlots } } ∧
        ∀ k, k ∈ d'.host.evSlots ↔ k ∈ d.host.evSlots ∧ (k + (y.cqSize.toNat + 1) - fld w 0 12) % (y.cqSize.toNat + 1) <
          (y.cqTail.toNat + (y.cqSize.toNat + 1) - fld w 0 12) % (y.cqSize.toNat + 1))) ∧
    (served →
      (x.enable = true → Gives (.registerWrite 0x10000 8 v) s d ∧ Gives (.registerWrite 0x10008 8 v) s d) ∧
      (x.enable = false → Gives (.registerWrite 0x10000 8 v) s (d.setQueue 0 { x with sqBase := v }) ∧
        Gives (.registerWrite 0x10008 8 v) s (d.setQueue 0 { x with cqBase := v }) ∧
        (bitAt v 63 = false → Gives (.registerWrite 0x10010 8 v) s (d.setQueue 0 configured)) ∧
        Gives (.registerWrite 0x10000 4 v) s (d.setQueue 0 { x with sqBase := BitVec.ofNat 64 (fld x.sqBase 32 32 * 2 ^ 32 + fld v 0 32) }) ∧
        Gives (.registerWrite 0x10004 4 v) s (d.setQueue 0 { x with sqBase := BitVec.ofNat 64 (fld v 0 32 * 2 ^ 32 + fld x.sqBase 0 32) })) ∧
      (x.enable = false → bitAt v 63 = true → exec (.registerWrite 0x10010 8 v) s = exec (.qEnable v) s) ∧
      (x.enable = true → exec (.registerWrite 0x10010 8 v) s = exec (.qDisable v) s) ∧
      (let low := BitVec.ofNat 32 (fld v 0 32)
       exec (.registerWrite (0x100000 + 0x1000 * q) 4 v) s = exec (.sqTailDoorbell q low) s ∧
       exec (.registerWrite (0x100004 + 0x1000 * q) 4 v) s = exec (.cqHeadDoorbell q low) s ∧
       (∀ d1, Gives (.sqTailDoorbell q low) s d1 →
         exec (.registerWrite (0x100000 + 0x1000 * q) 8 v) s = exec (.cqHeadDoorbell q (BitVec.ofNat 32 (fld v 32 32))) { s with dev := d1 }) ∧
       (∀ k, k < 3 → Gives (.registerWrite (0x200000 + 16 * q + 4 * k) 4 v) s
         { d with host := { d.host with msix := { d.host.msix with table := Sparse.put 0 d.host.msix.table (4 * q + k) low } } }) ∧
       exec (.registerWrite (0x20000C + 16 * q) 4 v) s = exec (.msixMaskWrite q (bitAt v 0)) s) ∧
      (∀ off, off % 8 = 0 → off ∉ [0x10000, 0x10008, 0x10010] → ¬(0x100000 ≤ off ∧ off < 0x140000) → ¬(0x200000 ≤ off ∧ off < 0x200400) →
        Gives (.registerWrite off 8 v) s d ∧ Gives (.registerWrite off 4 v) s d ∧ Gives (.registerWrite (off + 4) 4 v) s d) ∧
      (∀ off size, size ≠ 4 → size ≠ 8 → Gives (.registerWrite off size v) s d) ∧
      (∀ off, off % 4 ≠ 0 → Gives (.registerWrite off 4 v) s d) ∧ (∀ off, off % 8 ≠ 0 → Gives (.registerWrite off 8 v) s d)) ∧
    (∃ d', Gives (.msixMaskWrite q true) s d' ∧ d' = { d with host := { d.host with msix := { d.host.msix with unmasked := d'.host.msix.unmasked } } } ∧
      ∀ i, i < 64 → bitAt d'.host.msix.unmasked i = (if i = q then false else bitAt d.host.msix.unmasked i)) ∧
    (∃ d', Gives (.msixMaskWrite q false) s d' ∧ (∀ i, i < 64 → bitAt d'.host.msix.unmasked i = (if i = q then true else bitAt d.host.msix.unmasked i)) ∧
      (bitAt d.host.msix.pba q = false → d'.host.msix.pba = d.host.msix.pba ∧ d'.host.msix.sent = d.host.msix.sent) ∧
      (bitAt d.host.msix.pba q = true → MayInterrupt d →
        (∃ a u, d'.host.msix.sent = (q, a, u) :: d.host.msix.sent) ∧ bitAt d'.host.msix.pba q = false) ∧
      (bitAt d.host.msix.pba q = true → ¬MayInterrupt d → d'.host.msix.sent = d.host.msix.sent ∧ bitAt d'.host.msix.pba q = true) ∧
      d'.host.queues = d.host.queues ∧ d'.hostMem = d.hostMem)

open Sys2Proof Sys2Proof.Machine Sys2Proof.Claims in
/-- 08 R194, R197, R200-R204, R224, R225, R228: COMMAND_FETCH grants a queue as the weights and the round robin say, and takes the entry at SQ_HEAD; an opcode that is not permitted, a
reserved flag, a TAG in use and an OP of no form complete at once; an entry that cannot be read stops its queue. EVENT_POST writes the oldest record to queue 0's ring and
signals it; the coalescing timer signals what waits. Premise: the queue table is canonical (CanonicalTables). -/
def Obligations.FetchAndEvents : Prop :=
  ∀ (s : State), Sparse.wf HostQueue.reset s.dev.host.queues = true →
    let d := s.dev
    let open_ := d.host.fetchStopped = false ∧ d.cxl.up = true ∧ d.cxl.bme = true ∧ d.cxl.d3 = false ∧ d.rst.st ≠ .reset
    (¬open_ → Gives .commandFetch s d) ∧
    ((∀ q, q < 64 → ¬Grantable d q) → Gives .commandFetch s d) ∧
    (∀ q c n st l d1, open_ → Granted d q c n → c < 3 → d.ringRead ((d.queue q).sqBase + BitVec.ofNat 64 (64 * (d.queue q).sqHead.toNat)) 64 = (st, l, d1) →
      let x := d.queue q
      let x' := { x with sqHead := if x.sqHead = x.sqSize then 0 else x.sqHead + 1, tf := d.time 0, hint := BitVec.ofNat 32 (leAt l 4 4) }
      let turn := fun (d' : Device) => d'.host.arb.cls = c ∧ d'.host.arb.left = n - 1 ∧ d'.host.arb.lastOf c = q ∧
        ∀ b, b < 3 → b ≠ c → d'.host.arb.lastOf b = d.host.arb.lastOf b
      (st ≠ .success → ∃ d', Gives .commandFetch s d' ∧ d'.queue q = { x with st := .stopped, error := BitVec.ofNat 8 st.code } ∧
        (∀ j, j ≠ q → d'.queue j = d.queue j) ∧ d'.host.inflight = d.host.inflight ∧ turn d' ∧
        d'.host.events = (d1.raise 2 (BitVec.ofNat 64 (q + 256 * st.code)) 0).host.events) ∧
      (st = .success → ∀ k, Spelt k q l →
        (d.cmdOf q k.tag.toNat = none →
          (Permitted k.op.toNat q → fld (l.getD 1 0) 2 6 = 0 → (∀ off, ¬NoForm k off) → ∃ d', Gives .commandFetch s d' ∧ d'.queue q = x' ∧
            (∀ j, j ≠ q → d'.queue j = d.queue j) ∧ d'.host.inflight = d.host.inflight ++ [k] ∧ turn d' ∧ d'.host.horizon = d'.newHorizon ∧ d'.hostMem = d.hostMem ∧ d'.tiles = d.tiles) ∧
          (∀ p : Cpl, (¬Permitted k.op.toNat q ∧ p = cplOf .invalidOpcode) ∨ (Permitted k.op.toNat q ∧ fld (l.getD 1 0) 2 6 ≠ 0 ∧ p = cplBad 1) ∨
              (Permitted k.op.toNat q ∧ fld (l.getD 1 0) 2 6 = 0 ∧ ∃ off, NoForm k off ∧ p = cplBad off) →
            ∃ d' : Device, Gives .commandFetch s (d'.finish k (if k.op = 0x21 then { p with r0 := BitVec.ofNat 64 (0xFFFFFFFF * 2 ^ 32) } else p)) ∧ d'.queue q = x' ∧ (∀ j, j ≠ q → d'.queue j = d.queue j) ∧
              d'.host.inflight = d.host.inflight ++ [k] ∧ turn d')) ∧
        (d.cmdOf q k.tag.toNat ≠ none → ∃ d', Gives .commandFetch s d' ∧ d'.host.inflight = d.host.inflight ∧ (∀ j, j ≠ q → d'.queue j = d.queue j) ∧
          (d'.queue q).sqHead = x'.sqHead ∧ turn d'))) ∧
    (let x := d.queue 0
     let host := bitAt x.cqBase 63
     let away := host = true ∧ d.cxl.lost = true ∧ d.cxl.up = false
     let fits := d.cxl.d3 = false ∧ x.st = .active ∧ d.host.evSlots.length < 16 ∧
       (d.host.inflight.filter fun c => c.q == 0).length < (x.cqHead.toNat + (x.cqSize.toNat + 1) - x.cqTail.toNat - 1) % (x.cqSize.toNat + 1) ∧
       (host = true → d.cxl.up = true ∧ d.cxl.bme = true ∧ d.cxl.d3 = false)
     (d.host.events = [] → Gives .eventPost s d) ∧
     (∀ e rest, d.host.events = e :: rest →
       (away → ∃ d', Gives .eventPost s d' ∧ d'.host.events = rest ∧ d'.cxl.discarded = d.cxl.discarded + 1 ∧ d'.host.queues = d.host.queues ∧ d'.hostMem = d.hostMem ∧
         d'.dram = d.dram) ∧
       (¬away → ¬fits → Gives .eventPost s d) ∧
       (¬away → fits → ∃ d', Gives .eventPost s d' ∧
         let entry := leBytes 2 0 ++ leBytes 1 0 ++ leBytes 1 (b2n x.cqPhase + 2) ++ leBytes 2 x.sqHead.toNat ++ leBytes 2 e.code ++
           leBytes 8 e.r0.toNat ++ leBytes 8 e.r1.toNat ++ leBytes 8 d.host.lost.toNat
         d'.host.events = rest ∧ d'.host.lost = 0 ∧ d'.host.evSlots = d.host.evSlots ++ [x.cqTail.toNat] ∧ d'.host.inflight = d.host.inflight ∧
         (host = true → d'.hostMem = d.hostMem.write (fld x.cqBase 0 63 + 32 * x.cqTail.toNat) entry ∧ d'.dram = d.dram) ∧
         (host = false → d'.hostMem = d.hostMem ∧ d'.dram = (d.dramWrite (fld x.cqBase 0 44 + 32 * x.cqTail.toNat) entry).2.dram) ∧
         (d'.queue 0).cqTail = (if x.cqTail = x.cqSize then 0 else x.cqTail + 1) ∧ (d'.queue 0).cqPhase = (if x.cqTail = x.cqSize then !x.cqPhase else x.cqPhase) ∧
         (d'.queue 0).coalPosted = 0 ∧ (∀ j, j ≠ 0 → d'.queue j = d.queue j) ∧
         (x.ien = true → Signals d d' x.vector.toNat) ∧ (x.ien = false → d'.host.msix = d.host.msix)))) ∧
    (∀ q, q < 64 →
      let x := d.queue q
      (x.coalTime = 0 ∨ x.coalPosted = 0 → Gives (.coalTimer q) s d) ∧
      (x.coalTime ≠ 0 → x.coalPosted ≠ 0 → ∃ d', Gives (.coalTimer q) s d' ∧ d'.queue q = { x with coalPosted := 0 } ∧ (∀ j, j ≠ q → d'.queue j = d.queue j) ∧
        d'.host.inflight = d.host.inflight ∧ (x.ien = true → Signals d d' x.vector.toNat) ∧ (x.ien = false → d'.host.msix = d.host.msix)))

namespace Sys2Proof.Claims

open Sys2Proof Sys2Proof.Machine

/-- A debug token answers the open challenge for this device: its challenge, serial and reserved bytes hold, and a key of its class verifies it: for class 1
the owner key, or the key of certificate 4 where no owner key is accepted; for class 2 that of certificate 3 (17 R438). -/
def GoodToken (d : Device) (t : List Byte) : Prop :=
  d.sec.challenge = some (t.take 16) ∧ leAt t 0x10 8 = d.fuses.serial.toNat ∧ (∀ i, i < 39 → t.getD (0x19 + i) 0 = 0) ∧
  ∃ key, sigOk key lblDbg (t.take 64) (t.drop 64) = true ∧
    ((leAt t 0x18 1 = 1 ∧ d.ownerKey ≠ [] ∧ key ∈ d.ownerKey) ∨ (leAt t 0x18 1 = 1 ∧ d.ownerKey = [] ∧ key ∈ d.slotKey d.certSlot 4) ∨
      (leAt t 0x18 1 = 2 ∧ key ∈ d.slotKey d.certSlot 3))

/-- A challenge of 16 bytes is given to the command of queue q with tag g: 16 bytes no rule fixes (log entry 2). -/
def Challenges (how : Device → Prop) (d : Device) (q g : Nat) : Prop :=
  ∃ (l : List Byte) (n : Nat), l.length = 16 ∧ how (({ d with free := n, sec := { d.sec with challenge := some l } }).complete q g
    (cpl .success (BitVec.ofNat 64 (leAt l 0 8)) (BitVec.ofNat 64 (leAt l 8 8)) 0))

end Sys2Proof.Claims

open Sys2Proof Sys2Proof.Machine Sys2Proof.Claims in
/-- 08 R205, 17 R428, R433, R434, R436-R438: ATTEST writes the signed report or is refused without an identity; GET_MEASUREMENTS and GET_CERT write entries and a certificate; FW_STAGE
writes an image to the slot not in force; FW_ACTIVATE checks a slot and selects it; DEBUG_UNLOCK gives a challenge and takes a token, which opens a session or starts
the delay. Premise: the flash is canonical (CanonicalTables). What FW_STAGE writes beside the image is log entry 47. -/
def Obligations.SecurityCommands : Prop :=
  ∀ (s : State) (c : Cmd),
    let d := s.dev
    let g := c.tag.toNat
    let b := bitAt (c.pw 1) 0
    (Starts d 0x50 c → Plain c [addrMask (c.pw 1), 0xFFFFFFFFFFFFFFFF, 0xFFFFFFFFFFFFFFFF, 0xFFFFFFFFFFFFFFFF, 0xFFFFFFFFFFFFFFFF] →
      (d.sec.identity = false → Acts (.attest c.q g) s (d.finish c (cplOf .authFailed))) ∧
      (d.sec.identity = true → ∃ head : List Byte,
        Outputs (.attest c.q g) s { d with free := d.free + 1 } c 8 (c.pw 1) (head ++ Config.falconSign d.free (lblRpt ++ Config.shake256 head 64)) (cpl .success 1536 0 0) ∧
        leAt head 0 4 = 0xAE17A77E ∧ leAt head 4 2 = 1 ∧ leAt head 8 8 = d.fuses.serial.toNat ∧ leAt head 0x14 4 = d.sec.fwVersion.toNat ∧
        leAt head 0x18 4 = d.sec.count % 2 ^ 32 ∧ (∀ i, i < 4 → leAt head (0x20 + 8 * i) 8 = (c.pw (2 + i)).toNat) ∧ (head.drop 0x40).take d.sec.chain.length = d.sec.chain)) ∧
    (Starts d 0x51 c → Plain c [addrMask (c.pw 1), 0xFFFFFFFF] →
      let l := (d.sec.log.drop (fld (c.pw 2) 0 16)).take (fld (c.pw 2) 16 16)
      Outputs (.getMeasurements c.q g) s d c 8 (c.pw 1) l.flatten (cpl .success (BitVec.ofNat 64 l.length) (BitVec.ofNat 64 d.sec.count) 0)) ∧
    (Starts d 0x52 c → Plain c [addrMask (c.pw 1), 0xFFFF000F] →
      (4 < fld (c.pw 2) 0 4 → Acts (.getCert c.q g) s (d.finish c (cplBad 16))) ∧
      (fld (c.pw 2) 0 4 ≤ 4 → 1024 * fld (c.pw 2) 16 16 < 3200 → Acts (.getCert c.q g) s (d.finish c (cpl .success 0 3200 0))) ∧
      (fld (c.pw 2) 0 4 ≤ 4 → 3200 ≤ 1024 * fld (c.pw 2) 16 16 →
        Outputs (.getCert c.q g) s d c 8 (c.pw 1) (d.cert (fld (c.pw 2) 0 4)) (cpl .success 3200 3200 0) ∧ (d.cert (fld (c.pw 2) 0 4)).length = 3200)) ∧
    (Starts d 0x53 c → Plain c [addrMask (c.pw 1), 0xFFFFFFFF, 1] →
      let slot := bitAt (c.pw 3) 0
      let busy := 0 ∈ d.sec.fwOk ∧ (0 ∈ d.sec.slotB ↔ slot = true)
      (d.rst.st = .diagHold → bitAt (c.pw 1) 63 = false → Acts (.fwStage c.q g) s (d.finish c (cplBad 8))) ∧
      (¬(d.rst.st = .diagHold ∧ bitAt (c.pw 1) 63 = false) → busy → Acts (.fwStage c.q g) s (d.finish c (cplOf .busy))) ∧
      (¬(d.rst.st = .diagHold ∧ bitAt (c.pw 1) 63 = false) → ¬busy →
        (∀ p d1, d.readImage true (d.slotKey d.certSlot 3) (c.pw 1) (fld (c.pw 2) 0 32) = (.error p, d1) → Acts (.fwStage c.q g) s (d1.finish c p)) ∧
        (∀ img d1, d.readImage true (d.slotKey d.certSlot 3) (c.pw 1) (fld (c.pw 2) 0 32) = (.ok img, d1) → Sparse.wf 0xFF d.flash = true →
          ∃ d2 : Device, Acts (.fwStage c.q g) s (d2.finish c (cplOf .success)) ∧ d2 = { d1 with flash := d2.flash } ∧
            let base := if slot then 0x3100000 else 0x0100000
            d2.flashRead (base + 0x3000) img.length = img ∧ (∀ role ∈ [0, 3, 4], d2.slotCert slot role = d.slotCert d.certSlot role) ∧
            ∀ a, a / 65536 < base / 65536 ∨ (base + 0x3000 + img.length - 1) / 65536 < a / 65536 →
              Sparse.get 0xFF d2.flash a = Sparse.get 0xFF d.flash a))) ∧
    (Starts d 0x54 c → Plain c [0x101] →
      (d.slotImage b = .error .invalidParam → Acts (.fwActivate c.q g) s (d.finish c (cplStruct 7 0))) ∧
      (∀ st, st ≠ .invalidParam → d.slotImage b = .error st → Acts (.fwActivate c.q g) s (d.finish c (cplOf st))) ∧
      (∀ img, d.slotImage b = .ok img →
        let done := (d.writeSelector b).finish c (cplOf .success)
        (bitAt (c.pw 1) 8 = false → Acts (.fwActivate c.q g) s done) ∧
        (bitAt (c.pw 1) 8 = true → done.host.inflight = [] →
          Acts (.fwActivate c.q g) s (({ done with host := { done.host with fetchStopped := true } }).warmCause .swWarm)) ∧
        (bitAt (c.pw 1) 8 = true → (∀ e ∈ done.host.inflight, e.op ≠ 0x21) → (∃ e ∈ done.host.inflight, e.held = none) →
          Acts (.fwActivate c.q g) s { done with host := { done.host with fetchStopped := true }, rst := { done.rst with pending := true } }) ∧
        (d.selected.2.1 + 1 < 2 ^ 32 → Sparse.wf 0xFF d.flash = true → (d.writeSelector b).selected.1 = b ∧
          (d.writeSelector b).selected.2.1 = d.selected.2.1 + 1 ∧ (d.writeSelector b).selector (1 - d.selected.2.2) = d.selector (1 - d.selected.2.2)))) ∧
    (Starts d 0x55 c → bitAt (c.pw 1) 0 = false → Plain c [1] →
      (d.sec.delay = false → Challenges (Acts (.debugChallenge c.q g) s) d c.q g) ∧
      (d.sec.delay = true → d.sec.heldReq = none →
        Acts (.debugChallenge c.q g) s (({ d with sec := { d.sec with heldReq := some (c.q, g) } }).running c)) ∧
      (d.sec.delay = true → d.sec.heldReq ≠ none → Acts (.debugChallenge c.q g) s d)) ∧
    (Starts d 0x55 c → bitAt (c.pw 1) 0 = true → Plain c [1, addrMask (c.pw 2), 0xFFFF] →
      (fld (c.pw 3) 0 16 ≠ 1344 → Acts (.debugResponse c.q g) s (d.finish c (cplBad 24))) ∧
      (fld (c.pw 3) 0 16 = 1344 → d.farRange (c.pw 2) 1344 = false → ∀ st t d1, d.addrRead (!d.sec.recovery) (c.pw 2) 1344 = (st, t, d1) →
        (st ≠ .success → Acts (.debugResponse c.q g) s (d1.finish c (if st = .invalidParam then cplBad 16 else cplOf st))) ∧
        (st = .success → ¬GoodToken d t → Acts (.debugResponse c.q g) s
          (({ d1 with sec := { d1.sec with challenge := none, failures := d.sec.failures + 1, delay := true } }).finish c (cplOf .authFailed))) ∧
        (st = .success → GoodToken d t → ∃ (m : Meas), m.kind = 9 ∧ m.die = 0 ∧ m.digest = Config.shake256 (t.take 64) 64 ∧ m.cause = some (c.q, g) ∧
          m.andThen = some (cplOf .success) ∧
          Acts (.debugResponse c.q g) s { d1 with sec := { d1.sec with
            challenge := none, failures := 0, session := leAt t 0x18 1, opened := true, inbox := d.sec.inbox ++ [m] } })))

open Sys2Proof Sys2Proof.Machine Sys2Proof.Claims in
/-- 01 R23, 17 R425, R434-R436, R438: the core appends the measurement that reached it first, extends the chain, keeps at most 4,096 entries, and posts the completion that
waited; an SVC bit is blown while the version asks for it; a challenge lapses; after the delay a held request is served; a debug session's JTAG reads unit control and
fuses the owner's fields once. What JTAG answers outside unit control is log entry 48. -/
def Obligations.SecurityEvents : Prop :=
  ∀ (s : State),
    let d := s.dev
    (d.sec.inbox = [] → Gives .measurementAppend s d) ∧
    (∀ m rest, d.sec.inbox = m :: rest →
      let e := leBytes 4 d.sec.count ++ [m.kind, m.die] ++ leBytes 2 m.flags.toNat ++ leBytes 8 m.version.toNat ++ leBytes 8 m.build.toNat ++
        leBytes 8 m.detail.toNat ++ m.digest
      let x := { d with sec := { d.sec with
        inbox := rest, log := (d.sec.log ++ [e]).take (max 4096 d.sec.log.length), count := d.sec.count + 1, chain := Config.shake256 (d.sec.chain ++ e) 64 } }
      (m.cause = none ∨ m.andThen = none → Gives .measurementAppend s x) ∧
      (∀ q g p, m.cause = some (q, g) → m.andThen = some p → Gives .measurementAppend s (x.complete q g p))) ∧
    (∀ ok, (d.sec.blowing = false → Gives (.svcFuseBlow ok) s d) ∧
      (d.sec.blowing = true →
        let target := min d.sec.fuseSvn.toNat 64
        let stop := fun (d' : Device) => { d' with sec := { d'.sec with blowing := false } }
        (target ≤ d.svc → Gives (.svcFuseBlow ok) s (stop d)) ∧
        (ok = false → d.svc < target → Gives (.svcFuseBlow ok) s d) ∧
        (ok = true → d.svc < target → d.fuses.svcBits.toNat = 2 ^ d.svc - 1 → ∃ d', Gives (.svcFuseBlow ok) s d' ∧ d'.svc = d.svc + 1 ∧
          d'.fuses.svcBits.toNat = 2 ^ (d.svc + 1) - 1 ∧ d'.sec.blowing = decide (d.svc + 1 < target) ∧
          d'.fuses.secCopies = d.fuses.secCopies.map (fun (f : SecFuses) => { f with svc := f.svc ||| BitVec.ofNat 64 (2 ^ d.svc) }) ∧
          d' = { d with fuses := { d.fuses with svcBits := d'.fuses.svcBits, secCopies := d'.fuses.secCopies }, sec := { d.sec with blowing := d'.sec.blowing } }))) ∧
    Gives .challengeLapse s { d with sec := { d.sec with challenge := none } } ∧
    (d.sec.delay = false → Gives .challengeDelayExpiry s d) ∧
    (d.sec.delay = true → d.sec.heldReq = none → Gives .challengeDelayExpiry s { d with sec := { d.sec with delay := false } }) ∧
    (∀ q g, d.sec.delay = true → d.sec.heldReq = some (q, g) →
      Challenges (Gives .challengeDelayExpiry s) { d with sec := { d.sec with delay := false, heldReq := none } } q g) ∧
    (∀ op, d.sec.session = 0 → Gives (.jtagRequest op) s d) ∧
    (d.sec.session ≠ 0 → ∀ (a : BitVec 44) (v : Word),
      let answer := fun (x : Status × Word) => { d with sec := { d.sec with jtag := some x } }
      let inside := 0x30000000000 ≤ a.toNat ∧ a.toNat < 0x30080000000 ∧ a.toNat % 8 = 0
      (inside → Gives (.jtagRequest (.read a)) s (answer (.success, d.ctlRead ((a.toNat - 0x30000000000) / 0x10000000) (a.toNat % 0x10000000))) ∧
        Gives (.jtagRequest (.write a v)) s (answer (.success, 0))) ∧
      (¬inside → Gives (.jtagRequest (.read a)) s (answer (.invalidParam, 0)) ∧ Gives (.jtagRequest (.write a v)) s (answer (.invalidParam, 0)))) ∧
    (d.sec.session ≠ 0 → ∀ l : List Byte,
      let fits := d.sec.session = 2 ∧ l.length = 32 ∧ ∃ x ∈ l, x ≠ 0
      (fits → d.fuses.ownerHash = [] → Gives (.jtagRequest (.fuseOwnerHash l)) s { d with fuses := { d.fuses with
        ownerHash := l, secCopies := d.fuses.secCopies.map fun (f : SecFuses) => { f with owner := BitVec.ofNat 256 (leNat l), ownerCrc := crc32c l } } }) ∧
      (fits → d.fuses.ownerAes = [] → Gives (.jtagRequest (.fuseOwnerAes l)) s { d with fuses := { d.fuses with
        ownerAes := l, secCopies := d.fuses.secCopies.map fun (f : SecFuses) => { f with aes := BitVec.ofNat 256 (leNat l), aesCrc := crc32c l } } }) ∧
      (¬fits ∨ d.fuses.ownerHash ≠ [] → Gives (.jtagRequest (.fuseOwnerHash l)) s d) ∧
      (¬fits ∨ d.fuses.ownerAes ≠ [] → Gives (.jtagRequest (.fuseOwnerAes l)) s d))

open Sys2Proof Sys2Proof.Machine Sys2Proof.Claims in
/-- 01 R23, 08 R204, R217, 10 R270: DIAG_READ writes unit-control registers; MC_THAW lets a frozen controller serve again, the codeword it lost poisoned; TRACE_CTL starts and stops
a trace, which may write its buffer only; BIST_RUN tests the named units that are not in use. What a trace records is free (log entry 2); what BIST_RUN names and leaves is
log entry 52. Premise: the tables are canonical (CanonicalTables). -/
def Obligations.DiagnosticCommands : Prop :=
  ∀ (s : State) (c : Cmd),
    let d := s.dev
    let g := c.tag.toNat
    let away := fun (k : Nat) => d.rst.st = .fiddlehead ∧ k ≠ 0
    (Starts d 0x60 c → Plain c [0x00000FFFFFFFFFFF, 0x1FFF, addrMask (c.pw 3)] →
      let a := fld (c.pw 1) 0 44
      let n := fld (c.pw 2) 0 13
      let k := (a - 0x30000000000) / 0x10000000
      let inside := 0x30000000000 ≤ a ∧ a + n ≤ 0x30080000000 ∧ (a + n - 1 - 0x30000000000) / 0x10000000 = k
      (a % 8 ≠ 0 → Acts (.diagRead c.q g) s (d.finish c (cplBad 8))) ∧
      (a % 8 = 0 → n % 8 ≠ 0 ∨ n < 8 ∨ 4096 < n → Acts (.diagRead c.q g) s (d.finish c (cplBad 16))) ∧
      (a % 8 = 0 → n % 8 = 0 → 8 ≤ n → n ≤ 4096 →
        (¬inside → Acts (.diagRead c.q g) s (d.finish c (cplBad 8))) ∧
        (inside → away k → Acts (.diagRead c.q g) s (d.finish c (cplOf .notReady))) ∧
        (inside → ¬away k → ∃ l, l.length = n ∧ (∀ i, 8 * i < n → leAt l (8 * i) 8 = (d.ctlRead k (a % 0x10000000 + 8 * i)).toNat) ∧
          Outputs (.diagRead c.q g) s d c 24 (c.pw 3) l (cpl .success (BitVec.ofNat 64 n) 0 0)))) ∧
    (Starts d 0x61 c → Plain c [0xFF] → Sparse.wf MemCtl.reset d.mcs = true →
      let m := fld (c.pw 1) 0 8
      (192 ≤ m → Acts (.mcThaw c.q g) s (d.finish c (cplBad 8))) ∧
      (m < 192 → away (m / 24) → Acts (.mcThaw c.q g) s (d.finish c (cplOf .notReady))) ∧
      (m < 192 → ¬away (m / 24) → (d.mc m).st ≠ .frozen → Acts (.mcThaw c.q g) s (d.finish c (cpl .success 0 0 0))) ∧
      (m < 192 → ¬away (m / 24) → (d.mc m).st = .frozen → ∃ d' : Device, Acts (.mcThaw c.q g) s (d'.finish c (cpl .success 1 0 0)) ∧
        (d'.mc m).st = .run ∧ (d'.mc m).frzCause = 0 ∧ (d'.mc m).frzWrite = none ∧ (∀ j, j ≠ m → d'.mc j = d.mc j) ∧ d'.tiles = d.tiles ∧ d'.host = d.host ∧
        (d.side.wf = true →
          let lost := fun (x : Nat) => (∃ e, (d.mc m).frzWrite = some e ∧ x = e.addr) ∨ ((d.mc m).frzWrite = none ∧ (d.mc m).frzCause = 1 ∧ x = (d.mc m).frzAddr / 64)
          (∀ x, lost x → d'.cwPoison x = true) ∧ (∀ x, ¬lost x → d'.cwPoison x = d.cwPoison x) ∧ (d.dram.wf = true → ∀ a, d'.dram.byte a = d.dram.byte a)))) ∧
    (Starts d 0x62 c → bitAt (c.pw 1) 0 = true → Plain c [1, 0x00000FFFFFFFFFFF, 0x000000FFFFFFFFFF, 0xFFFFFFFFFFFFFFFF] →
      let n := fld (c.pw 3) 0 40
      (d.dramRange (fld (c.pw 2) 0 44) n = false → Acts (.traceStart c.q g) s (d.finish c (cplBad 16))) ∧
      (d.dramRange (fld (c.pw 2) 0 44) n = true → d.host.traceOn = true → Acts (.traceStart c.q g) s (d.finish c (cplOf .busy))) ∧
      (d.dramRange (fld (c.pw 2) 0 44) n = true → d.host.traceOn = false → d.farRange (c.pw 2) n = true →
        Acts (.traceStart c.q g) s (d.finish c (cplOf .notReady))) ∧
      (d.dramRange (fld (c.pw 2) 0 44) n = true → d.host.traceOn = false → d.farRange (c.pw 2) n = false →
        Acts (.traceStart c.q g) s
          (({ d with host := { d.host with traceOn := true, traceBuf := c.pw 2, traceLen := n, traceMask := c.pw 4 } }).finish c (cplOf .success)))) ∧
    (Starts d 0x62 c → bitAt (c.pw 1) 0 = false → Plain c [1, 0x00000FFFFFFFFFFF, 0x000000FFFFFFFFFF, 0xFFFFFFFFFFFFFFFF] →
      (d.host.traceOn = false → Acts (.traceStop c.q g) s (d.finish c (cplOf .success))) ∧
      (d.host.traceOn = true → ∃ (d' : Device) (n : Nat), Acts (.traceStop c.q g) s (d'.finish c (cpl .success (BitVec.ofNat 64 n) 0 0)) ∧ n ≤ d.host.traceLen ∧
        d'.host = { d.host with traceOn := false } ∧ d'.tiles = d.tiles ∧ d'.hostMem = d.hostMem ∧
        (MemTables d → ∀ x, x / 64 < fld d.host.traceBuf 0 44 / 64 ∨ (fld d.host.traceBuf 0 44 + n) / 64 < x / 64 → d'.dram.byte x = d.dram.byte x))) ∧
    (∀ failed, Starts d 0x63 c → Plain c [3, 0xFFFF] →
      let target := fld (c.pw 1) 0 2
      let u := fld (c.pw 2) 0 16
      (target = 3 → Acts (.bistRun c.q g failed) s (d.finish c (cplBad 8))) ∧
      (target ≠ 3 →
        (∀ l, l = (d.bistUnits target).filter (fun x => decide (u = 0xFFFF) || x == u) →
          (l = [] → u ≠ 0xFFFF → Acts (.bistRun c.q g failed) s (d.finish c (cplBad 16))) ∧
          (l ≠ [] → u ≠ 0xFFFF → away (bistDie target u) → Acts (.bistRun c.q g failed) s (d.finish c (cplOf .notReady))) ∧
          (l ≠ [] ∨ u = 0xFFFF → (u = 0xFFFF ∨ ¬away (bistDie target u)) →
            (∀ pre x post t, l = pre ++ x :: post → (∀ y ∈ pre, d.bistHolder target y = none) → d.bistHolder target x = some t →
              Acts (.bistRun c.q g failed) s (d.finish c { cplOf .busy with detail := t })) ∧
            ((∀ x ∈ l, d.bistHolder target x = none) → Acts (.bistRun c.q g failed) s
              (d.finish c (cpl .success (BitVec.ofNat 64 l.length) (BitVec.ofNat 64 (l.filter fun x => decide (x ∈ failed)).length) 0)))))) ∧
      (∀ t r, (d.tile t).running = some r → d.bistHolder 0 t = some (if r.q < 64 then BitVec.ofNat 16 r.tag else 0)) ∧
      (d.bistUnits 0 = (List.range 192).flatMap d.tilesOf) ∧ (∀ m, m ∈ d.bistUnits 1 ↔ m < 192 ∧ d.mcOn m = true))

namespace Sys2Proof.Claims

open Sys2Proof Sys2Proof.Machine

/-- The horizon is at least n ticks; with no queue ACTIVE it is unbounded (13 R341). -/
def HorizonFrom (d : Device) (n : Nat) : Prop := ∀ h, d.host.horizon = some h → n ≤ h

/-- The horizon of one queue in ticks (13 R341): 0 while it holds an entry, else the time its HINT has left, else the time since its last entry. -/
def QueueHorizon (d : Device) (q n : Nat) : Prop :=
  let x := d.queue q
  let t := (d.time 0).toNat
  let due := x.tf.toNat + 100 * x.hint.toNat
  (x.sqHead ≠ x.sqTail → n = 0) ∧
  (x.sqHead = x.sqTail → x.hint ≠ 0 → t < due → n = due - t) ∧
  (x.sqHead = x.sqTail → x.hint = 0 ∨ due ≤ t → n = t - x.tf.toNat)

/-- The tiles after a reset: idle and empty, with the column repairs of the fuses (13 R350, 14 R359). -/
def FreshTiles (d d' : Device) : Prop :=
  (∀ t, d'.tile t = { Tile.reset with arr := { Tile.reset.arr with spareSel := (d'.tile t).arr.spareSel } }) ∧
  (∀ t, (∀ e ∈ d.fuses.spareSel, e.1 ≠ t) → (d'.tile t).arr.spareSel = Tile.reset.arr.spareSel) ∧
  (∀ pre t v post, d.fuses.spareSel = pre ++ (t, v) :: post → (∀ e ∈ post, e.1 ≠ t) → (d'.tile t).arr.spareSel = v)

/-- The level at which FAULT# stands before a reset (13 R353). -/
def FaultBefore (d : Device) : Prop :=
  (d.rst.st = .reset ∧ d.mod.faultPin = true) ∨ (d.rst.st ≠ .reset ∧ (d.rst.fatal = true ∨ d.rst.st = .diagHold))

/-- A COLD reset (13 R350): only the fuses, the flash, host memory and the module's side are kept; the policy is the variant's (07 R171). FAULT# keeps its level
as long as a pin holds the package in reset (13 R353). -/
def ColdFrom (d : Device) (cause : ResetCause) (d' : Device) : Prop :=
  d' = { Device.reset with
    fuses := d.fuses, flash := d.flash, hostMem := d.hostMem, free := d.free, mod := { d.mod with faultPin := d'.mod.faultPin }, tiles := d'.tiles
    sched := { Sched.reset with policy := match d.variant with | .ael192 => 1 | .ael160 => 1 | .ael96 => 2 | .ael48 => 2 }
    rst := { Rst.reset with cause := cause, held := d.mod.modRst || d.mod.perst } } ∧ FreshTiles d d' ∧
  (d'.mod.faultPin = true ↔ d.mod.powered = true ∧ (d.mod.modRst = true ∨ d.mod.perst = true) ∧ FaultBefore d)

/-- The CXL port after a WARM reset (15 R392-R394): a cause the host made by the pins or the link clears it; a CXL reset keeps the link and the enables and reads as
complete; any other keeps the HDM decoder too. The counts of a loss of the link go on, bias is host again, and CXL.mem receives poison. -/
def portAfter (c : Cxl) (cause : ResetCause) : Cxl :=
  let new := { Cxl.reset with lost := c.lost, discarded := c.discarded, heldTokens := c.heldTokens, warming := true }
  let linked := { new with
    up := c.up, cxlMode := c.cxlMode, rate := c.rate, lanes := c.lanes, sris := c.sris, bme := c.bme, mse := c.mse, msixEn := c.msixEn, msixMask := c.msixMask, d3 := c.d3 }
  match cause with
  | .cxlPerst => new
  | .cxlHotReset => new
  | .cxlReset => { linked with resetDone := true }
  | _ => { linked with
      resetDone := c.resetDone, hdm := c.hdm, hdmErr := c.hdmErr, hdmBase := c.hdmBase, hdmSize := c.hdmSize, hdmWays := c.hdmWays, hdmGran := c.hdmGran }

/-- Pad n is driven by started logic of the static region of its die (11 R299, R301). -/
def PadDriven (d : Device) (n : Nat) : Prop :=
  let x := d.region (9 * (n / 8) + 8)
  x.st = .active ∨ (x.st = .starting ∧ x.isolated = false)

/-- A WARM reset (13 R350, R351, 10 R271, R276, 11 R301): beside what a COLD one keeps, the DRAM in self-refresh, what the last freeze of a controller recorded, the die's
clocks and power settings, the latched pads with their options, and the CXL port as far as the host did not make the reset. -/
def WarmFrom (d : Device) (cause : ResetCause) (d' : Device) : Prop :=
  d' = { Device.reset with
    fuses := d.fuses, flash := d.flash, hostMem := d.hostMem, free := d'.free, mcs := d'.mcs, dram := d'.dram, side := d'.side, tiles := d'.tiles
    mod := { d.mod with faultPin := d'.mod.faultPin }
    sched := { Sched.reset with policy := d.sched.policy }
    fab := { Fabric.reset with keepers := d'.fab.keepers, pins := d.fab.pins }
    pwr := { Power.reset with
      time := d.pwr.time, pll := d.pwr.pll, tDamp := d.pwr.tDamp, tDry := d.pwr.tDry, window := d.pwr.window, lead := d.pwr.lead, cap := d.pwr.cap
      watts := d.pwr.watts, tj := d.pwr.tj, warned := d.pwr.warned, warn := d.pwr.warn, hot := d.pwr.hot }
    rst := { Rst.reset with cls := .warm, cause := cause, held := d.mod.modRst || d.mod.perst }
    boot := { Boot.reset with warm := true, sensed := d.boot.sensed }
    cxl := portAfter d.cxl cause } ∧
  FreshTiles d d' ∧ (d'.mod.faultPin = true ↔ FaultBefore d) ∧
  (Sparse.wf MemCtl.reset d.mcs = true → ∀ m, d'.mc m = (if m / 24 ∈ d.pwr.pll then { MemCtl.reset with
    st := if (d.mc m).store then .selfRefresh else .off, temp := (d.mc m).temp, trainTemp := (d.mc m).trainTemp, trained := (d.mc m).trained
    store := (d.mc m).store, hot := (d.mc m).hot, passes := (d.mc m).passes, pos := (d.mc m).pos
    frzChannel := (d.mc m).frzChannel, frzAddr := (d.mc m).frzAddr, syndrome := (d.mc m).syndrome, heldAddrs := (d.mc m).heldAddrs, history := (d.mc m).history
    cmds := if (d.mc m).store = true ∧ (d.mc m).st ≠ .selfRefresh then ((d.mc m).logAll (d.time (m / 24)) 5).cmds else (d.mc m).cmds } else d.mc m)) ∧
  ((∀ e ∈ d.mcs, e.2.st ≠ .frozen ∧ ∀ c ∈ e.2.ch, c.2.wbuf = [] ∧ c.2.backs = []) → d'.dram = d.dram ∧ d'.side = d.side) ∧
  (KeepersOk d → (∀ n x, Sparse.find d.fab.keepers n = some x → Sparse.find d'.fab.keepers n = some x) ∧
    ∀ n, n < 64 → Sparse.find d.fab.keepers n = none → (Sparse.find d'.fab.keepers n ≠ none ↔ PadDriven d n) ∧
      ∀ a b o, Sparse.find d'.fab.keepers n = some (a, b, o) → o = d.padOpt n)

/-- A reset of a cause of class WARM; one that interrupts a cold bring-up starts the cold bring-up again (13 R349), where a CXL reset keeps the link (15 R393). -/
def RestartsFrom (d : Device) (cause : ResetCause) (d' : Device) : Prop :=
  let cold := ¬(d.rst.st = .ready ∨ d.rst.st = .diagHold ∨ d.boot.warm = true)
  (¬cold → WarmFrom d cause d') ∧ (cold → cause ≠ .cxlReset → ColdFrom d cause d') ∧
  (cold → cause = .cxlReset → ∃ e, ColdFrom d cause e ∧ d' = { e with cxl := { portAfter d.cxl cause with warming := false } })

/-- The command is carried out as such a reset. -/
def Restarts (i : Instr) (s : State) (d : Device) (cause : ResetCause) : Prop := ∃ d', Gives i s d' ∧ RestartsFrom d cause d'

/-- The command is carried out as a COLD reset. -/
def StartsCold (i : Instr) (s : State) (d : Device) (cause : ResetCause) : Prop := ∃ d', Gives i s d' ∧ ColdFrom d cause d'

/-- The device with the standby side of the module changed. -/
def withMod (d : Device) (f : Module → Module) : Device := { d with mod := f d.mod }

end Sys2Proof.Claims

open Sys2Proof Sys2Proof.Machine Sys2Proof.Claims in
/-- 09 R245, 13 R337-R345, 10 R263: the horizon is the least of the ACTIVE queues' ; from READY on a domain that is busy or whose event is near wakes, and one that is idle long
enough goes down, each kind in its own states; an entry or a wake ends; at the end of a window the two demands, the divider, the warnings and their events follow
the power and the junctions. Premise: the tables are canonical (CanonicalTables). -/
def Obligations.PowerDomains : Prop :=
  ∀ (s : State), Sparse.wf Dom.run s.dev.pwr.doms = true →
    let d := s.dev
    (∃ h, Gives .horizonUpdate s { d with host := { d.host with horizon := h } } ∧ ((∀ q, q < 64 → (d.queue q).st ≠ .active) → h = none) ∧
      ((∃ q, q < 64 ∧ (d.queue q).st = .active) → ∃ n, h = some n ∧ (∃ q, q < 64 ∧ (d.queue q).st = .active ∧ QueueHorizon d q n) ∧
        ∀ q m, q < 64 → (d.queue q).st = .active → QueueHorizon d q m → n ≤ m)) ∧
    (∀ i, domThere i = true →
      let k := domKey i
      let longer := HorizonFrom d (100 * d.pwr.tDry.toNat)
      let long := HorizonFrom d (100 * d.pwr.tDamp.toNat)
      (d.rst.st ≠ .ready ∨ d.domOff i = true → Gives (.domainEval i) s d) ∧
      (d.rst.st = .ready → d.domOff i = false → d.domBusy i = true →
        (d.dom k = .run ∨ (∃ b, d.dom k = .waking b) ∨ d.dom k = .off → Gives (.domainEval i) s d) ∧
        (d.dom k = .damp ∨ d.dom k = .enterDamp → Gives (.domainEval i) s (d.setDom k (.waking false))) ∧
        (d.dom k = .dry ∨ (∃ b, d.dom k = .enterDry b) → Gives (.domainEval i) s (d.setDom k (.waking true)))) ∧
      (d.rst.st = .ready → d.domOff i = false → d.domBusy i = false →
        ((∃ b, d.dom k = .waking b) ∨ d.dom k = .enterDamp ∨ (∃ b, d.dom k = .enterDry b) → Gives (.domainEval i) s d) ∧
        (d.dom k = .damp → ¬HorizonFrom d 11 → Gives (.domainEval i) s (d.setDom k (.waking false))) ∧
        (d.dom k = .dry → (∀ p, i ≠ .patch p) → ¬HorizonFrom d 2001 → Gives (.domainEval i) s (d.setDom k (.waking true))) ∧
        (d.dom k = .dry → (∀ p, i ≠ .patch p) → HorizonFrom d 2001 → Gives (.domainEval i) s d) ∧
        (∀ f, i = .frond f → (d.dom k = .run → longer → Gives (.domainEval i) s (d.setDom k (.enterDry false))) ∧
          (d.dom k = .run → ¬longer → long → Gives (.domainEval i) s (d.setDom k .enterDamp)) ∧
          (d.dom k = .run → ¬longer → ¬long → Gives (.domainEval i) s d) ∧
          (d.dom k = .damp → HorizonFrom d 11 → longer → Gives (.domainEval i) s (d.setDom k (.enterDry true))) ∧
          (d.dom k = .damp → HorizonFrom d 11 → ¬longer → Gives (.domainEval i) s d)) ∧
        (∀ a r, i = .mcGroup a r → d.dom k = .run →
          (longer → Gives (.domainEval i) s (d.setDom k (.enterDry false))) ∧ (¬longer → Gives (.domainEval i) s d)) ∧
        (∀ a v, i = .routerGroup a v → (d.dom k = .run → longer ∨ long → Gives (.domainEval i) s (d.setDom k .enterDamp)) ∧
          (d.dom k = .run → ¬longer → ¬long → Gives (.domainEval i) s d)) ∧
        (∀ p, i = .patch p → let on := (d.region (9 * (p / 8) + p % 8)).st = .active
          (¬on → d.dom k = .run → Gives (.domainEval i) s (d.setDom k (.enterDry false))) ∧ (¬on → d.dom k = .dry → Gives (.domainEval i) s d) ∧
          (¬on → d.dom k = .damp → HorizonFrom d 11 → Gives (.domainEval i) s (d.setDom k (.enterDry true))) ∧
          (on → d.dom k = .dry → Gives (.domainEval i) s (d.setDom k (.waking true))) ∧
          (on → d.dom k = .run → longer ∨ long → Gives (.domainEval i) s (d.setDom k .enterDamp)) ∧
          (on → d.dom k = .run → ¬longer → ¬long → Gives (.domainEval i) s d)))) ∧
    (∀ f t, f < 192 → t / 16 = f → (d.tile t).running ≠ none ∨ (d.frond f).ops ≠ [] → d.domBusy (.frond f) = true) ∧
    (∀ a r m, 24 * a + 8 * r ≤ m → m < 24 * a + 8 * r + 8 → (d.router (mcRouter m)).coher ≠ [] ∨ (d.mc m).busy = true → d.domBusy (.mcGroup a r) = true) ∧
    (∀ i, domThere i = true →
      let k := domKey i
      (d.dom k = .enterDamp → Gives (.domainEntryDone i) s (d.setDom k .damp)) ∧
      (∀ b, d.dom k = .enterDry b → Sparse.wf MemCtl.reset d.mcs = true → ∃ d', Gives (.domainEntryDone i) s d' ∧ d'.pwr = (d.setDom k .dry).pwr ∧ d'.dom k = .dry ∧
        (∀ a r m, i = .mcGroup a r → 24 * a + 8 * r ≤ m → m < 24 * a + 8 * r + 8 → (d.mc m).st = .run →
          d'.mc m = { d.mc m with st := .selfRefresh, cmds := ((d.mc m).logAll (d.time a) 5).cmds }) ∧
        (∀ m, (¬∃ a r, i = .mcGroup a r ∧ 24 * a + 8 * r ≤ m ∧ m < 24 * a + 8 * r + 8) ∨ (d.mc m).st ≠ .run → d'.mc m = d.mc m)) ∧
      (d.dom k ≠ .enterDamp → (∀ b, d.dom k ≠ .enterDry b) → Gives (.domainEntryDone i) s d) ∧
      ((∀ b, d.dom k ≠ .waking b) → Gives (.domainWakeDone i) s d) ∧
      (∀ b, d.dom k = .waking b → ∃ d', Gives (.domainWakeDone i) s d' ∧ d'.dom k = .run ∧
        (Sparse.wf MemCtl.reset d.mcs = true → (∀ m, Sparse.wf Channel.reset (d.mc m).ch = true) → ∀ a r, i = .mcGroup a r →
          (∀ m, 24 * a + 8 * r ≤ m → m < 24 * a + 8 * r + 8 → (d.router (mcRouter m)).held = [] ∧ (d.router (mcRouter m)).inq = []) →
          ∀ m, 24 * a + 8 * r ≤ m → m < 24 * a + 8 * r + 8 → ((d.mc m).st ≠ .selfRefresh → d'.mc m = d.mc m) ∧
            ((d.mc m).st = .selfRefresh → (d'.mc m).st = .run ∧ ∀ c, c < 4 → ((d'.mc m).chan c).retrainDue =
              (((d.mc m).chan c).retrainDue || decide ((d.mc m).trainTemp.toNat + 10 ≤ (d.mc m).temp.toNat ∨ (d.mc m).temp.toNat + 10 ≤ (d.mc m).trainTemp.toNat)))))) ∧
    (∀ watts (tj : List (List Nat)), tj.length = 8 →
      (d.mod.powered = false ∨ 0 ∉ d.boot.dms → Gives (.powerWindow watts tj) s d) ∧
      (d.mod.powered = true → 0 ∈ d.boot.dms → Sparse.wf 0 d.pwr.tj = true → ∃ d', Gives (.powerWindow watts tj) s d' ∧
        let cap := if d.pwr.cap = 0 then d.variant.power else d.pwr.cap.toNat
        let p := d.pwr.pDemand
        let h := d.pwr.hDemand
        let pUp := cap < watts
        let hUp := ∃ ts ∈ tj, ∃ t ∈ ts, 105 ≤ t
        let top := fun (i : Nat) => (tj.getD i []).foldl max 0
        let pCool := if ¬pUp ∧ 100 * watts * p ≤ 95 * cap * (p - 1) ∧ 2 < p then d.pwr.pCool + 1 else 0
        let v := max d'.pwr.pDemand d'.pwr.hDemand
        (pUp → p ≤ 4 → d'.pwr.pDemand = min 4 (p + 1)) ∧ (hUp → h ≤ 4 → d'.pwr.hDemand = min 4 (h + 1)) ∧
        (¬pUp → pCool < 10 → d'.pwr.pDemand = p ∧ d'.pwr.pCool = pCool) ∧
        (¬pUp → 10 ≤ pCool → ¬(hUp ∧ h < 4) → h ≤ 4 → d'.pwr.pDemand = p - 1 ∧ d'.pwr.pCool = 0) ∧
        (¬pUp → 10 ≤ pCool → hUp → h < 4 → d'.pwr.pDemand = p) ∧
        (∀ hc, (¬hUp ∧ (∀ ts ∈ tj, ∀ t ∈ ts, t ≤ 100) ∧ 2 < h ∧ hc = d.pwr.hCool + 1) ∨ (¬hUp ∧ ((∃ ts ∈ tj, ∃ t ∈ ts, 100 < t) ∨ h ≤ 2) ∧ hc = 0) → p ≤ 4 →
          (hc < 10 → d'.pwr.hDemand = h ∧ d'.pwr.hCool = hc) ∧ (10 ≤ hc → ¬(pUp ∧ p < 4) → d'.pwr.hDemand = h - 1 ∧ d'.pwr.hCool = 0) ∧
          (10 ≤ hc → pUp → p < 4 → d'.pwr.hDemand = h)) ∧
        d'.pwr.div = v ∧ d'.pwr.watts = watts ∧
        (∀ i, i < 8 → Sparse.get 0 d'.pwr.tj i = top i ∧ (i ∈ d'.pwr.hot ↔ 105 ≤ top i) ∧
          (i ∈ d'.pwr.warn ↔ 100 ≤ top i ∨ (95 < top i ∧ i ∈ d.pwr.warn))) ∧
        (∀ i j, (∀ t, i < 8 → (tj.getD i [])[j]? = some t → ((i, j) ∈ d'.pwr.warned ↔ 100 ≤ t ∨ (95 < t ∧ (i, j) ∈ d.pwr.warned))) ∧
          (8 ≤ i ∨ (tj.getD i []).length ≤ j → ((i, j) ∈ d'.pwr.warned ↔ (i, j) ∈ d.pwr.warned))) ∧
        (let quiet := ∀ i j t, i < 8 → (tj.getD i [])[j]? = some t → 100 ≤ t → (i, j) ∈ d.pwr.warned
         (quiet → v = d.pwr.div → d'.host = d.host ∧ d'.ctrs = d.ctrs) ∧
         (quiet → v < d.pwr.div → d'.host = (d.raise 0x11 (BitVec.ofNat 64 v) (BitVec.ofNat 64 watts)).host)) ∧
        (d.enabled 0x10 = true → d.host.events.length + tj.flatten.length ≤ 256 → ∀ i j t, i < 8 → (tj.getD i [])[j]? = some t → 100 ≤ t →
          (i, j) ∉ d.pwr.warned → ∃ e ∈ d'.host.events, e.code = 0x10 ∧ e.r0 = BitVec.ofNat 64 (i + 256 * (t % 256))) ∧
        d'.tiles = d.tiles ∧ d'.dram = d.dram ∧ d'.pwr.doms = d.pwr.doms))

open Sys2Proof Sys2Proof.Machine Sys2Proof.Claims in
/-- 08 R205, R227, 13 R336, R346-R353, 15 R393, 17 R439, 18 R446-R448: which pin, host act, watchdog, loss of a clock or loss of power causes which class of reset with which
cause, what the latches do, when the package starts again, and what each class keeps and clears. Premise: the tables are canonical (CanonicalTables). -/
def Obligations.Resets : Prop :=
  ∀ (s : State) (k : Nat), k < 8 →
    let d := s.dev
    let m := d.mod
    let off := fun (cause : ResetCause) => withMod d fun m => { m with powered := false, nextCause := cause }
    (∀ c, Starts d 0x04 c → Plain c [0xFFFFFFFF] →
      (fld (c.pw 1) 0 32 ≠ 0x57525354 → Acts (.resetWarm c.q c.tag.toNat) s (d.finish c (cplBad 8))) ∧
      (fld (c.pw 1) 0 32 = 0x57525354 → (∀ e ∈ d.host.inflight, e.op ≠ 0x21) →
        let d1 := { d with host := { d.host with fetchStopped := true } }
        ((∃ e ∈ d.host.inflight, (e.q, e.tag) ≠ (c.q, c.tag) ∧ e.held = none) → Acts (.resetWarm c.q c.tag.toNat) s d1) ∧
        ((∀ e ∈ d.host.inflight, (e.q, e.tag) = (c.q, c.tag) ∨ e.held ≠ none) →
          ∃ d', Acts (.resetWarm c.q c.tag.toNat) s d' ∧ RestartsFrom (d1.finish c (cplOf .success)) .swWarm d'))) ∧
    (m.modRst = true → Gives .modRstAssert s d) ∧
    (m.modRst = false →
      (m.powered = true → Restarts .modRstAssert s (withMod d fun m => { m with modRst := true }) .modulePin) ∧
      (m.powered = false → m.trip = true → m.lid < 90 → Gives .modRstAssert s (withMod d fun m => { m with modRst := true, trip := false })) ∧
      (m.powered = false → m.trip = false ∨ 90 ≤ m.lid → Gives .modRstAssert s (withMod d fun m => { m with modRst := true }))) ∧
    (let leaves := fun (held : Bool) (f : Module → Module) =>
       { withMod d (fun m => { f m with faultPin := m.faultPin && (held || decide (d.rst.cls ≠ .cold)) }) with rst := { d.rst with held := held } }
     Gives .modRstRelease s (leaves (d.rst.held && m.perst) fun m => { m with modRst := false }) ∧
     Gives .perstRelease s (leaves (d.rst.held && m.modRst) fun m => { m with perst := false })) ∧
    (m.perst = true → Gives .perstAssert s d) ∧
    (m.perst = false →
      (m.powered = true → Restarts .perstAssert s (withMod d fun m => { m with perst := true }) .cxlPerst) ∧
      (m.powered = false → Gives .perstAssert s (withMod d fun m => { m with perst := true }))) ∧
    (d.cxl.up = true → Restarts .cxlHotReset s d .cxlHotReset) ∧ (d.cxl.up = false → Gives .cxlHotReset s d) ∧
    (let open_ := d.cxl.up = true ∧ d.rst.st ≠ .reset
     (open_ → d.cxl.cxlMode = true → Restarts .cxlReset s d .cxlReset) ∧ (¬open_ ∨ d.cxl.cxlMode = false → Gives .cxlReset s d) ∧
     (¬open_ → Gives .flr s d) ∧
     (open_ → d.sched.runs = [] → ∃ d', Gives .flr s d' ∧
       d' = { d with
         host := { HostIf.reset with
           events := d.host.events, lost := d.host.lost, kills := d.host.kills + 1, horizon := d.host.horizon, traceOn := d.host.traceOn, traceBuf := d.host.traceBuf
           traceLen := d.host.traceLen, traceMask := d.host.traceMask }
         sec := { d.sec with heldReq := none, inbox := d'.sec.inbox }, rst := { d.rst with cls := .function, cause := .flr }
         cxl := { d.cxl with bme := false, mse := false, msixEn := false, msixMask := false, biasJobs := [] }
         tiles := d'.tiles, fronds := d'.fronds, hqs := d'.hqs, mcs := d'.mcs, sched := { d.sched with spore := d'.sched.spore }
         fab := { d.fab with loads := d'.fab.loads, cmds := d'.fab.cmds, captures := d'.fab.captures } } ∧
       (Sparse.wf Tile.reset d.tiles = true → ∀ t, d'.tile t = { d.tile t with running := (d'.tile t).running } ∧
         (((d'.tile t).running = none ↔ (d.tile t).running = none)) ∧ ∀ r, (d'.tile t).running = some r → 64 ≤ r.q) ∧
       (∀ m ∈ d'.sec.inbox, ∀ q g, m.cause = some (q, g) → 64 ≤ q) ∧ (∀ x ∈ d'.fab.loads, ∀ q g, x.cmd = some (q, g) → 64 ≤ q) ∧
       (∀ x, d'.sched.spore = some x → ∀ q g, x.cmd = some (q, g) → 64 ≤ q) ∧
       (Sparse.wf MemCtl.reset d.mcs = true → ∀ m, d'.mc m = { d.mc m with poisonSeen := false })) ∧
     (open_ → ∃ d', Gives .flr s d' ∧ d'.rst.cls = .function ∧ d'.rst.cause = .flr ∧ d'.cxl.bme = false ∧ d'.cxl.mse = false ∧ d'.cxl.msixEn = false ∧
       d'.cxl.biasJobs = [] ∧ d'.host.queues = [] ∧ d'.host.inflight = [])) ∧
    (k ∈ d.boot.dms → Restarts (.dmWatchdog k) s d .watchdog) ∧ (k ∉ d.boot.dms → Gives (.dmWatchdog k) s d) ∧
    (k ∈ d.pwr.pll → Restarts (.pllLockLoss k) s { d with pwr := { d.pwr with pll := d.pwr.pll.filter fun x => x != k } } .watchdog) ∧
    (k ∉ d.pwr.pll → Gives (.pllLockLoss k) s d) ∧
    (k ∈ d.pwr.pll ∨ d.boot.warm = false → Gives (.pllRelock k) s d) ∧
    (k ∉ d.pwr.pll → d.boot.warm = true → Sparse.wf MemCtl.reset d.mcs = true → ∃ d', Gives (.pllRelock k) s d' ∧ k ∈ d'.pwr.pll ∧
      (∀ x, x ≠ k → (x ∈ d'.pwr.pll ↔ x ∈ d.pwr.pll)) ∧ (∀ x, x / 24 ≠ k → d'.mc x = d.mc x) ∧
      ∀ x, x / 24 = k → (d'.mc x).st = (if (d.mc x).store then .selfRefresh else .off)) ∧
    (m.powered = true → StartsCold (.glitchDetect k) s d .security) ∧ (m.powered = false → Gives (.glitchDetect k) s d) ∧
    (m.powered = true → StartsCold (.thermtrip k) s (withMod (off .thermalTrip) fun m => { m with trip := true, ocRetry := false }) .thermalTrip) ∧
    (m.powered = false → Gives (.thermtrip k) s d) ∧
    (∀ t, (m.input = true → Gives (.lidSensorRead t) s (withMod d fun m => { m with lid := t })) ∧ (m.input = false → Gives (.lidSensorRead t) s d)) ∧
    (m.powered = true → StartsCold .brownout s (off .brownout) .brownout) ∧ (m.powered = false → Gives .brownout s d) ∧
    (m.en = true → m.powered = true → StartsCold .enBreak s (withMod (off .powerOn) fun m => { m with en := false }) .powerOn) ∧
    (m.en = true → m.powered = false → Gives .enBreak s (withMod d fun m => { m with en := false })) ∧ (m.en = false → Gives .enBreak s d) ∧
    (m.powered = false → Gives .inputUp s (withMod d fun m => { m with
      ticks := 0, input := true, en := true, trip := false, ocLatch := false, ocTimes := [], ocRetry := false, nextCause := .powerOn })) ∧
    (m.powered = true → Gives .inputUp s d) ∧
    (let ready := m.powered = false ∧ m.input = true ∧ m.en = true ∧ m.trip = false ∧ m.ocLatch = false ∧ m.ocRetry = false
     (ready → ∃ (clock : Bool) (n : Nat), StartsCold .powerGood s
       { withMod d (fun m => { m with powered := true, nextCause := .powerOn, smbAddr := smbAddress m.straps, refclk := clock }) with free := n } m.nextCause) ∧
     (¬ready → Gives .powerGood s d)) ∧
    (m.powered = false → Gives .overcurrent s d) ∧
    (m.powered = true → ∀ times : List Nat, times = m.ticks :: m.ocTimes.filter (fun t => decide (m.ticks ≤ t + 6000000000)) →
      (times.length < 3 → StartsCold .overcurrent s (withMod (off .brownout) fun m => { m with ocTimes := times, ocLatch := false, ocRetry := true }) .brownout) ∧
      (3 ≤ times.length → StartsCold .overcurrent s (withMod (off .brownout) fun m => { m with ocTimes := times, ocLatch := true, ocRetry := false }) .brownout)) ∧
    Gives .overcurrentRetry s (withMod d fun m => { m with ocRetry := false })

open Sys2Proof Sys2Proof.Machine Sys2Proof.Claims in
/-- 18 R453: a command to the module's management target is not acknowledged before the first 5 ms have passed, answers NOT_READY until the die managers run, and then its data; with the
package off after a trip or an overcurrent latch, or with EN not mated, SMB_THERMAL gives the lid's temperature. The sensors' values are the operands. Premise: the table of answers holds each bus once (CanonicalTables). -/
def Obligations.ManagementBus : Prop :=
  ∀ (s : State) (b x y : Nat), b < 2 → s.dev.mod.smb.Pairwise (fun u v => u.1 < v.1) →
    let d := s.dev
    let m := d.mod
    let silent := m.input = false ∨ (m.powered = false ∧ m.ticks < 500000)
    let up := m.powered = true ∧ 0 ∈ d.boot.dms
    let cut := m.powered = false ∧ (m.trip = true ∨ m.ocLatch = true ∨ m.en = false)
    let hot := (List.range 8).foldl (fun a k => max a (Sparse.get 0 d.pwr.tj k)) 0
    let dram := (List.range 192).foldl (fun a k => max a (d.mc k).temp.toNat) 0
    ∀ i f data,
      (i = .smbStatus b ∧ f = id ∧ data = leBytes 8 d.devStatus.toNat) ∨
      (i = .smbCause b ∧ f = id ∧ data = leBytes 2 (d.rst.cause.code + 256 * d.rst.cls.code)) ∨
      (i = .smbThermal b x y ∧ f = (fun (m : Module) => { m with inlet := x, outlet := y }) ∧
        data = leBytes 1 x ++ leBytes 1 y ++ (if m.powered then leBytes 1 hot ++ leBytes 1 dram else leBytes 1 m.lid ++ leBytes 1 m.lid)) ∨
      (i = .smbPower b x y ∧ f = (fun (m : Module) => { m with vin := x, iin := y }) ∧ data = leBytes 2 x ++ leBytes 2 y ++ leBytes 2 d.pwr.watts) ∨
      (i = .smbSerial b ∧ f = id ∧ data = leBytes 8 d.fuses.serial.toNat) →
      ∃ (d' : Device), Gives i s d' ∧ d' = withMod d (fun m => { f m with smb := d'.mod.smb }) ∧
        (∀ o, o ≠ b → Sparse.find d'.mod.smb o = Sparse.find m.smb o) ∧
        (silent → Sparse.find d'.mod.smb b = none) ∧
        (¬silent → ¬up → (∀ u v, i = .smbThermal b u v → ¬cut) → Sparse.find d'.mod.smb b = some (.notReady, [])) ∧
        (¬silent → up ∨ (cut ∧ ∃ u v, i = .smbThermal b u v) → Sparse.find d'.mod.smb b = some (.success, data))

namespace Sys2Proof.Claims

open Sys2Proof Sys2Proof.Machine

/-- Packet q is p with the destination written into its header (09 R232, R236). -/
def Toward (p q : Packet) (dst : PortId) : Prop :=
  q.pay = p.pay ∧ fld q.hdr 51 4 = dst.r % 12 ∧ fld q.hdr 46 5 = dst.r / 12 % 32 ∧ fld q.hdr 45 1 = dst.lp % 2 ∧ fld q.hdr 55 9 = fld p.hdr 55 9 ∧
  fld q.hdr 0 45 = fld p.hdr 0 45

/-- Wake asserted for domain k leads to w: one that sleeps, or is entering a state, wakes (09 R245, R247; 13 R339). -/
def Woken (d : Device) (k : Nat) (w : Device) : Prop :=
  (d.dom k = .damp ∨ d.dom k = .enterDamp → w = d.setDom k (.waking false)) ∧
  (d.dom k = .dry ∨ (∃ b, d.dom k = .enterDry b) → w = d.setDom k (.waking true)) ∧
  (d.dom k = .run ∨ (∃ b, d.dom k = .waking b) ∨ d.dom k = .off → w = d)

/-- A packet as it is injected while its unit asserts PANIC or not: a request carries it in bit 59, any other packet goes as it is (09 R241). -/
def Stamped (panic : Bool) (p q : Packet) : Prop :=
  q.pay = p.pay ∧ (∀ i, i < 64 → i ≠ 59 → bitAt q.hdr i = bitAt p.hdr i) ∧
  bitAt q.hdr 59 = if fld p.hdr 60 4 = 1 ∨ fld p.hdr 60 4 = 2 ∨ fld p.hdr 60 4 = 3 ∨ fld p.hdr 60 4 = 6 then panic else bitAt p.hdr 59

/-- The least number of hops from a to b on a ring of n, and whether they go in the negative direction, which wins a tie (09 R237, 16 R415). -/
def ringWay (n a b : Nat) : Nat × Bool := if (a + n - b) % n ≤ (b + n - a) % n then ((a + n - b) % n, true) else ((b + n - a) % n, false)

/-- Hops left on the package network from router r to (x, y). -/
def hopsLeft (r x y : Nat) : Nat := (ringWay 12 (r % 12) x).1 + (ringWay 32 (r / 12) y).1

/-- Hops left between modules, over the four rings of a shape. -/
def linkHops (s : Nat × Nat × Nat × Nat) (at_ : Nat → Nat) (dest : BitVec 18) : Nat :=
  ((List.range 4).map fun i => (ringWay (dimSize s i) (at_ i) (coord dest i)).1).sum

end Sys2Proof.Claims

open Sys2Proof Sys2Proof.Machine Sys2Proof.Claims in
/-- 01 R24, 09 R230, R231, R234, R236-R238, R245, R247, R249, R250: a packet is injected toward its address or refused to the unmapped responder, which answers INVALID_PARAM and counts;
a whole flit joins its packet, a damaged one is discarded with all behind it until the sender resends; credits return; a lone packet crosses the link its route names with
the dateline bit and the credits, or is held while its unit wakes; a router group in DAMP wakes first. Premise: the tables are canonical (CanonicalTables). How many flits
a resend holds is log entry 24. -/
def Obligations.NetworkCommands : Prop :=
  ∀ (s : State) (r : Nat), r < 384 → Sparse.wf Router.reset s.dev.routers = true → Sparse.wf Dom.run s.dev.pwr.doms = true →
    let d := s.dev
    let R := d.router r
    let group := domRouter (rtrDie r) (rtrRow r)
    (∀ lp, lp < 2 →
      (Sparse.get [] R.outbox lp = [] → Gives (.packetInject r lp) s d) ∧
      (∀ a p0 rest p, Sparse.get [] R.outbox lp = (a, p0) :: rest → Stamped (d.panics ⟨r, lp⟩) p0 p →
        let R' := { R with outbox := Sparse.put [] R.outbox lp rest }
        let put := fun (q : Packet) => (d.setRouter r { R' with
          inq := Sparse.put [] R.inq (8 * (4 + lp) + 2 * classOf q.type) (Sparse.get [] R.inq (8 * (4 + lp) + 2 * classOf q.type) ++ [q]) }).forward r
        let refuse := (d.setRouter r { R' with unmapped := R.unmapped ++ [p] }).forward r
        let queue := fld (p.pay.headD 0) 16 14
        (fld p.hdr 60 4 = 6 → queue < 12288 → d.frondOn (queue / 64) = true → ∃ q, Toward p q ⟨frondRouter (queue / 64), 0⟩ ∧ Gives (.packetInject r lp) s (put q)) ∧
        (fld p.hdr 60 4 = 6 → 12288 ≤ queue ∨ d.frondOn (queue / 64) = false → Gives (.packetInject r lp) s refuse) ∧
        (fld p.hdr 60 4 ≠ 6 → a = none → Gives (.packetInject r lp) s (put p)) ∧
        (∀ x, fld p.hdr 60 4 ≠ 6 → a = some x →
          (d.unmapped (ctlSource ⟨r, lp⟩) x = true → Gives (.packetInject r lp) s refuse) ∧
          (d.unmapped (ctlSource ⟨r, lp⟩) x = false → ∃ q, Toward p q (d.destOf x) ∧ Gives (.packetInject r lp) s (put q))))) ∧
    (∀ ctl x, d.unmapped ctl x = true ↔
      (x < 0x8000000000 ∧ d.variant.dram ≤ x % 0x1000000000) ∨ (0x8000000000 ≤ x ∧ x < 0x10000000000) ∨
      (0x10000000000 ≤ x ∧ x < 0x10180000000 ∧ ((0x140000 ≤ x % 0x200000 ∧ x % 0x200000 < 0x180000) ∨ d.tileOn ((x - 0x10000000000) / 0x200000) = false)) ∨
      (0x10180000000 ≤ x ∧ x < 0x20000000000) ∨ (0x20000000000 ≤ x ∧ x < 0x20400000000 ∧ d.patchOn ((x - 0x20000000000) / 0x10000000) = false) ∨
      (0x20480000000 ≤ x ∧ x < 0x30000000000) ∨ (0x30000000000 ≤ x ∧ x < 0x30080000000 ∧ ctl = false) ∨ 0x30080000000 ≤ x) ∧
    (R.unmapped = [] → Gives (.unmappedAnswer r) s d) ∧
    (∀ p rest, R.unmapped = p :: rest →
      let at_ := srcPort p.hdr
      let open_ := d.dom group = .run ∧ Sparse.find R.held (8 * at_.lp + 2) = none
      (¬open_ → Gives (.unmappedAnswer r) s d) ∧
      (open_ → ∃ (d' : Device) (k : Packet), Gives (.unmappedAnswer r) s d' ∧ (d'.router r).unmapped = rest ∧ fld k.hdr 11 8 = 0x11 ∧
        k.type = (if p.type = 1 ∨ p.type = 8 then 4 else if p.type = 6 then 7 else 5) ∧
        (d.awake (unitAt at_.r at_.lp) = true → d'.inboxOf at_ = Sparse.get [] (d.router at_.r).inbox at_.lp ++ [k]) ∧
        (d.awake (unitAt at_.r at_.lp) = false → Sparse.find (d'.router at_.r).held (8 * at_.lp + 2) = some k ∧ d'.inboxOf at_ = d.inboxOf at_) ∧
        (R.unmappedCount.value ≠ BitVec.allOnes 48 → (d'.router r).unmappedCount.value = R.unmappedCount.value + 1) ∧
        (∀ i, i ≠ r → i ≠ at_.r → d'.router i = d.router i))) ∧
    (∀ at_ n, unitAt at_.r at_.lp = .link n → d.panics at_ = (d.link n).panic) ∧ (∀ at_, unitAt at_.r at_.lp = .cxl → d.panics at_ = d.cxl.panic) ∧
    (∀ at_, (∀ n, unitAt at_.r at_.lp ≠ .link n) → unitAt at_.r at_.lp ≠ .cxl → d.panics at_ = false) ∧
    (∀ p, p < 4 → ∀ err : BitVec 1120,
      (Sparse.get [] R.wire p = [] → Gives (.flitReceive r p err) s d) ∧
      (∀ f0 rest, Sparse.get [] R.wire p = f0 :: rest →
        let f := f0 ^^^ err
        let whole := fld f 1088 32 = (crc32c (leBytes 8 (fld f 0 64) ++ leBytes 128 (fld f 64 1024))).toNat
        let x : BitVec 1024 := BitVec.ofNat 1024 (fld f 64 1024)
        (¬whole → ∃ w, Woken d group w ∧ Gives (.flitReceive r p err) s
          (w.setRouter r { R with wire := Sparse.put [] R.wire p [], replay := Sparse.put 0 R.replay p (rest.length + 1) })) ∧
        (whole → ∀ q, (Sparse.find R.part p = none ∧ q = ⟨BitVec.ofNat 64 (fld f 0 64), [x]⟩) ∨ (∃ o, Sparse.find R.part p = some o ∧ q = { o with pay := o.pay ++ [x] }) →
          let R' := { R with wire := Sparse.put [] R.wire p rest }
          (q.pay.length < q.flits → ∃ w, Woken d group w ∧ Gives (.flitReceive r p err) s (w.setRouter r { R' with part := Sparse.ins R.part p q })) ∧
          (q.flits ≤ q.pay.length → ∃ w, Woken d group w ∧ Gives (.flitReceive r p err) s
            ((w.setRouter r { R' with
              part := Sparse.del R.part p
              inq := Sparse.put [] R.inq (8 * p + vcOn p q) (Sparse.get [] R.inq (8 * p + vcOn p q) ++ [q]) }).forward r)))) ∧
      (Sparse.get 0 R.replay p = 0 → Gives (.flitReplayRequest r p) s d) ∧
      (Sparse.get 0 R.replay p ≠ 0 → Sparse.wf 0 R.replay = true → Sparse.wf [] R.wire = true → ∃ d', Gives (.flitReplayRequest r p) s d' ∧
        Sparse.get 0 (d'.router r).replay p = 0 ∧
        Sparse.get [] (d'.router r).wire p =
          (Sparse.get [] R.sent p).drop ((Sparse.get [] R.sent p).length - Sparse.get 0 R.replay p) ∧
        (isBridge r p = false → (d'.router r).replays = R.replays.incReg ∧ (d'.router r).bridgeReplays = R.bridgeReplays) ∧
        (isBridge r p = true → (d'.router r).replays = R.replays) ∧ (∀ i, i ≠ r → d'.router i = d.router i)) ∧
      (∀ vc, vc < 8 →
        let n := neighbour r p
        let N := d.router n
        let owed := Sparse.get 0 N.owed (8 * facing p + vc)
        Gives (.creditReturn r p vc) s (((d.setRouter n { N with owed := Sparse.put 0 N.owed (8 * facing p + vc) 0 }).setRouter r
          { R with used := Sparse.put 0 R.used (8 * p + vc) (Sparse.get 0 R.used (8 * p + vc) - owed) }).forward r))) ∧
    (d.dom group ≠ .run → Woken d group (d.forward r)) ∧ (d.dom group = .run → R.inq = [] → d.forward r = d) ∧
    (∀ k p, d.dom group = .run → R.inq = [(k, [p])] → p.pay ≠ [] → p.type ≠ 10 →
      let o := d.chooseOut r p
      let q := crossing r o p
      let n := neighbour r o
      let vc := vcOn o q
      (o < 4 → q.flits ≤ vcDepth r o - Sparse.get 0 R.used (8 * o + vc) → Sparse.get 0 (d.router n).replay (facing o) = 0 →
          (Sparse.get [] (d.router n).wire (facing o)).length + q.flits ≤ (if isBridge r o then 64 else 32) →
        (q.pay = p.pay ∧ (isWrap r o = false → q = p) ∧ (isWrap r o = true → bitAt q.hdr (if o < 2 then 58 else 57) = true)) ∧
        (d.forward r).tiles = d.tiles ∧ ((d.forward r).router r).inq = [] ∧
        Sparse.get 0 ((d.forward r).router r).used (8 * o + vc) = Sparse.get 0 R.used (8 * o + vc) + q.pay.length ∧
        Sparse.get [] ((d.forward r).router n).wire (facing o) = Sparse.get [] (d.router n).wire (facing o) ++ q.pay.map (mkFlit q.hdr)) ∧
      (∀ lp, o = 4 + lp → lp < 2 → d.awake (unitAt r lp) = false → Sparse.find R.held (8 * lp + k % 8) = none →
        (∀ u b, unitAt r lp ≠ .patch u b ∧ unitAt r lp ≠ .static u b) →
        Sparse.find ((d.forward r).router r).held (8 * lp + k % 8) = some p ∧ (d.forward r).tiles = d.tiles ∧
        ∀ g, domainOf (unitAt r lp) = some g → (d.dom g = .damp → (d.forward r).dom g = .waking false) ∧ (d.dom g = .dry → (d.forward r).dom g = .waking true)))

open Sys2Proof Sys2Proof.Machine Sys2Proof.Claims in
/-- 09 R237, 16 R415: on the package network every output a router may choose brings the packet exactly one hop nearer, so that it makes the least number of hops, at most 22, and then
leaves at its port; every negative hop comes before a positive one; and between modules a direction is offered wherever a hop is left, and each offered direction brings
the packet one hop nearer. -/
def Obligations.RoutesShorten : Prop :=
  (∀ (r : Nat) (p : Packet), r < 384 → p.dx < 12 → p.dy < 32 →
    hopsLeft r p.dx p.dy ≤ 22 ∧ routeOut r p ≠ [] ∧
    (hopsLeft r p.dx p.dy = 0 → routeOut r p = [4 + p.dp] ∧ r = 12 * p.dy + p.dx) ∧
    (hopsLeft r p.dx p.dy ≠ 0 → ∀ o ∈ routeOut r p, o < 4 ∧ hopsLeft (neighbour r o) p.dx p.dy + 1 = hopsLeft r p.dx p.dy ∧
      (o % 2 = 1 → (r % 12 = p.dx ∨ (ringWay 12 (r % 12) p.dx).2 = false) ∧ (r / 12 = p.dy ∨ (ringWay 32 (r / 12) p.dy).2 = false)))) ∧
  (∀ (s : Nat × Nat × Nat × Nat) (own dest : BitVec 18), inShape s own = true → inShape s dest = true →
    (own ≠ dest → dirsTo s own dest ≠ []) ∧
    ∀ x ∈ dirsTo s own dest, x < 8 ∧ linkHops s (neighbourCoord s own x) dest + 1 = linkHops s (coord own) dest)

open Sys2Proof Sys2Proof.Machine Sys2Proof.Claims in
/-- 10 R252: the controller, channel, bank, row, column and byte of an offset in a die's DRAM, with M its enabled controllers; and the placement is one to one. Of n enabled controllers, every offset below n times 2 GiB has a place, reading the place backwards gives the offset, and
every granule of every channel is the place of the offset read backwards. -/
def Obligations.DramPlacement : Prop :=
  ∀ (ms : List Nat) (o i c l : Nat), 0 < ms.length →
    let n := ms.length
    let p := placeDram ms o
    let h := o / 512
    let line := h / n
    (p.mc = ms.getD ((h + line) % n) 0 ∧ p.chan = 2 * (line % 2) + o / 256 % 2 ∧ p.bank / 4 = line / 2 % 4 ∧ p.bank % 4 = line / 8 % 4 ∧ p.col = line / 32 % 8 ∧
      p.row = line / 256 % 16384 ∧ p.byte = o % 256) ∧
    (∀ (d : Device) (k : Nat), o < 0x1000000000 → d.loc (k * 0x1000000000 + o) = placeDram (d.mcsOf k) o) ∧
    (o < n * 2 ^ 31 → p.mc ∈ ms ∧ p.chan < 4 ∧ p.bank < 16 ∧ p.row < 16384 ∧ p.col < 8 ∧ p.byte < 256 ∧
      ∃ j, j < n ∧ ms.getD j 0 = p.mc ∧ unplaceDram n j p.chan (128 * p.row + 16 * p.col + 4 * (p.bank % 4) + p.bank / 4) + p.byte = o) ∧
    (i < n → c < 4 → l < 2 ^ 21 →
      let q := placeDram ms (unplaceDram n i c l)
      unplaceDram n i c l < n * 2 ^ 31 ∧ q.mc = ms.getD i 0 ∧ q.chan = c ∧ q.byte = 0 ∧ 128 * q.row + 16 * q.col + 4 * (q.bank % 4) + q.bank / 4 = l)

open Sys2Proof Sys2Proof.Machine Sys2Proof.Claims in
/-- 10 R264: the 65 symbols with their check bytes are a codeword; a read of it finds no error; an error confined to one of the 68 symbols is found there and corrected; one confined
to two symbols is found uncorrectable. -/
def Obligations.CodeCorrects : Prop :=
  ∀ (l : List Byte) (i j : Nat) (e f : Byte), l.length = 65 → i < 68 → j < 68 → i ≠ j → e ≠ 0 → f ≠ 0 →
    let w := l ++ checkBytes l
    let one := w.set i (w.getD i 0 ^^^ e)
    w.length = 68 ∧ syndromes w = (0, 0, 0) ∧ eccCheck w = .clean ∧ eccCheck one = .corrected i w ∧
      ∃ syn, eccCheck (one.set j (one.getD j 0 ^^^ f)) = .uncorrectable syn

namespace Sys2Proof.Claims

open Sys2Proof Sys2Proof.Machine

/-- Packet k is the first of an inbox that satisfies f, and rest is what is left. -/
def FirstIn (l : List Packet) (f : Packet → Bool) (k : Packet) (rest : List Packet) : Prop :=
  ∃ pre post, l = pre ++ k :: post ∧ rest = pre ++ post ∧ f k = true ∧ ∀ x ∈ pre, f x = false

/-- Controller m answers at its port with a packet of type ty and a status (09 R234). -/
def Answers (d d' : Device) (m ty st : Nat) : Prop :=
  ∃ k, Sends d d' ⟨mcRouter m, 0⟩ none k ∧ k.type = ty ∧ fld k.hdr 11 8 = st

/-- The entries of a packet's write have joined their channels' buffers in order, and it is acknowledged (10 R257). -/
def Accepted (d d' : Device) (m : Nat) (k : Packet) : Prop :=
  (∀ c, c < 4 → ((d'.mc m).chan c).wbuf = ((d.mc m).chan c).wbuf ++ (writeEntries m k).filter (fun e => (d.cwLoc e.addr).chan == c)) ∧
  Answers d d' m 5 0 ∧ d'.dram = d.dram ∧ ∀ j, j ≠ m → d'.mc j = d.mc j

/-- Every channel the packet writes to has free entries for it (10 R257). -/
def RoomFor (d : Device) (m : Nat) (k : Packet) : Prop :=
  ∀ c, c < 4 → ((d.mc m).chan c).wbuf.length + ((writeEntries m k).filter (fun e => (d.cwLoc e.addr).chan == c)).length ≤ 64

/-- The write that takes entries next is k: the oldest with PANIC, else the oldest (10 R257, R273); rest are the others. -/
def NextWrite (l : List Packet) (k : Packet) (rest : List Packet) : Prop :=
  FirstIn l Packet.panic k rest ∨ ((∀ x ∈ l, x.panic = false) ∧ l = k :: rest)

/-- Controller m has frozen over an access (10 R268): its cause, channel, address and syndrome, its command history kept, and no read left waiting. -/
def FrozeAt (d d' : Device) (m cause chan addr : Nat) (syn : BitVec 24) : Prop :=
  let x := d'.mc m
  x.st = .frozen ∧ x.frzCause = cause ∧ x.frzChannel = chan ∧ x.frzAddr = addr ∧ x.syndrome = syn ∧ x.history = (d.mc m).cmds.reverse ∧ x.waitW = [] ∧
  (∀ c, c < 4 → (x.chan c).readq = []) ∧ d'.dram = d.dram ∧ ∀ j, j ≠ m → d'.mc j = d.mc j

/-- The device with channel c of controller m changed. -/
def withChan (d : Device) (m c : Nat) (x : Channel) : Device := d.setMc m ((d.mc m).setChan c x)

end Sys2Proof.Claims

open Sys2Proof Sys2Proof.Machine Sys2Proof.Claims in
/-- 10 R255-R257, R264-R266, R269, R273, 13 R336: a READ joins its channels' queues while they have room; a write is taken into the buffers and acknowledged, or waits, one with PANIC ahead of the others; a frozen controller answers
both; read data completes its READ, a merge or a scrub, after the check has corrected it, counted and written back, or freezes the controller; without its die's clocks a
controller does nothing. How a READ counts is log entry 20. Premise:
the tables are canonical (CanonicalTables). -/
def Obligations.MemoryRequests : Prop :=
  ∀ (s : State) (m : Nat), m < 192 → MemTables s.dev → Sparse.wf Router.reset s.dev.routers = true →
    Sparse.wf [] (s.dev.router (mcRouter m)).inbox = true → Sparse.wf Counter.zero s.dev.ctrs = true →
    let d := s.dev
    let x := d.mc m
    let port : PortId := ⟨mcRouter m, 0⟩
    let isRead := fun (k : Packet) => k.type == 1
    let isWrite := fun (k : Packet) => k.type == 2 || k.type == 3
    (m / 24 ∉ d.pwr.pll → Gives (.mcReadRequest m) s d ∧ Gives (.mcWriteRequest m) s d ∧ Gives (.writeEntryAccept m) s d ∧
      ∀ c errs, c < 4 → Gives (.dramReadData m c errs) s d) ∧ (m / 24 ∈ d.pwr.pll →
    ((∀ k ∈ d.inboxOf port, isRead k = false) ∨ x.st = .off ∨ x.st = .training ∨ x.st = .selfRefresh → Gives (.mcReadRequest m) s d) ∧
    (∀ k rest, FirstIn (d.inboxOf port) isRead k rest →
      let cs := upFrom (k.readAddr / 64) ((k.readAddr + k.readLen - 1) / 64 + 1 - k.readAddr / 64)
      (x.st = .frozen → ∃ d', Gives (.mcReadRequest m) s d' ∧ d'.inboxOf port = rest ∧ d'.mcs = d.mcs ∧ Answers d d' m 4 Status.memoryFrozen.code) ∧
      (x.st = .run → (∃ c ∈ cs, 64 ≤ (x.chan (d.cwLoc c).chan).queued) → Gives (.mcReadRequest m) s d) ∧
      (x.st = .run → (∀ c ∈ cs, (x.chan (d.cwLoc c).chan).queued < 64) → ∃ d', Gives (.mcReadRequest m) s d' ∧ d'.inboxOf port = rest ∧
        (d'.mc m).asm = x.asm ++ [⟨x.nextId, k, cs.length, [], .success⟩] ∧ (d'.mc m).nextId = x.nextId + 1 ∧ (d'.mc m).st = .run ∧
        (∀ c, ((d'.mc m).chan c).readq = (x.chan c).readq ++ (cs.filter fun w => (d.cwLoc w).chan == c).map fun w => ⟨w, .net x.nextId, k.panic, false⟩) ∧
        (∀ c, ((d'.mc m).chan c).wbuf = (x.chan c).wbuf) ∧ (∀ j, j ≠ m → d'.mc j = d.mc j) ∧ d'.dram = d.dram)) ∧
    ((∀ k ∈ d.inboxOf port, isWrite k = false) ∨ x.st = .off ∨ x.st = .training ∨ x.st = .selfRefresh → Gives (.mcWriteRequest m) s d) ∧
    (∀ k rest, FirstIn (d.inboxOf port) isWrite k rest →
      (x.st = .frozen → ∃ d', Gives (.mcWriteRequest m) s d' ∧ d'.inboxOf port = rest ∧ d'.mcs = d.mcs ∧ Answers d d' m 5 Status.memoryFrozen.code) ∧
      let ahead := ∀ w ∈ x.waitW, k.panic = true ∧ w.panic = false
      (x.st = .run → ahead → RoomFor d m k → ∃ d', Gives (.mcWriteRequest m) s d' ∧ d'.inboxOf port = rest ∧ Accepted d d' m k) ∧
      (x.st = .run → ¬ahead ∨ ¬RoomFor d m k → Gives (.mcWriteRequest m) s ((d.setInbox port rest).setMc m { x with waitW := x.waitW ++ [k] }))) ∧
    (x.waitW = [] → Gives (.writeEntryAccept m) s d) ∧
    (∀ k rest, NextWrite x.waitW k rest →
      (x.st ≠ .run ∨ ¬RoomFor d m k → Gives (.writeEntryAccept m) s d) ∧
      (x.st = .run → RoomFor d m k → ∃ d', Gives (.writeEntryAccept m) s d' ∧ (d'.mc m).waitW = rest ∧ Accepted d d' m k)) ∧
    (∀ k : Packet, k.type = 2 → k.pay.length = k.flits → k.flits ≤ 4 →
      (writeEntries m k).map (·.addr) = upFrom ((m / 24 * 0x1000000000 + 128 * fld k.hdr 6 29) / 64) (2 * k.flits) ∧
      ((writeEntries m k).map (·.data)).flatten = k.bytes ∧ ∀ e ∈ writeEntries m k, e.mask = BitVec.allOnes 64 ∧ e.poison = false) ∧
    (∀ c errs, c < 4 →
      let ch := x.chan c
      (ch.issued = [] → Gives (.dramReadData m c errs) s d) ∧
      (∀ r left, ch.issued = r :: left →
        let w := withErrors (d.cwRaw r.addr) errs
        let y := withChan d m c { ch with issued := left }
        (∀ syn, eccCheck w = .uncorrectable syn → x.st ≠ .frozen → ∃ d', Gives (.dramReadData m c errs) s d' ∧ FrozeAt d d' m 1 c (64 * r.addr) syn ∧
          d'.counter 0x32 m = (d.counter 0x32 m).add 1 ∧
          (∀ id a, r.kind = .net id → x.asm = [a] → a.id = id → x.waitW = [] → Answers d d' m 4 Status.memoryUncorrectable.code)) ∧
        (eccCheck w = .clean → r.kind = .scrub → Gives (.dramReadData m c errs) s y) ∧
        (eccCheck w = .clean → r.kind = .merge → ∀ pre e post, ch.wbuf = pre ++ e :: post → e.addr = r.addr → (∀ o ∈ pre, o.addr ≠ r.addr) →
          Gives (.dramReadData m c errs) s (withChan d m c { ch with
            issued := left
            wbuf := pre ++ { e with
              data := mergeBytes e.mask e.data (w.take 64), mask := BitVec.allOnes 64, poison := e.poison || bitAt (w.getD 64 0) 0 } :: post })) ∧
        (∀ id, eccCheck w = .clean → r.kind = .net id → ∀ pre a post, x.asm = pre ++ a :: post → a.id = id → (∀ o ∈ pre ++ post, o.id ≠ id) → bitAt (w.getD 64 0) 0 = false →
          (1 < a.left → Gives (.dramReadData m c errs) s (d.setMc m { (x.setChan c { ch with issued := left }) with
            asm := pre ++ { a with left := a.left - 1, data := a.data.write (64 * r.addr) (w.take 64) } :: post })) ∧
          (a.left = 1 → ∃ d', Gives (.dramReadData m c errs) s d' ∧ (d'.mc m).asm = pre ++ post ∧ ((d'.mc m).chan c).issued = left ∧
            Answers d d' m 4 a.status.code ∧ d'.dram = d.dram ∧
            (a.status = .success → Sends d d' port none
              (mkRdResp a.pkt.hdr port 0 ((a.data.write (64 * r.addr) (w.take 64)).read a.pkt.readAddr a.pkt.readLen))))) ∧
        (∀ id, eccCheck w = .clean → r.kind = .net id → ∀ a, x.asm = [a] → a.id = id → a.left = 1 → a.status = .success → bitAt (w.getD 64 0) 0 = true →
          ∃ d', Gives (.dramReadData m c errs) s d' ∧ Answers d d' m 4 Status.poison.code ∧ (d'.mc m).poisonSeen = true ∧
            (x.poisonSeen = false → d'.host.events = (d.raise 0x09 (BitVec.ofNat 64 m) (BitVec.ofNat 64 (64 * r.addr))).host.events)) ∧
        (∀ i l, eccCheck w = .corrected i l → r.kind = .scrub → bitAt (l.getD 64 0) 0 = false → ∃ d', Gives (.dramReadData m c errs) s d' ∧
          d'.counter 0x31 m = (d.counter 0x31 m).add 1 ∧ (d'.mc m).symbol = BitVec.ofNat 8 i ∧
          ((∃ e ∈ ch.wbuf, e.addr = r.addr) → ((d'.mc m).chan c).wbuf = ch.wbuf) ∧
          d'.dram = d.dram ∧
          ((∀ e ∈ ch.wbuf, e.addr ≠ r.addr) → ch.backs = [] → ch.wbuf.length < 64 →
            ((d'.mc m).chan c).wbuf = ch.wbuf ++ [⟨r.addr, l.take 64, BitVec.allOnes 64, false⟩] ∧ ((d'.mc m).chan c).backs = []) ∧
          ((∀ e ∈ ch.wbuf, e.addr ≠ r.addr) → 64 ≤ ch.wbuf.length →
            ((d'.mc m).chan c).wbuf = ch.wbuf ∧ ((d'.mc m).chan c).backs = ch.backs ++ [⟨r.addr, l.take 64, BitVec.allOnes 64, false⟩])) ∧
        (∀ i l, eccCheck w = .corrected i l → r.kind ≠ .scrub → ∃ d', Gives (.dramReadData m c errs) s d' ∧
          d'.counter 0x31 m = (d.counter 0x31 m).add 1 ∧ (d'.mc m).symbol = BitVec.ofNat 8 i) ∧
        (∀ i l, eccCheck w = .corrected i l → r.kind = .scrub → bitAt (l.getD 64 0) 0 = true → Gives (.dramReadData m c errs) s y))))

open Sys2Proof Sys2Proof.Machine Sys2Proof.Claims in
/-- 10 R255, R258-R263, R265, R267, R268, R270, R273-R275, 13 R336: the next command of a channel: a refresh that cannot wait longer goes first and no command goes to a closed channel; an access opens
its row; a read behind a buffered write to its codeword never goes; a full write enters the DRAM; a parity failure freezes the controller; refreshes fall due; the temperature sets HOT and
retraining; reads age; the patrol visits every granule in turn; a PANIC request holds off retraining and early refreshes; without its die's clocks a controller does nothing. The order where no rule decides is log entry 21. Premise: the tables are canonical (CanonicalTables). -/
def Obligations.MemoryScheduling : Prop :=
  ∀ (s : State) (m c : Nat), m < 192 → c < 4 → MemTables s.dev →
    let d := s.dev
    let x := d.mc m
    let ch := x.chan c
    let issue : Instr := .dramCommandIssue m c
    let row := fun (b : Nat) => Sparse.get 0 ch.openRow b
    let keeps := fun (d' : Device) => d'.dram = d.dram ∧ (∀ j, j ≠ m → d'.mc j = d.mc j) ∧ ∀ j, j ≠ c → (d'.mc m).chan j = x.chan j
    (m / 24 ∉ d.pwr.pll → Gives issue s d ∧ Gives (.parityFailure m c) s d ∧ Gives (.refreshDue m c) s d ∧ (∀ t, Gives (.dramTempRead m t) s d) ∧
      Gives (.retrainChannelDone m c) s d ∧ (∀ i, Gives (.agePromote m c i) s d) ∧ Gives (.patrolScrubRead m) s d) ∧ (m / 24 ∈ d.pwr.pll →
    (ch.closed = true ∨ x.st = .off ∨ x.st = .training ∨ x.st = .selfRefresh ∨ (x.st = .frozen ∧ ch.due = 0) → Gives issue s d) ∧
    (ch.closed = false → (x.st = .frozen ∧ ch.due ≠ 0) ∨ (x.st = .run ∧ 9 ≤ ch.due) → ∃ d', Gives issue s d' ∧ keeps d' ∧
      let ch' := (d'.mc m).chan c
      ch'.readq = ch.readq ∧ ch'.wbuf = ch.wbuf ∧
      (Sparse.wf 0 ch.openRow = true → ∀ b, Sparse.get 0 ch'.openRow b = if b = ch.refBank.toNat then 0 else row b) ∧
      (x.st = .run → row ch.refBank.toNat ≠ 0 → ch'.due = ch.due ∧ ch'.refBank = ch.refBank) ∧
      (x.st = .frozen ∨ row ch.refBank.toNat = 0 → ch'.due = ch.due - 1 ∧ ch'.refBank = ch.refBank + 1)) ∧
    (d.panicWaits m c = true ↔ (∃ r ∈ ch.readq, r.panic = true) ∨ ∃ k ∈ x.waitW, k.panic = true ∧ ∃ e ∈ writeEntries m k, (d.cwLoc e.addr).chan = c) ∧
    (d.panicWaits m c = true → d.nextCmd m c ≠ .train ∧ d.nextCmd m c ≠ .pullIn) ∧
    (∀ i, d.nextCmd m c = .read i → ∃ r, ch.readq[i]? = some r ∧ ∀ e ∈ ch.wbuf, e.addr ≠ r.addr) ∧
    (∀ i, d.nextCmd m c = .write i → ∃ e, ch.wbuf[i]? = some e ∧ ∀ o ∈ ch.wbuf.take i, o.addr ≠ e.addr) ∧
    ((∃ r ∈ ch.readq, r.panic = true) → ch.wbuf = [] → x.st = .run → ch.closed = false → ch.due < 9 →
      ∃ i r, d.nextCmd m c = .read i ∧ ch.readq[i]? = some r ∧ (r.panic = true ∨ r.aged = true) ∧ ∀ j q, j < i → ch.readq[j]? = some q → q.panic = false ∧ q.aged = false) ∧
    (∀ i r, d.nextCmd m c = .read i → ch.readq[i]? = some r → ∃ d', Gives issue s d' ∧ keeps d' ∧
      let p := d.cwLoc r.addr
      let ch' := (d'.mc m).chan c
      ch'.wbuf = ch.wbuf ∧ ch'.due = ch.due ∧
      (row p.bank = p.row + 1 → ch'.readq = ch.readq.take i ++ ch.readq.drop (i + 1) ∧ ch'.issued = ch.issued ++ [r]) ∧
      (row p.bank = 0 → ch'.readq = ch.readq ∧ ch'.issued = ch.issued ∧ Sparse.get 0 ch'.openRow p.bank = p.row + 1) ∧
      (row p.bank ≠ p.row + 1 → row p.bank ≠ 0 → Sparse.wf 0 ch.openRow = true →
        ch'.readq = ch.readq ∧ ch'.issued = ch.issued ∧ Sparse.get 0 ch'.openRow p.bank = 0)) ∧
    (∀ i e, d.nextCmd m c = .write i → ch.wbuf[i]? = some e → ∃ d', Gives issue s d' ∧ (∀ j, j ≠ m → d'.mc j = d.mc j) ∧
      let p := d.cwLoc e.addr
      let ch' := (d'.mc m).chan c
      ch'.readq = ch.readq ∧
      (row p.bank ≠ p.row + 1 → ch'.wbuf = ch.wbuf ∧ d'.dram = d.dram) ∧
      (row p.bank = p.row + 1 → e.mask ≠ BitVec.allOnes 64 → ch'.wbuf = ch.wbuf ∧ d'.dram = d.dram ∧ ch'.issued = ch.issued ++ [⟨e.addr, .merge, false, false⟩]) ∧
      (row p.bank = p.row + 1 → e.mask = BitVec.allOnes 64 → e.data.length = 64 →
        ch'.wbuf = (ch.wbuf.take i ++ ch.wbuf.drop (i + 1)) ++ ch.backs.take (64 - (ch.wbuf.length - 1)) ∧ ch'.issued = ch.issued ∧
        (ch'.batch = true ↔ d.panicWaits m c = false ∧ (ch.batch = true ∨ 48 ≤ ch.wbuf.length ∨ ch.readq = []) ∧ 17 < ch.wbuf.length) ∧ d'.cwPoison e.addr = e.poison ∧
        (∀ b, b < 64 → d'.dram.byte (64 * e.addr + b) = e.data.getD b 0) ∧ ∀ a, a / 64 ≠ e.addr → d'.dram.byte a = d.dram.byte a)) ∧
    (ch.lastCmd = none ∨ x.st ≠ .run → Gives (.parityFailure m c) s d) ∧
    (∀ cmd a, ch.lastCmd = some (cmd, a) → x.st = .run → ∃ d', Gives (.parityFailure m c) s d' ∧ FrozeAt d d' m 2 c (if cmd = 4 ∨ cmd = 6 then 0 else 64 * a) 0 ∧
      (d'.mc m).frzWrite = ch.lastWrite ∧ (d'.mc m).frzRefresh = decide (cmd = 4) ∧ ((d'.mc m).chan c).due = (if cmd = 4 then ch.due + 1 else ch.due)) ∧
    (x.st ≠ .run → x.st ≠ .frozen → Gives (.refreshDue m c) s d) ∧
    (x.st = .run ∨ x.st = .frozen →
      (ch.early = 0 → Gives (.refreshDue m c) s (withChan d m c { ch with due := ch.due + 1 })) ∧
      (0 < ch.early → Gives (.refreshDue m c) s (withChan d m c { ch with early := ch.early - 1 }))) ∧
    (∀ t : Byte,
      let apart := x.trainTemp.toNat + 10 ≤ t.toNat ∨ t.toNat + 10 ≤ x.trainTemp.toNat
      let idle := ∀ j, j < 4 → (x.chan j).retrainDue = false ∧ (x.chan j).closed = false
      (x.st = .off → Gives (.dramTempRead m t) s d) ∧
      (x.st ≠ .off → ∃ d', Gives (.dramTempRead m t) s d' ∧ (d'.mc m).temp = t ∧
        (d'.mc m).hot = (if 86 ≤ t.toNat then true else if t.toNat ≤ 83 then false else x.hot) ∧ (d'.mc m).trainTemp = x.trainTemp ∧ (d'.mc m).st = x.st ∧
        (x.st = .run → idle → ∀ j, j < 4 → (((d'.mc m).chan j).retrainDue = true ↔ apart)) ∧
        ((x.st ≠ .run ∨ (∃ j, j < 4 ∧ (x.chan j).closed = true)) → ∀ j, (d'.mc m).chan j = x.chan j) ∧
        (x.st = .run → (∀ j, j < 4 → (x.chan j).closed = false) → ∀ j, j < 4 → (x.chan j).retrainDue = true → (∀ i, i < j → (x.chan i).retrainDue = false) →
          ((d'.mc m).chan j).closed = true ∧ ((d'.mc m).chan j).openRow = [] ∧ ∀ i, i ≠ j → (d'.mc m).chan i = x.chan i))) ∧
    (ch.closed = false → Gives (.retrainChannelDone m c) s d) ∧
    (ch.closed = true → ∃ d', Gives (.retrainChannelDone m c) s d' ∧ (d'.mc m).chan c = { ch with closed := false, retrainDue := false } ∧
      (∀ j, j ≠ c → (d'.mc m).chan j = x.chan j) ∧
      (let more := ∃ j, j < 4 ∧ j ≠ c ∧ ((x.chan j).retrainDue = true ∨ (x.chan j).closed = true)
       (more → (d'.mc m).trainTemp = x.trainTemp) ∧ (¬more → (d'.mc m).trainTemp = x.temp))) ∧
    (∀ i, ∃ d', Gives (.agePromote m c i) s d' ∧ d' = withChan d m c { ch with readq := ((d'.mc m).chan c).readq } ∧
      ∀ j, ((d'.mc m).chan c).readq[j]? = (ch.readq[j]?).map fun r => if j = i then { r with aged := true } else r) ∧
    (x.st ≠ .run ∨ d.mcOn m = false → Gives (.patrolScrubRead m) s d) ∧
    (x.st = .run → d.mcOn m = true → ∃ d' a, Gives (.patrolScrubRead m) s d' ∧ (d'.mc m).pos = x.pos + 1 ∧
      (d'.mc m).passes = (if x.pos.toNat = 2 ^ 23 - 1 then x.passes + 1 else x.passes) ∧
      ((d'.mc m).chan (x.pos.toNat % 4)).readq =
        (x.chan (x.pos.toNat % 4)).readq ++ [⟨a, .scrub, false, false⟩, ⟨a + 1, .scrub, false, false⟩, ⟨a + 2, .scrub, false, false⟩, ⟨a + 3, .scrub, false, false⟩] ∧
      ∀ i, i < 4 → let p := d.cwLoc (a + i)
        p.mc = m ∧ p.chan = x.pos.toNat % 4 ∧ 128 * p.row + 16 * p.col + 4 * (p.bank % 4) + p.bank / 4 = x.pos.toNat / 4 ∧ p.byte = 64 * i))

namespace Sys2Proof.Claims

open Sys2Proof Sys2Proof.Machine

/-- The package is powered and its reset is released (13 R351). -/
def Booting (d : Device) : Prop := d.mod.powered = true ∧ d.rst.held = false

/-- Device d has entered diagnostic hold with a cause (14 R375, R376): the running die managers record it, and causes 1, 4 and 6 end DRAM bring-up; with no command outstanding, DRAM is left as it was. -/
def HoldFrom (d : Device) (cause : Nat) (d' : Device) : Prop :=
  d'.rst.st = .diagHold ∧ d'.rst.holdTiles = d.tilesInService ∧ d'.boot.step = 13 ∧ (∀ k, k < 8 → k ∈ d.boot.dms → (d'.buDie k).holdCause = cause) ∧
  d'.boot.dramStopped = (d.boot.dramStopped || decide (cause ∈ [1, 4, 6])) ∧ d'.cxl.mediaErr = (d.cxl.mediaErr || decide (cause ∈ [4, 6])) ∧
  d'.fuses = d.fuses ∧ (d.host.inflight = [] → d'.dram = d.dram) ∧
  (d.host.inflight = [] → cause ∉ [1, 4, 6] → d.boot.warm = false → d.boot.dramStopped = false → d.boot.dramFailed = [] → d.boot.trained = [] → 0 ∈ d.boot.dms →
    ∀ m ∈ d.mcsOf 0, (d.mc m).st = .off → (d'.mc m).st = .training)

/-- Bit for bit, v is what at least two of three copies hold (14 R359, 17 R425). -/
def MajorityOf {w : Nat} (a b c v : BitVec w) : Prop :=
  ∀ i, v.getLsbD i = true ↔ (a.getLsbD i = true ∧ b.getLsbD i = true) ∨ (a.getLsbD i = true ∧ c.getLsbD i = true) ∨ (b.getLsbD i = true ∧ c.getLsbD i = true)

/-- The slot a core boots from is slot: the selected one, else the other one, if its image passes and the core has taken in what the flash holds (17 R432). -/
def BootsFrom (d : Device) (intact : Bool → Bool) (slot : Option (Bool × List Byte)) : Prop :=
  let good := fun (b : Bool) (img : List Byte) => d.slotImage b = .ok img ∧ intact b = true
  let b := d.selected.1
  (∀ img, good b img → slot = some (b, img)) ∧
  ((∀ img, ¬good b img) → (∀ img, good (!b) img → slot = some (!b, img)) ∧ ((∀ img, ¬good (!b) img) → slot = none))

/-- A measurement on its way to LD0's core (17 R435). -/
def Measures (m : Meas) (kind die flags : Nat) (digest : List Byte) : Prop :=
  m.kind = BitVec.ofNat 8 kind ∧ m.die = BitVec.ofNat 8 die ∧ m.flags = BitVec.ofNat 16 flags ∧ m.digest = digest

/-- A start's entry joins those on their way: before the first one of a later kind, or of its kind and a later die (17 R435, R437; log entry 58). -/
def JoinsAt (m : Meas) (l l' : List Meas) : Prop :=
  let later := fun (x : Meas) => m.kind.toNat < x.kind.toNat ∨ (m.kind = x.kind ∧ m.die.toNat < x.die.toNat)
  ∃ a b, l = a ++ b ∧ l' = a ++ m :: b ∧ (∀ x ∈ a, ¬later x) ∧ ∀ x, b.head? = some x → later x

/-- DRAM bring-up runs on die k (14 R357, R376). -/
def DramRuns (d : Device) (k : Nat) : Prop :=
  Booting d ∧ k ∈ d.boot.dms ∧ d.boot.dramStopped = false ∧ k ∉ d.boot.dramFailed ∧ ((5 ≤ d.boot.step ∧ d.boot.step ≤ 9) ∨ d.rst.st = .diagHold)

/-- The tables bring-up uses are canonical (CanonicalTables). -/
def BootTables (d : Device) : Prop :=
  Sparse.wf Tile.reset d.tiles = true ∧ Sparse.wf Frond.reset d.fronds = true ∧ Sparse.wf MemCtl.reset d.mcs = true ∧ Sparse.wf Link.reset d.bad.links = true ∧
  Sparse.wf BuDie.reset d.boot.dies = true ∧ (∀ t, Sparse.wf 0 (d.tile t).imem = true)

end Sys2Proof.Claims

open Sys2Proof Sys2Proof.Machine Sys2Proof.Claims in
/-- 13 R349, R351, 14 R355-R362, R369-R379, 17 R425, R432-R435: bring-up in its order: the fuse map, each core's ROM, firmware and measurements, recovery or a reset where it fails, the die managers,
the network's self-test, the censuses, the DRAM of the dies in turn and its zero fill, both parts of self-test with fiddlehead service between them, the batches of part
II, and closing, which ends in READY; what fails holds the device with its cause. Premise: the tables are canonical (CanonicalTables). -/
def Obligations.BringUp : Prop :=
  ∀ (s : State) (k : Nat), k < 8 → BootTables s.dev →
    let d := s.dev
    let b := d.boot
    (¬Booting d ∨ b.warm = true ∨ b.sensed = true → Gives .fuseSense s d) ∧
    (Booting d → b.warm = false → b.sensed = false → ∃ d', Gives .fuseSense s d' ∧
      d' = { d with fuses := d'.fuses, tiles := d'.tiles, pwr := { d.pwr with pll := [0, 1, 2, 3, 4, 5, 6, 7] }, boot := { b with sensed := true, step := 1 } } ∧
      (∀ x y z, d.fuses.copies = [x, y, z] → ∃ m : FuseMap, d'.fuses.crcOk = decide (crc32c (Config.fuseBytes m) = m.crc) ∧ MajorityOf x.crc y.crc z.crc m.crc ∧
        MajorityOf x.variant y.variant z.variant m.variant ∧ d'.fuses.variant = m.variant ∧ MajorityOf x.linkEn y.linkEn z.linkEn m.linkEn ∧ d'.fuses.linkEn = m.linkEn ∧
        MajorityOf x.patchEn y.patchEn z.patchEn m.patchEn ∧ d'.fuses.patchEn = m.patchEn ∧ MajorityOf x.serial y.serial z.serial m.serial ∧ d'.fuses.serial = m.serial ∧
        (∀ j, j < 8 → MajorityOf (x.frondEn.getD j 0) (y.frondEn.getD j 0) (z.frondEn.getD j 0) (m.frondEn.getD j 0) ∧
          MajorityOf (x.mcEn.getD j 0) (y.mcEn.getD j 0) (z.mcEn.getD j 0) (m.mcEn.getD j 0)) ∧ d'.fuses.frondEn = m.frondEn ∧ d'.fuses.mcEn = m.mcEn ∧
        (∀ t, d'.tile t = { d.tile t with arr := { (d.tile t).arr with spareSel := (d'.tile t).arr.spareSel } }) ∧
        ∀ t v, Sparse.find d'.fuses.spareSel t = some v → (d'.tile t).arr.spareSel = v)) ∧
    (∀ okA okB, let starts := Booting d ∧ b.sensed = true ∧ (∀ j, j < 8 → j ∈ d.pwr.pll) ∧ b.step ≤ 2 ∧ k ∉ b.cores
     let boot : Instr := .secBoot ⟨k, okA, okB⟩
     let e := { d with fuses := d.fuses.senseSec }
     let bad := e.fuses.secCrcBad = true ∨ (e.fuses.svcBits &&& (e.fuses.svcBits + 1)) ≠ 0
     (¬starts → Gives boot s d) ∧ (∀ x y z, d.fuses.secCopies = [x, y, z] → MajorityOf x.svc y.svc z.svc e.fuses.svcBits) ∧
     (starts → bad → ∃ d', Gives boot s d' ∧ ColdFrom e .security d') ∧
     (starts → ¬bad → ∃ (d' : Device) (slot : Option (Bool × List Byte)), Gives boot s d' ∧ BootsFrom e (fun b => if b then okB else okA) slot ∧ k ∈ d'.boot.cores ∧
       (∃ (m : Meas) (l1 l2 : List Meas), JoinsAt m d.sec.inbox l1 ∧ Measures m 1 k 0 (Config.shake256 (Config.romBytes k) 64) ∧
         (∀ b img, slot = some (b, img) → ∃ m2, JoinsAt m2 l1 l2 ∧ Measures m2 2 k (b2n b) (Config.shake256 (img.take 256) 64) ∧ m2.version = BitVec.ofNat 64 (leAt img 8 8)) ∧
         (slot = none → l2 = l1) ∧ (k ≠ 0 → d'.sec.inbox = l2) ∧
         (k = 0 → ∃ m3, JoinsAt m3 l2 d'.sec.inbox ∧ Measures m3 3 0 0 (Config.shake256 (e.ownerKey.headD (List.replicate 64 0)) 64))) ∧
       (∀ b img, slot = some (b, img) → k ∈ d'.sec.fwOk ∧ (k ∈ d'.sec.slotB ↔ b = true) ∧ (k = 0 → d'.sec.fuseSvn = BitVec.ofNat 64 (imgFuseSvn img))) ∧
       (slot = none → d'.sec.fwOk = d.sec.fwOk ∧ (k = 0 → d'.rst.st = .diagHold ∧ d'.sec.recovery = true)) ∧
       (b.cores.length < 7 → (k ≠ 0 ∨ slot ≠ none) → d'.rst.st = d.rst.st ∧ d'.boot.step = 2) ∧
       (b.cores.length = 7 → d.sec.recovery = false → slot ≠ none → d.sec.fwOk.length = 7 → k ∉ d.sec.fwOk → e.mapOk = true →
         d'.rst.st = .early ∧ d'.boot.step = 3 ∧ d'.boot.dms = d'.sec.fwOk) ∧
       (b.cores.length = 7 → d.sec.recovery = false → slot ≠ none → e.mapOk = false → d'.rst.st = .diagHold ∧ ∀ j, j < 8 → j ∈ d'.boot.dms → (d'.buDie j).holdCause = 1) ∧
       (b.cores.length = 7 → d.sec.recovery = false → k ≠ 0 → slot = none → d.sec.fwOk.length ≤ 7 → e.mapOk = true →
         d'.rst.st = .diagHold ∧ ∀ j, j < 8 → j ∈ d'.boot.dms → (d'.buDie j).holdCause = 7))) ∧
    (∀ failed, (¬(Booting d ∧ b.step = 3) → Gives (.networkSelftestDone failed) s d) ∧
      (Booting d → b.step = 3 → failed = [] → Gives (.networkSelftestDone failed) s { d with boot := { b with step := 4 } }) ∧
      (Booting d → b.step = 3 → failed ≠ [] → d.rst.st = .early → ∃ d', Gives (.networkSelftestDone failed) s d' ∧ HoldFrom d 3 d')) ∧
    (∀ r a, a ∈ d.expectedAt r ↔ (∃ o, o < 4 ∧ isBridge r o = true ∧ a = ⟨r, o, .bridge⟩) ∨ a = ⟨r, 6, .router (r % 12) (r / 12)⟩ ∨
      ∃ p, p < 2 ∧ d.attached (unitAt r p) = true ∧ a = ⟨r, 4 + p, .unit (unitAt r p)⟩) ∧
    (∀ f m n p q, d.attached (.frond f) = d.frondOn f ∧ d.attached (.mc m) = d.mcOn m ∧ d.attached (.link n) = d.linkOn n ∧ d.attached (.patch p q) = d.patchOn p ∧
      d.attached .none = false) ∧
    (∀ answers : List Answer, (¬(Booting d ∧ (b.step = 4 ∨ b.step = 10)) → Gives (.census answers) s d) ∧
      (let missing := fun (j : Nat) => ((dieRouters j).flatMap d.expectedAt).filter fun a => decide (a ∉ answers)
       let extra := fun (j : Nat) => answers.filter fun a => decide (rtrDie a.r = j) && !decide (a.r < 384 ∧ a ∈ d.expectedAt a.r)
       let agree := ∀ j, j < 8 → missing j = [] ∧ extra j = []
       Booting d → b.step = 4 ∨ b.step = 10 → d.rst.st = .early ∨ d.rst.st = .fiddlehead → ∃ d', Gives (.census answers) s d' ∧
        (∀ j, j < 8 → ((d'.buDie j).agree = true ↔ agree) ∧ (d'.buDie j).missing = BitVec.ofNat 8 (min 255 (missing j).length) ∧
          (d'.buDie j).extra = BitVec.ofNat 8 (min 255 (extra j).length) ∧
          (d'.buDie j).passes = (if (d.buDie j).passes = 255 then 255 else (d.buDie j).passes + 1) ∧
          (missing j = [] → extra j = [] → (d'.buDie j).firstU = (d.buDie j).firstU)) ∧
        ((∀ a, a ∈ answers ↔ a.r < 384 ∧ a ∈ d.expectedAt a.r) → agree) ∧
        (¬agree → HoldFrom d (if b.step = 10 then 5 else 2) d') ∧
        (agree → b.step = 10 → d'.boot.step = 11) ∧
        (agree → b.step = 4 → d'.boot.step = 5 ∧
          (∀ n, n < 16 → d.linkOn n = true → bitAt b.linkAuto n = true → (d.link n).st = .disabled → (d'.link n).st = .detect) ∧
          (b.warm = false → b.dramStopped = false → b.dramFailed = [] → b.trained = [] → 0 ∈ b.dms →
            ∀ m ∈ d.mcsOf 0, (d.mc m).st = .off → (d'.mc m).st = .training)))) ∧
    (let order := b.warm = true ∨ (∀ j, j < k → j ∈ b.dms → j ∈ b.trained ∨ j ∈ b.dramFailed)
     (∀ failed, ¬DramRuns d k ∨ k ∈ b.trained ∨ ¬order → Gives (.dramTrainDone k failed) s d) ∧
     (DramRuns d k → k ∉ b.trained → order →
       (d.rst.st = .early ∨ d.rst.st = .fiddlehead → ∃ d', Gives (.dramTrainDone k true) s d' ∧ HoldFrom d 6 d') ∧
       (∃ d', Gives (.dramTrainDone k false) s d' ∧ k ∈ d'.boot.trained ∧
         (b.warm = false → ∀ m ∈ d.mcsOf k, (d.mc m).store = false → (d'.mc m).st = .run ∧ (d'.mc m).store = true ∧ (d'.mc m).trained = 0xF ∧ (d'.mc m).trainTemp = (d.mc m).temp ∧
           (d'.mc m).cmds = ((d.mc m).logAll (d.time k) 6).cmds) ∧
         (b.warm = false → b.step = 5 → d'.boot.step = 6) ∧
         (b.warm = true → k ∈ d'.boot.serving ∧ ∀ m ∈ d.mcsOf k, (d.mc m).store = true → (d.mc m).st = .selfRefresh → (d'.mc m).st = .run)))) ∧
    (let starts := DramRuns d k ∧ b.warm = false ∧ k ∈ b.trained ∧ k ∉ b.serving
     (∀ x, ¬starts → Gives (.dramTestDone k x) s d) ∧
     (starts → d.rst.st = .early ∨ d.rst.st = .fiddlehead → ∃ d', Gives (.dramTestDone k true) s d' ∧ HoldFrom d 4 d') ∧
     let staged := (b.step = 5 ∨ b.step = 6) ∧ (k = 0 ∨ 0 ∈ b.serving)
     (starts → ∃ d', Gives (.dramTestDone k false) s d' ∧ k ∈ d'.boot.serving ∧
       (b.batch = [] ∨ (∃ t ∈ b.batch.flatMap d.tilesOf, (d.tile t).partII = false) → d.dram.wf = true → d.side.wf = true →
         let kept := fun (a : Nat) => ¬(staged ∧ d.stageAddr ≤ a ∧ a < d.stageAddr + 16384)
         (∀ a, a / 0x1000000000 = k → kept a → d'.dram.byte a = 0) ∧ (∀ a, a / 0x1000000000 ≠ k → kept a → d'.dram.byte a = d.dram.byte a) ∧
         (∀ a, a / 0x100000000 = k → kept (a / 4 * 64) → d'.side.byte a = 0)) ∧
       ((∀ j, j < 8 → j = k ∨ j ∈ b.serving) → d.cxl.mediaErr = false → d'.cxl.memActive = true) ∧
       (k = 0 → b.step = 5 ∨ b.step = 6 → d'.boot.step = 7 ∧ ∃ x, d'.sched.spore = some x ∧ x.cmd = none ∧ x.base = 14336 ∧ x.body.length = 2048 ∧
         (b.batch = [] → d.dram.wf = true → d.side.wf = true → Served d d.stageAddr 16384 →
           ∀ i j, i < 2048 → j < 8 → d'.dram.byte (d.stageAddr + 8 * i + j) = BitVec.ofNat 8 (fld (x.body.getD i 0) (8 * j) 8))))) ∧
    (∀ t pass faulty frondOk (ok : Byte), t < 3072 →
      let T := d.tile t
      let sound := fun (i : Nat) => fld T.arr.spareSel (3 * i) 3 ≤ 4 ∧ ∀ col, (i, col) ∈ faulty → col = fld T.arr.spareSel (3 * i) 3 ∧ col < 4
      let repaired := ∀ i, i < 8 → sound i
      let in1 := Booting d ∧ d.tileOn t = true ∧ b.step = 8 ∧ T.partI = false
      let in2 := Booting d ∧ d.tileOn t = true ∧ b.step = 9 ∧ T.partII = false ∧ (384 ≤ t ∨ b.warm = true ∨ t / 16 ∈ b.batch)
      let end1 := d.setTile t { T with partI := true, arr := { T.arr with spareOk := ok } }
      (¬in1 → ¬in2 → Gives (.selftestPartDone t pass faulty frondOk) s d) ∧
      (in1 → pass = true → frondOk = true → repaired → (∀ i, i < 8 → (bitAt ok i = true ↔ sound i)) →
        (b.batch = [] → (∃ j u, j < 8 ∧ u ∈ end1.testTiles j ∧ (end1.tile u).partI = false) → Gives (.selftestPartDone t pass faulty frondOk) s end1) ∧
        (b.warm = false → b.batch = [] → d.frondsOf 0 ≠ [] → (∀ j u, j < 8 → u ∈ end1.testTiles j → (end1.tile u).partI = true) →
          ∃ d', Gives (.selftestPartDone t pass faulty frondOk) s d' ∧ d'.rst.st = .fiddlehead ∧ d'.boot.step = 9 ∧ d'.boot.toTest = d.frondsOf 0 ∧
            ∀ f ∈ d.frondsOf 0, (d'.frond f).baseDiv = 4)) ∧
      (in1 → pass = false ∨ ¬repaired ∨ frondOk = false → ∃ d', Gives (.selftestPartDone t pass faulty frondOk) s d' ∧ (d'.tile t).partI = true ∧ (d'.tile t).avail = .selftest ∧
        ∀ i, i < 8 → (bitAt (d'.tile t).arr.spareOk i = true ↔ sound i)) ∧
      (in2 → pass = false → t / 16 ∉ b.batch → ∃ d', Gives (.selftestPartDone t pass faulty frondOk) s d' ∧ (d'.tile t).partII = true ∧ (d'.tile t).avail = .selftest) ∧
      (in2 → pass = true → ∃ d', Gives (.selftestPartDone t pass faulty frondOk) s d' ∧ (d'.tile t).partII = true)) ∧
    (Booting d → b.step = 9 → b.batch = [] → d.rst.st = .fiddlehead → b.toTest ≠ [] →
      let fs := b.toTest.take 4
      ∃ d', Gives .partIIBatch s d' ∧
        ((∃ f ∈ fs, d.frondWorks f = true ∨ (d.frond f).reserved ≠ []) → d'.boot = b ∧ (∀ f ∉ fs, d'.frond f = d.frond f) ∧ ∀ f ∈ fs, (d'.frond f).withheld = true) ∧
        ((∀ f ∈ fs, d.frondWorks f = false ∧ (d.frond f).reserved = []) → (∃ f ∈ fs, ∃ t ∈ d.tilesOf f, (d.tile t).partII = false) →
          d'.boot.batch = fs ∧ (∀ f ∉ fs, d'.frond f = d.frond f) ∧ ∀ f ∈ fs, (d'.frond f).withheld = true ∧ (d'.frond f).baseDiv = 2)) ∧
    (Booting d → b.step ≠ 8 → b.step ≠ 9 → b.batch = [] → d.rst.st ≠ .fiddlehead → Gives .partIIBatch s d) ∧
    (¬(Booting d ∧ b.step = 11) → Acts .closing s d) ∧
    (Booting d → b.step = 11 → ∃ d', Acts .closing s d' ∧ d'.rst.st = .ready ∧ d'.boot.step = 12 ∧
      d'.sec.blowing = (!b.warm && decide (d.svc < min d.sec.fuseSvn.toNat 64)) ∧ (∀ f ∈ d.frondsOf 0, (d'.frond f).baseDiv = 2) ∧
      (∀ t i, Sparse.get 0 (d'.tile t).imem i = if i < 14336 then Sparse.get 0 (d.tile t).imem i else 0) ∧
      (∃ l, d'.sec.inbox = d.sec.inbox ++ l ∧ l.length = 8 ∧ ∀ j m, l[j]? = some m → m.kind = 4 ∧ m.die = BitVec.ofNat 8 j ∧ m.digest = Config.shake256 d.availMap 64))

open Sys2Proof Sys2Proof.Machine Sys2Proof.Claims in
/-- 14 R363-R368, 08 R211, 17 R435: a broadcast is set up at the fronds of its dies, whose free tiles enter LOADING; its chunks go out by multicast, or by unicast in a repair round; a chunk is
written into each loading tile that misses it, and nowhere else; the tiles report; those that miss chunks are served again, and excluded after the fifth time; when none is
left, the load completes once its measurement is in. One broadcast runs at a time (log entry 39). Premise: the tables are canonical (CanonicalTables). -/
def Obligations.SporeBroadcast : Prop :=
  ∀ (s : State), BootTables s.dev →
    let d := s.dev
    let set := fun (x : Spore) => { d with sched := { d.sched with spore := some x } }
    (d.sched.spore = none → ∀ t f, t < 3072 → f < 192 → Gives .sporeSetup s d ∧ Gives .sporeChunkSend s d ∧ Gives .sporeReportRequest s d ∧ Gives (.sporeReport t) s d ∧
      Gives (.sporeReportTimeout f) s d ∧ Gives .sporeRepairRound s d) ∧
    (∀ x, d.sched.spore = some x →
      (x.setupDone = true → Gives .sporeSetup s d) ∧
      (x.setupDone = false → (∃ k f, k < 8 ∧ bitAt x.dies k = true ∧ f ∈ d.frondsOf k ∧ d.tilesOf f ≠ []) → ∃ (d' : Device) (x' : Spore), Gives .sporeSetup s d' ∧
        d'.sched.spore = some x' ∧ x'.setupDone = true ∧ x'.body = x.body ∧ x'.image = x.image ∧
        (∀ f, (∃ k, k < 8 ∧ bitAt x.dies k = true ∧ f ∈ d.frondsOf k) → d.tilesOf f ≠ [] → (d'.frond f).spore = some ⟨x.image, x.base, x.body.length, d.tilesOf f⟩) ∧
        (∀ t, (∃ k f, k < 8 ∧ bitAt x.dies k = true ∧ f ∈ d.frondsOf k ∧ t ∈ d.tilesOf f) →
          (d.canJoin t = true → (d'.tile t).seq.st = .loading ∧ (d'.tile t).chunks = [] ∧ (t, 1) ∈ x'.tiles) ∧
          (d.canJoin t = false → d'.tile t = d.tile t ∧ (t, 0) ∈ x'.tiles)) ∧
        ((∃ t, (t, 1) ∈ x'.tiles) → x'.queue = (List.range ((x.body.length + 15) / 16)).map fun i => (i, SporeDest.all)) ∧ ((∀ t, (t, 1) ∉ x'.tiles) → x'.queue = [])) ∧
      (x.queue = [] → Gives .sporeChunkSend s d) ∧
      (∀ i t rest, x.queue = (i, .tile t) :: rest → ∃ k, Gives .sporeChunkSend s ((set { x with queue := rest, sent := decide (rest = []) }).setFrond (t / 16)
        { d.frond (t / 16) with unicasts := (d.frond (t / 16)).unicasts ++ [(t, k)] }) ∧ fld k.hdr 0 10 = i % 1024 ∧
        (i < 1024 → fld k.hdr 10 12 = x.image.toNat ∧ ∀ j, j < 16 → fld (k.pay.headD 0) (64 * j) 64 = (x.body.getD (16 * i + j) 0).toNat)) ∧
      (∀ i dst rest, x.queue = (i, dst) :: rest → dst = .all ∨ (∃ f, dst = .frond f ∧ f < 192) → i < 1024 → Sparse.wf Router.reset d.routers = true → ∃ (d' : Device) (k : Packet),
        Gives .sporeChunkSend s d' ∧ d'.sched.spore = some { x with queue := rest, sent := decide (rest = []) } ∧
        Sends d d' (if x.cmd.isSome then ⟨cmdRouter, 1⟩ else ⟨routerAt 0 2 0, 1⟩) none k ∧ k.type = 10 ∧ fld k.hdr 22 4 = 0 ∧ fld k.hdr 0 10 = i ∧ fld k.hdr 10 12 = x.image.toNat ∧
        d'.tiles = d.tiles ∧ d'.fronds = d.fronds) ∧
      (¬(x.setupDone = true ∧ x.sent = true) → Gives .sporeReportRequest s d) ∧
      (x.setupDone = true → x.sent = true → Gives .sporeReportRequest s (set { x with
        sent := false, asked := (x.tiles.filter fun e => decide (e.2 ≠ 0)).map (·.1), missing := [] })) ∧
      (∀ f, f < 192 → Gives (.sporeReportTimeout f) s (set { x with
        asked := x.asked.filter fun t => decide (t / 16 ≠ f)
        missing := x.missing ++ (x.asked.filter fun t => decide (t / 16 = f)).map fun t => (t, List.range ((x.body.length + 15) / 16)) })) ∧
      (∀ t, t < 3072 →
        let n := (x.body.length + 15) / 16
        let whole := ∀ i, i < n → i ∈ (d.tile t).chunks
        (t ∉ x.asked → Gives (.sporeReport t) s d) ∧
        (t ∈ x.asked → ¬whole → ∃ l, Gives (.sporeReport t) s (set { x with asked := x.asked.filter (fun u => u != t), missing := x.missing ++ [(t, l)] }) ∧
          ∀ i, i < n → i ∉ (d.tile t).chunks → i ∈ l) ∧
        (t ∈ x.asked → whole → x.setupDone = true → (∃ e ∈ x.tiles, e.1 ≠ t) → ∃ d', Gives (.sporeReport t) s d' ∧ (d'.tile t).seq.st = .idle ∧
          d'.sched.spore = some { x with asked := x.asked.filter (fun u => u != t), tiles := x.tiles.filter (fun e => e.1 != t), loaded := x.loaded + 1 } ∧
          (∀ u, u ≠ t → d'.tile u = d.tile u)) ∧
        (t ∈ x.asked → whole → x.setupDone = true → (∀ e ∈ x.tiles, e.1 = t) → ∃ d', Gives (.sporeReport t) s d' ∧ (d'.tile t).seq.st = .idle ∧ d'.sched.spore = none ∧
          (x.cmd = none → d.boot.step = 7 → d'.boot.step = 8) ∧
          (∀ q g, x.cmd = some (q, g) → d'.sched.programs = d.sched.programs ++ [⟨x.prog, x.base, x.body.length⟩] ∧ d'.host.inflight = d.host.inflight ∧
            ∃ m : Meas, d'.sec.inbox = d.sec.inbox ++ [m] ∧ m.kind = 5 ∧ m.digest = Config.shake256 x.hdr 64 ∧
              m.andThen = some (cpl (if x.excluded = 0 then .success else .successDerated) (BitVec.ofNat 64 (65536 * x.excluded + (x.loaded + 1))) 0 0)))) ∧
      (x.setupDone = false ∨ x.queue ≠ [] ∨ x.sent = true ∨ x.asked ≠ [] → Gives .sporeRepairRound s d) ∧
      (x.setupDone = true → x.queue = [] → x.sent = false → x.asked = [] → ∀ t l n, x.missing = [(t, l)] → x.tiles = [(t, n)] → l ≠ [] → 1 ≤ n →
        (n < 5 → ∃ q, Gives .sporeRepairRound s (set { x with queue := q, missing := [], tiles := [(t, n + 1)] }) ∧
          (l.length ≤ 16 → q = l.map fun i => (i, .tile t)) ∧ (16 < l.length → ∀ i, (i, SporeDest.frond (t / 16)) ∈ q ↔ i ∈ l)) ∧
        (5 ≤ n → ∃ d', Gives .sporeRepairRound s d' ∧ (d'.tile t).avail = .spore ∧ d'.sched.spore = none))) ∧
    (∀ f bad, f < 192 →
      ((d.frond f).unicasts = [] → (d.frond f).mcBuf = [] → Gives (.sporeChunkWrite f bad) s d) ∧
      (∀ (one : Option Nat) p (y : Frond), ((d.frond f).unicasts = [] ∧ one = none ∧ ∃ rest, (d.frond f).mcBuf = p :: rest ∧ y = { d.frond f with mcBuf := rest }) ∨
          (∃ t rest, (d.frond f).unicasts = (t, p) :: rest ∧ one = some t ∧ y = { d.frond f with unicasts := rest }) →
        ((∀ j, (d.frond f).spore = some j → fld p.hdr 10 12 ≠ j.image.toNat) → Gives (.sporeChunkWrite f bad) s (d.setFrond f y)) ∧
        (∀ j, (d.frond f).spore = some j → fld p.hdr 10 12 = j.image.toNat →
          let i := fld p.hdr 0 10
          let takes := fun (t : Nat) => (∀ t0, one = some t0 → t = t0) ∧ (one = none → t / 16 = f) ∧ t ∈ j.tiles ∧ (d.tile t).seq.st = .loading ∧ i ∉ (d.tile t).chunks
          ∃ d', Gives (.sporeChunkWrite f bad) s d' ∧ d'.fronds = (d.setFrond f y).fronds ∧
            (∀ t, ¬takes t → d'.tile t = d.tile t) ∧
            (∀ t, takes t → t ∈ bad → (d'.tile t).chunks = (d.tile t).chunks ∧ ∀ w, w < j.base + 16 * i ∨ j.base + 16 * i + 16 ≤ w →
              Sparse.get 0 (d'.tile t).imem w = Sparse.get 0 (d.tile t).imem w) ∧
            (∀ t, takes t → t ∉ bad → i ∈ (d'.tile t).chunks ∧ (d'.tile t).mem = (d.tile t).mem ∧
              (∀ w, w < 16 → 16 * i + w < j.n → Sparse.get 0 (d'.tile t).imem (j.base + 16 * i + w) = BitVec.ofNat 64 (fld (p.pay.headD 0) (64 * w) 64)) ∧
              ∀ w, w < j.base + 16 * i ∨ j.base + 16 * i + 16 ≤ w ∨ j.base + j.n ≤ w → Sparse.get 0 (d'.tile t).imem w = Sparse.get 0 (d.tile t).imem w))))

namespace Sys2Proof.Claims

open Sys2Proof Sys2Proof.Machine

/-- The device with what the CXL port says of it replaced. -/
def withCxl (d : Device) (c : Cxl) : Device := { d with cxl := c }

/-- Configuration requests are answered (15 R393). -/
def Configured (d : Device) : Prop := d.cxl.up = true ∧ d.rst.st ≠ .reset

/-- CXL.mem and CXL.cache run (15 R382). -/
def AllProtocols (d : Device) : Prop := d.cxl.up = true ∧ d.cxl.cxlMode = true

/-- Host address x is the device physical address h by the committed decoder: its chunk among this device's chunks, and its place in it (15 R388; log entry 119). -/
def Decodes (c : Cxl) (x h : Nat) : Prop :=
  c.hdm = true ∧ c.hdmBase ≤ x ∧ h = (x - c.hdmBase) / (c.hdmGran * c.hdmWays) * c.hdmGran + (x - c.hdmBase) % c.hdmGran ∧ h < c.hdmSize

/-- Host address x stands for internal address a in a segment that serves data, and no WARM reset holds it back (15 R388, R393). -/
def ServesAt (d : Device) (x a : Nat) : Prop :=
  ∃ h, Decodes d.cxl (x / 64 * 64) h ∧ d.hdm h = some a ∧ a / 0x1000000000 ∈ d.boot.serving ∧ d.cxl.warming = false

/-- Buffer and PANIC of the port once a request has entered (15 R391). -/
def Entered (c c' : Cxl) (write : Bool) (num next : BitVec 16) (x : Nat) : Prop :=
  c' = { c with rxbuf := c.rxbuf ++ [(write, num, x)], nextTx := next, panic := c'.panic, owned := c'.owned } ∧
  (192 < c.rxbuf.length + 1 → c'.panic = true) ∧ (c.rxbuf.length + 1 < 128 → c'.panic = false) ∧
  (128 ≤ c.rxbuf.length + 1 → c.rxbuf.length + 1 ≤ 192 → c'.panic = c.panic)

/-- No write waits in the port's buffer under SUB i. -/
def SubFree (c : Cxl) (i : Nat) : Prop := ∀ e ∈ c.rxbuf, ¬(e.1 = true ∧ e.2.1 = BitVec.ofNat 16 i)

/-- The pending vectors whose messages the port may send as the device now stands (08 R225, 15 R384). -/
def Sendable (d : Device) (v : Nat) : Prop :=
  bitAt d.host.msix.pba v = true ∧ bitAt d.host.msix.unmasked v = true ∧ d.cxl.msixEn = true ∧ d.cxl.msixMask = false

end Sys2Proof.Claims

open Sys2Proof Sys2Proof.Machine Sys2Proof.Claims in
/-- 15 R381, R382, R384-R391, R393, R394, 08 R228, 01 R26: the host link comes up at a rate and width, in the mode they allow, and goes down by surprise; with its return HOST_LINK_LOST
reports the counts. Configuration requests (the enables, the power state, HDM commits, DOE) take effect where they are answered; held completions and pending vectors go
out once the enables and the power state allow it; snoops and answers act on the coherency cache, on host memory and on what waits for a line; the host's reads and writes
go by the decoder onto the network at the port, or are answered without data. The decoder's arithmetic is log entry 119, CDAT's layout 120; a report no identity signs is
answered with the error bit, and an answer without data resolves a line (log entries 3 and 23). -/
def Obligations.HostLink : Prop :=
  ∀ (s : State),
    let d := s.dev
    let c := d.cxl
    let alive := d.mod.powered = true ∧ d.rst.held = false ∧ d.mod.perst = false
    let quiet := d.host.heldOrder = [] ∧ c.biasJobs = []
    (∀ all3 rate lanes,
      let width := lanes ∈ [1, 2, 4, 8, 16]
      (c.up = true ∨ ¬alive ∨ ¬width → Gives (.cxlLinkL0 all3 rate lanes) s d) ∧
      (c.up = false → alive → width → ∃ mode own : Bool, (mode = true ↔ all3 = true ∧ rate ≠ .g2_5 ∧ 4 ≤ lanes) ∧
        (own = true ↔ d.boot.refclk = 1 ∨ d.mod.refclk = false) ∧
        let on := { c with up := true, rate := rate, lanes := lanes, sris := own, cxlMode := mode }
        (c.lost = false → Gives (.cxlLinkL0 all3 rate lanes) s (withCxl d on)) ∧
        (c.lost = true → Gives (.cxlLinkL0 all3 rate lanes) s ((withCxl d { on with
          lost := false, discarded := 0, heldTokens := 0, bme := false, mse := false, msixEn := false, msixMask := false, d3 := false, hdm := false, hdmErr := false
          hdmBase := 0, hdmSize := 0, hdmWays := 0, hdmGran := 0, devBias := [], doe := none, resetDone := false }).raise 0x28
            (BitVec.ofNat 64 c.discarded) (BitVec.ofNat 64 c.heldTokens))))) ∧
    (c.up = false → Gives .cxlLinkDown s d) ∧
    (c.up = true → quiet → ∃ d', Gives .cxlLinkDown s d' ∧
      d'.cxl = { c with up := false, lost := true, dcc := [], rxbuf := [], panic := false, asked := [], owned := [] } ∧ d'.host.fetchStopped = true ∧
      (∀ q, q < 64 → d'.queue q = (if (d.queue q).st = .active ∧ (isHost (d.queue q).sqBase ∨ isHost (d.queue q).cqBase) then
        { d.queue q with st := .stopped, error := BitVec.ofNat 8 0x7F } else d.queue q)) ∧
      d'.tiles = d.tiles ∧ d'.dram = d.dram ∧ d'.hostMem = d.hostMem ∧ d'.sched = d.sched) ∧
    (∀ q g cmd p, c.up = true → d.host.heldOrder = [some (q, g)] → d.host.events = [] → c.biasJobs = [] → d.cmdOf q g = some cmd → cmd.held = some p →
      cmd.discard = false → isHost (d.queue cmd.q).cqBase = true →
      ∃ d', Gives .cxlLinkDown s d' ∧ d'.cxl.discarded = c.discarded + 1 ∧ (∀ e ∈ d'.host.inflight, ¬(e.q = cmd.q ∧ e.tag = cmd.tag)) ∧ d'.hostMem = d.hostMem) ∧
    (∀ mem on en mask : Bool,
      (¬Configured d → Gives (.busMasterEnable ⟨mem, on, en, mask⟩) s d ∧ Gives (.dStateChange on) s d) ∧
      (Configured d →
        let send := fun (cmd : Instr) (d1 : Device) =>
          let up := d1.cxl.bme = true ∧ d1.cxl.d3 = false
          (¬up → Gives cmd s d1) ∧
          (up → d.host.heldOrder = [] → (∀ v, v < 64 → ¬Sendable d1 v) → Gives cmd s d1) ∧
          (up → d.host.heldOrder = [] → ∀ v, v < 64 → (∀ w, w < 64 → (Sendable d1 w ↔ w = v)) → Gives cmd s (d1.msi v)) ∧
          (up → d.host.events = [] → (∀ v, v < 64 → ¬Sendable d1 v) →
            ∀ q g x p, d.host.heldOrder = [some (q, g)] → d.cmdOf q g = some x → x.held = some p → x.noint = true → Gives cmd s (d1.postCpl x p))
        send (.busMasterEnable ⟨mem, on, en, mask⟩) (withCxl d { c with mse := mem, bme := on, msixEn := en, msixMask := mask }) ∧
        send (.dStateChange on) (withCxl d { c with d3 := on }))) ∧
    (∀ base ways gran size skip,
      let commit : Instr := .hdmCommit ways gran ⟨base, size⟩ skip
      (¬(Configured d ∧ c.cxlMode = true) → Gives commit s d) ∧
      (Configured d → c.cxlMode = true → ∃ ok : Bool,
        Gives commit s (withCxl d { c with hdm := ok, hdmErr := !ok, hdmBase := base, hdmSize := size, hdmWays := ways, hdmGran := gran }) ∧
        (ok = true ↔ (∃ i, i < 4 ∧ ways = 2 ^ i) ∧ (∃ i, i < 7 ∧ gran = 256 * 2 ^ i) ∧ size = 8 * d.variant.dram ∧ skip = 0))) ∧
    (∀ kind nonce,
      let answer := fun (e : Bool) (l : List Byte) => Gives (.doeRequest kind nonce) s (withCxl d { c with doe := some (e, l) })
      (¬Configured d → Gives (.doeRequest kind nonce) s d) ∧
      (Configured d →
        (kind = 0 → answer false Config.doeDiscovery) ∧
        (kind = 1 → ∃ l : List Byte, answer false l ∧ l.length = 136 ∧ leAt l 0 4 = 136 ∧ (l.map (·.toNat)).sum % 256 = 0 ∧ leAt l 16 1 = 0 ∧ leAt l 21 1 = 0 ∧ leAt l 24 8 = 0 ∧
          leAt l 32 8 = (if c.cxlMode then 8 * d.variant.dram else 0) ∧ (∀ i, i < 4 → leAt l (40 + 24 * i) 1 = 1 ∧ leAt l (46 + 24 * i) 1 = [1, 2, 4, 5].getD i 0) ∧
          (c.rate = .g32 → c.lanes = 16 → ∀ i, i < 4 → leAt l (56 + 24 * i) 2 = [260, 220, 56, 56].getD i 0)) ∧
        (kind = 2 → d.sec.identity = true → Gives (.doeRequest kind nonce) s (withCxl (d.report nonce).2 { c with doe := some (false, (d.report nonce).1) })) ∧
        (kind = 2 → d.sec.identity = false → answer true []) ∧ (3 ≤ kind → answer true []))) ∧
    (∀ addr data,
      let line := addr / 64
      (¬AllProtocols d → Gives (.hostSnoop addr) s d ∧ Gives (.cxlCacheResponse addr data) s d) ∧
      (AllProtocols d →
        (∃ l, Gives (.hostSnoop addr) s (withCxl d { c with dcc := l }) ∧ ∀ e, e ∈ l ↔ e ∈ c.dcc ∧ e.1 ≠ line) ∧
        (data.length ≠ 0 → data.length ≠ 64 → Gives (.cxlCacheResponse addr data) s d) ∧
        (data.length = 64 → d.hostMem.wf = true → ∃ m : Mem, Gives (.cxlCacheResponse addr data) s { d with hostMem := m } ∧
          ∀ a, m.byte a = if a / 64 = line then data.getD (a % 64) 0 else d.hostMem.byte a) ∧
        (data = [] → Sparse.wf Router.reset d.routers = true → ∃ d', Gives (.cxlCacheResponse addr data) s d' ∧
          (c.biasJobs = [] → d'.cxl = { c with asked := d'.cxl.asked, owned := d'.cxl.owned } ∧ (∀ x, x ∈ d'.cxl.asked ↔ x ∈ c.asked ∧ x ≠ line) ∧
            ∀ x, x ∈ d'.cxl.owned ↔ x ∈ c.owned ∨ (x = line ∧ line ∈ c.asked)) ∧
          ∀ r, (∀ k l, (k, l) ∈ (d'.router r).coher ↔ l ≠ [] ∧ ∃ l0, (k, l0) ∈ (d.router r).coher ∧ l = l0.filter (fun n => n != line)) ∧
            (∀ k, k ∈ d'.inboxOf ⟨r, 0⟩ ↔ k ∈ d.inboxOf ⟨r, 0⟩ ∨ ∃ l0, (k, l0) ∈ (d.router r).coher ∧ ∀ n ∈ l0, n = line)))) ∧
    (∀ x data,
      let line := fitBytes 64 data
      (¬AllProtocols d → Gives (.cxlMemRead x) s d ∧ Gives (.cxlMemWrite x data) s d) ∧
      (AllProtocols d → (∀ a, ¬ServesAt d x a) →
        Gives (.cxlMemRead x) s (withCxl d { c with memOut := some (true, poisonData (x / 64 * 64) 64) }) ∧ Gives (.cxlMemWrite x data) s d) ∧
      (∀ a, AllProtocols d → ServesAt d x a →
        (256 ≤ c.rxbuf.length → Gives (.cxlMemRead x) s d ∧ Gives (.cxlMemWrite x data) s d) ∧
        ((∀ i, i < 64 → ¬SubFree c i) → Gives (.cxlMemWrite x data) s d) ∧
        (c.rxbuf.length < 256 → ∃ (d' : Device), Gives (.cxlMemRead x) s d' ∧ Entered c d'.cxl false c.nextTx (c.nextTx + 1) x ∧
          (∀ n, n ∈ d'.cxl.owned ↔ n ∈ c.owned ∧ n ≠ a / 64) ∧
          Sends d d' ⟨cxlRouter, 1⟩ (some a) (mkRead d'.cxl.panic ⟨cxlRouter, 1⟩ c.nextTx a 64) ∧ d'.tiles = d.tiles ∧ d'.dram = d.dram ∧ d'.host = d.host) ∧
        (∀ i, c.rxbuf.length < 256 → i < 64 → SubFree c i → (∀ n, n < i → ¬SubFree c n) →
          ∃ (d' : Device), Gives (.cxlMemWrite x data) s d' ∧ Entered c d'.cxl true (BitVec.ofNat 16 i) c.nextTx x ∧ d'.cxl.owned = c.owned ∧
            (a % 128 = 0 → Sends d d' ⟨cxlRouter, 1⟩ (some a) (mkWriteM d'.cxl.panic ⟨cxlRouter, 1⟩ i a (line ++ List.replicate 64 0) (BitVec.ofNat 128 (2 ^ 64 - 1)))) ∧
            (a % 128 = 64 → Sends d d' ⟨cxlRouter, 1⟩ (some a) (mkWriteM d'.cxl.panic ⟨cxlRouter, 1⟩ i (a - 64) (List.replicate 64 0 ++ line)
              (BitVec.ofNat 128 ((2 ^ 64 - 1) <<< 64)))) ∧ d'.tiles = d.tiles ∧ d'.dram = d.dram ∧ d'.host = d.host)))

namespace Sys2Proof.Claims

open Sys2Proof Sys2Proof.Machine

/-- A table whose keys strictly rise and which lists no default. -/
def Tidy {α : Type} [DecidableEq α] (x : α) (m : Sparse α) : Prop := Sparse.wf x m = true

/-- A table whose keys strictly rise, where being listed means something. -/
def Rising {α : Type} (m : Sparse α) : Prop := m.Pairwise fun a b => a.1 < b.1

/-- The tables of a tile: registers, predicates, loop counters, operand SRAM and instruction memory. -/
def TileTidy (T : Tile) : Prop :=
  T.mem.wf = true ∧ Tidy 0 T.imem ∧ Tidy 0 T.seq.g ∧ Tidy 0 T.seq.v ∧ Tidy 0 T.seq.p ∧ Tidy 0 T.seq.lc

/-- The tables of a router. -/
def RouterTidy (R : Router) : Prop := Tidy [] R.outbox ∧ Tidy [] R.inbox ∧ Tidy [] R.wire ∧ Tidy 0 R.replay ∧ Tidy 0 R.used ∧ Tidy 0 R.owed

/-- The tables of a memory controller; every buffered write, and every corrected codeword that waits for an entry, holds the 64 bytes of its codeword. -/
def McTidy (M : MemCtl) : Prop :=
  Tidy Channel.reset M.ch ∧ ∀ c, Tidy 0 (M.chan c).openRow ∧ ∀ e ∈ (M.chan c).wbuf ++ (M.chan c).backs, e.data.length = 64

/-- Every table of the device is in its canonical form: equal contents are equal data. -/
structure Canonical (d : Device) : Prop where
  tiles : Tidy Tile.reset d.tiles ∧ ∀ t, TileTidy (d.tile t)
  fronds : Tidy Frond.reset d.fronds ∧ ∀ f, Tidy 0 (d.frond f).reports
  queues : Tidy HQueue.reset d.hqs ∧ Tidy HostQueue.reset d.host.queues
  routers : Tidy Router.reset d.routers ∧ ∀ r, RouterTidy (d.router r)
  controllers : Tidy MemCtl.reset d.mcs ∧ ∀ m, McTidy (d.mc m)
  memories : d.dram.wf = true ∧ d.side.wf = true ∧ d.hostMem.wf = true ∧ Tidy 0xFF d.flash
  counters : Tidy Counter.zero d.ctrs ∧ Tidy 0 d.sched.totals
  fabric : Tidy Region.reset d.fab.regions ∧ Tidy FPort.reset d.fab.ports ∧ d.fab.cfg.wf = true ∧ Rising d.fab.keepers ∧ ∀ e ∈ d.fab.keepers, e.1 < 64
  links : Tidy Link.reset d.bad.links
  power : Tidy 0 d.pwr.time ∧ Tidy Dom.run d.pwr.doms ∧ Tidy 0 d.pwr.tj ∧ Tidy BuDie.reset d.boot.dies
  module : Rising d.mod.smb

end Sys2Proof.Claims

open Sys2Proof Sys2Proof.Machine Sys2Proof.Claims in
/-- The block takes the command at the front of its queue, and nothing else: a step is exec of that command on the state with the rest of the queue, and no command changes the
queue. With no command waiting a step is one tick of the oscillator (the model's choice, log entry 9). -/
def Obligations.StepRunsCommand : Prop :=
  (∀ (s : State) (c : Instr) (rest : List Instr), s.pending = c :: rest → step s = exec c { s with pending := rest }) ∧
  (∀ s : State, s.pending = [] → step s = .next { s with dev := s.dev.tick }) ∧
  (∀ (c : Instr) (s s' : State), exec c s = .next s' → s'.pending = s.pending)

open Sys2Proof Sys2Proof.Machine Sys2Proof.Claims in
/-- 13 R335, R341, 04 R85, 08 R216, 16 R406: with no command waiting one 100 MHz tick passes: LD0's time counter counts, those of the other dies with it but for their drift, the horizon
counts down, CYCLE of a tile with an item advances by the tile cycles of the tick, a port in training sends its frames and a disabled one nothing; nothing else moves while the package is off but the module's time; a WARM reset asked for begins once no other command is outstanding. What an empty
queue does is the model's choice, log entry 9. Premise: the tables of the times and the links are canonical (CanonicalTables). -/
def Obligations.IdleTick : Prop :=
  ∀ (s : State), s.pending = [] → Tidy 0 s.dev.pwr.time → Tidy Link.reset s.dev.bad.links →
    let d := s.dev
    let waits := d.rst.pending = true ∧ ∀ c ∈ d.host.inflight, c.held.isSome = true
    (d.mod.powered = false → ¬waits → step s = .next { s with dev := { d with mod := { d.mod with ticks := d.mod.ticks + 1 } } }) ∧
    (d.mod.powered = true → ¬waits → ∃ d', step s = .next { s with dev := d' } ∧
      d'.time 0 = d.time 0 + 1 ∧ (∀ k, 1 ≤ k → k < 8 → ∃ n : Nat, n ≤ 2 ∧ d'.time k = d.time k + BitVec.ofNat 64 n) ∧ d'.mod = { d.mod with ticks := d.mod.ticks + 1 } ∧
      d'.host = { d.host with horizon := d.host.horizon.map fun h => h - 1 } ∧
      (∀ t, (d.tile t).running = none → d'.tile t = d.tile t) ∧
      (∀ t, (d.tile t).running ≠ none →
        let div := if d.rst.st = .ready ∨ d.rst.st = .diagHold then d.pwr.div else max (d.frond (t / 16)).baseDiv d.pwr.div
        d'.tile t = { d.tile t with seq := { (d.tile t).seq with cycle := (d.tile t).seq.cycle + BitVec.ofNat 64 (36 / div) } }) ∧
      (∀ n, n < 16 → d'.link n = { d.link n with tx := (d'.link n).tx } ∧ (d.linkOn n = false → d'.link n = d.link n) ∧
        (d.linkOn n = true → (d.link n).st = .disabled → (d'.link n).tx.out = []) ∧
        (d.linkOn n = true → (d.link n).st = .detect ∨ (d.link n).st = .acquire ∨ (d.link n).st = .equalize →
          (d'.link n).tx.out = (List.range 8).map fun lane => frameSymbols ((d.link n).frame lane))) ∧
      d' = { d with
        tiles := d'.tiles, host := d'.host, mod := d'.mod, pwr := { d.pwr with time := d'.pwr.time }, free := d'.free, bad := { d.bad with links := d'.bad.links } }) ∧
    (waits → d.rst.st = .ready ∨ d.rst.st = .diagHold ∨ d.boot.warm = true → ∃ d', step s = .next { s with dev := d' } ∧ d'.rst.cls = .warm ∧ d'.rst.cause = .swWarm ∧
      d'.rst.st = .reset ∧ d'.rst.pending = false ∧ d'.host.inflight = [] ∧ d'.boot.warm = true)

open Sys2Proof Sys2Proof.Machine Sys2Proof.Claims in
/-- 13 R350, R351, 04 R78, R86, 03 R75, 05 R130, 06 R152, 08 R192, R202, 10 R277, 12 R333, 16 R405, R409, R413, R422, 17 R435: right after a COLD reset at power good no command waits, the device is in RESET
with cause POWER_ON, every tile is IDLE with its arrays off and its flags, loops and fault register clear, every queue is empty or DISABLED, no credit is in use, no region is
configured, every port is DISABLED at preset P4 and held in L-RUN, the module has no address, the log is empty, no interrupt is pending, the time counters stand at 0, and the
tables are canonical. Values the spec does not give (registers at 0, log entry 5) are not part of this. -/
def Obligations.ResetState : Prop :=
  let s := State.reset
  let d := s.dev
  s.pending = [] ∧ Canonical d ∧ d.rst.st = .reset ∧ d.rst.cls = .cold ∧ d.rst.cause = .powerOn ∧ d.mod.powered = true ∧ d.boot.step = 0 ∧
  (∀ t, (d.tile t).seq.st = .idle ∧ (d.tile t).seq.loops = [] ∧ (d.tile t).seq.flags = Flags.clear ∧ (d.tile t).seq.fault.cause = .none ∧ (d.tile t).arr.enabled = 0 ∧
    (d.tile t).arr.active = none ∧ (d.tile t).arr.shadow = none ∧ (d.tile t).sel.valid = false ∧ (d.tile t).running = none) ∧
  (∀ q, (d.hq q).entries = [] ∧ (d.queue q).st = .disabled ∧ (d.queue q).sqHead = 0 ∧ (d.queue q).cqTail = 0) ∧
  d.host.inflight = [] ∧ d.host.events = [] ∧ d.host.msix.pba = 0 ∧ (d.host.wh, d.host.wm, d.host.wl) = (16, 4, 1) ∧
  (∀ r, (d.router r).inq = [] ∧ (d.router r).used = []) ∧ (∀ m, (d.mc m).frzCause = 0 ∧ (d.mc m).symbol = 0xFF ∧ (d.mc m).heldAddrs = []) ∧
  (∀ g, (d.region g).st = .blank ∧ (d.region g).period = 100 ∧ (d.region g).isolated = true) ∧ d.sched.runs = [] ∧ d.sched.programs = [] ∧
  (∀ n, (d.link n).st = .disabled ∧ (d.link n).taps = [0, -8, 48, -8, 0] ∧ (d.link n).allowed = false) ∧ d.bad.addr = none ∧
  d.sec.log = [] ∧ d.sec.count = 0 ∧ d.cxl.memActive = false ∧ d.cxl.devBias = [] ∧ (∀ k, d.time k = 0 ∧ (d.buDie k).passes = 0) ∧
  ∀ i, Sparse.get Counter.zero d.ctrs i = Counter.zero

open Sys2Proof Sys2Proof.Machine Sys2Proof.Claims in
/-- Whatever the state, a queue of well-formed commands is carried out to its end, one command a step, without a fault or a refusal; a command stops only by naming a unit the
part does not have, and a tile instruction of such a tile does (01 R16, R18, R20). -/
def Obligations.QueueNeverStops : Prop :=
  (∀ (n : Nat) (s : State), Safety.queueOk s = true → ∃ s', Safety.Runs n s s' ∧ s'.pending = s.pending.drop n) ∧
  (∀ (c : Instr) (s : State), (∃ s', exec c s = .next s') ∨ (c.wellFormed = false ∧ exec c s = .fault .noSuchUnit)) ∧
  (∀ (s : State) (t : Nat), 3072 ≤ t → ∀ c ∈ tileInstrs t, exec c s = .fault .noSuchUnit)

open Sys2Proof Sys2Proof.Machine Sys2Proof.Claims in
/-- Every command, and every tick, keeps the tables of the device in their canonical form, whatever the rest of the state. This is the premise "the tables are canonical" of the
other statements. -/
def Obligations.CanonicalTables : Prop := ∀ (s s' : State), Canonical s.dev → step s = .next s' → Canonical s'.dev
end

