-- ==== Sys2Proof/Laws/Dram.lean ====
section
/-! SUPPORT. What an act of an agent that R389 names comes to (15 R389): nothing of it waits where no host-bias line is touched, and where one is touched and
not resolved nothing of it is done but that the port asks for the line. -/

namespace Sys2Proof.Machine

variable (d : Device)

/-- An act that touches no host-bias line is done. -/
theorem Device.settled_untouched (old new : Device) (h : new.cxl.touched = []) : old.settled new = new := by simp [Device.settled, h]

/-- Everything settling can do. -/
theorem Device.settled_cases (old new : Device) :
    old.settled new = new ∨
      old.settled new = { new with cxl := { new.cxl with touched := [], owned := new.cxl.owned.filter fun l => !has new.cxl.touched l } } ∨
      ∃ l, old.settled new = { old with cxl := { old.cxl with asked := l } } := by
  unfold Device.settled
  simp only []
  split
  · exact Or.inl rfl
  · split
    · exact Or.inr (Or.inl rfl)
    · exact Or.inr (Or.inr ⟨_, rfl⟩)

/-- Where the host can hold no copy, an agent's reads and writes are plain ones. -/
theorem Device.touch_off (a n : Nat) (h : d.hostCaches = false) : d.touch a n = d := by simp [Device.touch, h]

theorem Device.agentRead_off (a n : Nat) (h : d.hostCaches = false) : d.agentRead a n = d.dramRead a n := by simp [Device.agentRead, d.touch_off a n h]

theorem Device.agentWrite_off (a : Nat) (l : List Byte) (h : d.hostCaches = false) : d.agentWrite a l = d.dramWrite a l := by
  simp [Device.agentWrite, d.touch_off a l.length h]

theorem runUnitC_ok (ok : Bool) (f : Device → Device) (s : State) (h : ok = true) : runUnitC ok f s = .next { s with dev := s.dev.settled (f s.dev) } := by
  simp [runUnitC, runC, h]

end Sys2Proof.Machine
end

