-- ==== Sys2Proof/Laws/Line.lean ====
section
/-! SUPPORT. The receiver's side of the line coding undoes the transmitter's (16 R398-R400, R403). -/

namespace Sys2Proof.Machine

theorem unPam4_pam4 (a b : Bool) : unPam4 (pam4 a b) = (a, b) := by cases a <;> cases b <;> rfl

/-- Scrambling twice from the same state gives the data back. -/
theorem scramble_scramble (l : List Bool) (s : BitVec 31) : (scramble s (scramble s l).1).1 = l := by
  induction l generalizing s with
  | nil => rfl
  | cons b l ih => simp [scramble, ih]

/-- The receiver removes exactly the stuff symbols, from any run shorter than 24. -/
theorem unstuff_stuff (l : List Nat) (r : Nat × Nat) : unstuff r false (stuff r l) = l := by
  induction l generalizing r with
  | nil => rfl
  | cons v l ih =>
    simp only [stuff]
    split
    · rename_i h; simp [unstuff, h, ih]
    · rename_i h; simp [unstuff, h, ih]

theorem markerBytes_length (lane : Nat) (seq : BitVec 32) : (markerBytes lane seq).length = 64 := by
  simp [markerBytes, markerHalf, leBytes]

end Sys2Proof.Machine
end

