-- ==== Sys2Proof/Laws/Sparse.lean ====
section
/-! SUPPORT. What the sparse tables and byte memories do: reading after writing, and the canonical form, which every operation keeps. -/

namespace Sys2Proof.Machine

variable {α : Type}

/-! ## Reading after writing -/

theorem Sparse.get_of_lt [DecidableEq α] (d : α) :
    ∀ (m : Sparse α) (lo k : Nat), Sparse.wfFrom d lo m = true → k < lo → Sparse.get d m k = d
  | [], _, _, _, _ => rfl
  | (j, x) :: r, lo, k, h, hk => by
    simp only [Sparse.wfFrom, Bool.and_eq_true, decide_eq_true_eq] at h
    have hj : ¬ j = k := by omega
    simp only [Sparse.get, hj, if_false]
    exact Sparse.get_of_lt d r (j + 1) k h.2 (by omega)

theorem Sparse.get_put_from [DecidableEq α] (d : α) :
    ∀ (m : Sparse α) (lo k : Nat) (x : α) (i : Nat), Sparse.wfFrom d lo m = true →
      Sparse.get d (Sparse.put d m k x) i = if i = k then x else Sparse.get d m i
  | [], _, k, x, i, _ => by
    by_cases hx : x = d
    · by_cases hi : i = k <;> simp [Sparse.put, Sparse.get, hx, hi]
    · by_cases hi : i = k
      · simp [Sparse.put, Sparse.get, hx, hi]
      · have : ¬ k = i := fun h => hi h.symm
        simp [Sparse.put, Sparse.get, hx, hi, this]
  | (j, y) :: r, lo, k, x, i, h => by
    have h' := h
    simp only [Sparse.wfFrom, Bool.and_eq_true, decide_eq_true_eq] at h'
    have hr := Sparse.get_put_from d r (j + 1) k x i h'.2
    by_cases hkj : k < j
    · have hjk : ¬ j = k := by omega
      have hk0 : Sparse.get d r k = d := Sparse.get_of_lt d r (j + 1) k h'.2 (by omega)
      by_cases hx : x = d
      · by_cases hi : i = k
        · subst hi; simp [Sparse.put, Sparse.get, hkj, hx, hjk, hk0]
        · simp [Sparse.put, hkj, hx, hi]
      · by_cases hi : i = k
        · subst hi; simp [Sparse.put, Sparse.get, hkj, hx]
        · have : ¬ k = i := fun e => hi e.symm
          simp [Sparse.put, Sparse.get, hkj, hx, hi, this]
    · by_cases he : k = j
      · subst he
        have hk0 : Sparse.get d r k = d := Sparse.get_of_lt d r (k + 1) k h'.2 (by omega)
        by_cases hx : x = d
        · by_cases hi : i = k
          · subst hi; simp [Sparse.put, hx, hk0]
          · have : ¬ k = i := fun e => hi e.symm
            simp [Sparse.put, Sparse.get, hx, hi, this]
        · by_cases hi : i = k
          · subst hi; simp [Sparse.put, Sparse.get, hx]
          · have : ¬ k = i := fun e => hi e.symm
            simp [Sparse.put, Sparse.get, hx, hi, this]
      · simp only [Sparse.put, hkj, he, if_false, Sparse.get]
        by_cases hi : j = i
        · subst hi
          have : ¬ j = k := fun e => he e.symm
          simp [this]
        · simp only [hi, if_false, hr]

/-- Reading after writing a canonical table: the value written at its key, what stood there before everywhere else. -/
theorem Sparse.get_put [DecidableEq α] (d : α) (m : Sparse α) (k : Nat) (x : α) (i : Nat) (h : Sparse.wf d m = true) :
    Sparse.get d (Sparse.put d m k x) i = if i = k then x else Sparse.get d m i :=
  Sparse.get_put_from d m 0 k x i h

theorem Sparse.get_put_self [DecidableEq α] (d : α) (m : Sparse α) (k : Nat) (x : α) (h : Sparse.wf d m = true) :
    Sparse.get d (Sparse.put d m k x) k = x := by
  rw [Sparse.get_put d m k x k h]; simp

theorem Sparse.get_put_ne [DecidableEq α] (d : α) (m : Sparse α) (k i : Nat) (x : α) (h : Sparse.wf d m = true) (hi : i ≠ k) :
    Sparse.get d (Sparse.put d m k x) i = Sparse.get d m i := by
  rw [Sparse.get_put d m k x i h]; simp [hi]

/-! ## The canonical form -/

theorem Sparse.wfFrom_mono [DecidableEq α] (d : α) :
    ∀ (m : Sparse α) (lo lo' : Nat), lo' ≤ lo → Sparse.wfFrom d lo m = true → Sparse.wfFrom d lo' m = true
  | [], _, _, _, _ => rfl
  | (j, x) :: r, lo, lo', hl, h => by
    simp only [Sparse.wfFrom, Bool.and_eq_true, decide_eq_true_eq] at h ⊢
    exact ⟨⟨by omega, h.1.2⟩, h.2⟩

theorem Sparse.put_wfFrom [DecidableEq α] (d : α) :
    ∀ (m : Sparse α) (lo k : Nat) (x : α), lo ≤ k → Sparse.wfFrom d lo m = true → Sparse.wfFrom d lo (Sparse.put d m k x) = true
  | [], lo, k, x, hl, _ => by
    by_cases hx : x = d
    · simp [Sparse.put, hx, Sparse.wfFrom]
    · simp [Sparse.put, hx, Sparse.wfFrom, hl]
  | (j, y) :: r, lo, k, x, hl, h => by
    have h' := h
    simp only [Sparse.wfFrom, Bool.and_eq_true, decide_eq_true_eq] at h'
    by_cases hkj : k < j
    · by_cases hx : x = d
      · simp only [Sparse.put, hkj, hx, if_true]; exact h
      · simp only [Sparse.put, hkj, hx, if_true, if_false, Sparse.wfFrom, Bool.and_eq_true, decide_eq_true_eq]
        exact ⟨⟨hl, by simp⟩, ⟨by omega, h'.1.2⟩, h'.2⟩
    · by_cases he : k = j
      · subst he
        by_cases hx : x = d
        · simp only [Sparse.put, Nat.lt_irrefl, if_false, if_true, hx]
          exact Sparse.wfFrom_mono d r (k + 1) lo (by omega) h'.2
        · simp only [Sparse.put, Nat.lt_irrefl, if_false, if_true, hx, Sparse.wfFrom, Bool.and_eq_true, decide_eq_true_eq]
          exact ⟨⟨hl, by simp⟩, h'.2⟩
      · simp only [Sparse.put, hkj, he, if_false, Sparse.wfFrom, Bool.and_eq_true, decide_eq_true_eq]
        exact ⟨h'.1, Sparse.put_wfFrom d r (j + 1) k x (by omega) h'.2⟩

/-- A write keeps the canonical form. -/
theorem Sparse.put_wf [DecidableEq α] (d : α) (m : Sparse α) (k : Nat) (x : α) (h : Sparse.wf d m = true) :
    Sparse.wf d (Sparse.put d m k x) = true :=
  Sparse.put_wfFrom d m 0 k x (Nat.zero_le k) h

theorem Sparse.filter_wfFrom [DecidableEq α] (d : α) (p : Nat × α → Bool) :
    ∀ (m : Sparse α) (lo : Nat), Sparse.wfFrom d lo m = true → Sparse.wfFrom d lo (m.filter p) = true
  | [], _, _ => rfl
  | (j, x) :: r, lo, h => by
    simp only [Sparse.wfFrom, Bool.and_eq_true, decide_eq_true_eq] at h
    have ih := Sparse.filter_wfFrom d p r (j + 1) h.2
    by_cases hp : p (j, x) = true
    · simp only [List.filter, hp, Sparse.wfFrom, Bool.and_eq_true, decide_eq_true_eq]
      exact ⟨h.1, ih⟩
    · simp only [List.filter, hp]
      exact Sparse.wfFrom_mono d _ (j + 1) lo (by omega) ih

/-- Removing entries keeps the canonical form. -/
theorem Sparse.filter_wf [DecidableEq α] (d : α) (p : Nat × α → Bool) (m : Sparse α) (h : Sparse.wf d m = true) :
    Sparse.wf d (m.filter p) = true :=
  Sparse.filter_wfFrom d p m 0 h

theorem Sparse.del_wf [DecidableEq α] (d : α) (m : Sparse α) (k : Nat) (h : Sparse.wf d m = true) : Sparse.wf d (Sparse.del m k) = true :=
  Sparse.filter_wf d _ m h

/-- The empty table is canonical: the tables and memories of a reset list nothing. -/
@[simp] theorem Sparse.wf_nil [DecidableEq α] (d : α) : Sparse.wf d ([] : Sparse α) = true := rfl

/-! ## Byte memories -/

theorem Mem.setByte_wf (m : Mem) (a : Nat) (b : Byte) (h : m.wf = true) : (m.setByte a b).wf = true := Sparse.put_wf 0 m a b h

theorem Mem.byte_setByte (m : Mem) (a i : Nat) (b : Byte) (h : m.wf = true) :
    (m.setByte a b).byte i = if i = a then b else m.byte i :=
  Sparse.get_put 0 m a b i h

/-- A write of bytes keeps the canonical form. -/
theorem Mem.write_wf : ∀ (l : List Byte) (m : Mem) (a : Nat), m.wf = true → (m.write a l).wf = true
  | [], _, _, h => h
  | b :: r, m, a, h => Mem.write_wf r (m.setByte a b) (a + 1) (Mem.setByte_wf m a b h)

/-- A masked write of bytes keeps the canonical form. -/
theorem Mem.writeMask_wf : ∀ (l : List (Byte × Bool)) (m : Mem) (a : Nat), m.wf = true → (m.writeMask a l).wf = true
  | [], _, _, h => h
  | (b, w) :: r, m, a, h => by
    cases w
    · exact Mem.writeMask_wf r m (a + 1) h
    · exact Mem.writeMask_wf r (m.setByte a b) (a + 1) (Mem.setByte_wf m a b h)

/-- A write of bytes leaves every byte outside it. -/
theorem Mem.byte_write_outside :
    ∀ (l : List Byte) (m : Mem) (a i : Nat), m.wf = true → (i < a ∨ a + l.length ≤ i) → (m.write a l).byte i = m.byte i
  | [], _, _, _, _, _ => rfl
  | b :: r, m, a, i, h, hi => by
    have hlen : (b :: r).length = r.length + 1 := rfl
    have hne : i ≠ a := by omega
    have ih := Mem.byte_write_outside r (m.setByte a b) (a + 1) i (Mem.setByte_wf m a b h) (by omega)
    show ((m.setByte a b).write (a + 1) r).byte i = m.byte i
    rw [ih, Mem.byte_setByte m a i b h]; simp [hne]

/-- A write of bytes puts each in its place. -/
theorem Mem.byte_write_inside :
    ∀ (l : List Byte) (m : Mem) (a j : Nat), m.wf = true → (hj : j < l.length) → (m.write a l).byte (a + j) = l[j]
  | b :: r, m, a, 0, h, _ => by
    show ((m.setByte a b).write (a + 1) r).byte (a + 0) = b
    rw [Mem.byte_write_outside r (m.setByte a b) (a + 1) (a + 0) (Mem.setByte_wf m a b h) (by omega), Mem.byte_setByte m a (a + 0) b h]
    simp
  | b :: r, m, a, j + 1, h, hj => by
    have hj' : j < r.length := by simpa using hj
    show ((m.setByte a b).write (a + 1) r).byte (a + (j + 1)) = r[j]
    have e : a + (j + 1) = (a + 1) + j := by omega
    rw [e]
    exact Mem.byte_write_inside r (m.setByte a b) (a + 1) j (Mem.setByte_wf m a b h) hj'

@[simp] theorem Mem.read_length : ∀ (n : Nat) (m : Mem) (a : Nat), (m.read a n).length = n
  | 0, _, _ => rfl
  | n + 1, m, a => by simp [Mem.read, Mem.read_length n m (a + 1)]

end Sys2Proof.Machine
end

