-- ==== Sys2Proof/Laws/State.lean ====
section
/-! SUPPORT. One lemma per field of the device per named update: the field an update does not touch. Every one is true by rfl, so that no later
proof unfolds a record update. -/

namespace Sys2Proof.Machine

variable (d : Device)

/-! ### setTile -/

@[simp] theorem Device.setTile_fronds (t : Nat) (x : Tile) : (d.setTile t x).fronds = d.fronds := rfl
@[simp] theorem Device.setTile_hqs (t : Nat) (x : Tile) : (d.setTile t x).hqs = d.hqs := rfl
@[simp] theorem Device.setTile_routers (t : Nat) (x : Tile) : (d.setTile t x).routers = d.routers := rfl
@[simp] theorem Device.setTile_mcs (t : Nat) (x : Tile) : (d.setTile t x).mcs = d.mcs := rfl
@[simp] theorem Device.setTile_dram (t : Nat) (x : Tile) : (d.setTile t x).dram = d.dram := rfl
@[simp] theorem Device.setTile_side (t : Nat) (x : Tile) : (d.setTile t x).side = d.side := rfl
@[simp] theorem Device.setTile_hostMem (t : Nat) (x : Tile) : (d.setTile t x).hostMem = d.hostMem := rfl
@[simp] theorem Device.setTile_flash (t : Nat) (x : Tile) : (d.setTile t x).flash = d.flash := rfl
@[simp] theorem Device.setTile_host (t : Nat) (x : Tile) : (d.setTile t x).host = d.host := rfl
@[simp] theorem Device.setTile_sched (t : Nat) (x : Tile) : (d.setTile t x).sched = d.sched := rfl
@[simp] theorem Device.setTile_fab (t : Nat) (x : Tile) : (d.setTile t x).fab = d.fab := rfl
@[simp] theorem Device.setTile_pwr (t : Nat) (x : Tile) : (d.setTile t x).pwr = d.pwr := rfl
@[simp] theorem Device.setTile_rst (t : Nat) (x : Tile) : (d.setTile t x).rst = d.rst := rfl
@[simp] theorem Device.setTile_boot (t : Nat) (x : Tile) : (d.setTile t x).boot = d.boot := rfl
@[simp] theorem Device.setTile_fuses (t : Nat) (x : Tile) : (d.setTile t x).fuses = d.fuses := rfl
@[simp] theorem Device.setTile_mod (t : Nat) (x : Tile) : (d.setTile t x).mod = d.mod := rfl
@[simp] theorem Device.setTile_cxl (t : Nat) (x : Tile) : (d.setTile t x).cxl = d.cxl := rfl
@[simp] theorem Device.setTile_bad (t : Nat) (x : Tile) : (d.setTile t x).bad = d.bad := rfl
@[simp] theorem Device.setTile_sec (t : Nat) (x : Tile) : (d.setTile t x).sec = d.sec := rfl
@[simp] theorem Device.setTile_ctrs (t : Nat) (x : Tile) : (d.setTile t x).ctrs = d.ctrs := rfl
@[simp] theorem Device.setTile_free (t : Nat) (x : Tile) : (d.setTile t x).free = d.free := rfl

/-! ### modTile -/

@[simp] theorem Device.modTile_fronds (t : Nat) (f : Tile → Tile) : (d.modTile t f).fronds = d.fronds := rfl
@[simp] theorem Device.modTile_hqs (t : Nat) (f : Tile → Tile) : (d.modTile t f).hqs = d.hqs := rfl
@[simp] theorem Device.modTile_routers (t : Nat) (f : Tile → Tile) : (d.modTile t f).routers = d.routers := rfl
@[simp] theorem Device.modTile_mcs (t : Nat) (f : Tile → Tile) : (d.modTile t f).mcs = d.mcs := rfl
@[simp] theorem Device.modTile_dram (t : Nat) (f : Tile → Tile) : (d.modTile t f).dram = d.dram := rfl
@[simp] theorem Device.modTile_side (t : Nat) (f : Tile → Tile) : (d.modTile t f).side = d.side := rfl
@[simp] theorem Device.modTile_hostMem (t : Nat) (f : Tile → Tile) : (d.modTile t f).hostMem = d.hostMem := rfl
@[simp] theorem Device.modTile_flash (t : Nat) (f : Tile → Tile) : (d.modTile t f).flash = d.flash := rfl
@[simp] theorem Device.modTile_host (t : Nat) (f : Tile → Tile) : (d.modTile t f).host = d.host := rfl
@[simp] theorem Device.modTile_sched (t : Nat) (f : Tile → Tile) : (d.modTile t f).sched = d.sched := rfl
@[simp] theorem Device.modTile_fab (t : Nat) (f : Tile → Tile) : (d.modTile t f).fab = d.fab := rfl
@[simp] theorem Device.modTile_pwr (t : Nat) (f : Tile → Tile) : (d.modTile t f).pwr = d.pwr := rfl
@[simp] theorem Device.modTile_rst (t : Nat) (f : Tile → Tile) : (d.modTile t f).rst = d.rst := rfl
@[simp] theorem Device.modTile_boot (t : Nat) (f : Tile → Tile) : (d.modTile t f).boot = d.boot := rfl
@[simp] theorem Device.modTile_fuses (t : Nat) (f : Tile → Tile) : (d.modTile t f).fuses = d.fuses := rfl
@[simp] theorem Device.modTile_mod (t : Nat) (f : Tile → Tile) : (d.modTile t f).mod = d.mod := rfl
@[simp] theorem Device.modTile_cxl (t : Nat) (f : Tile → Tile) : (d.modTile t f).cxl = d.cxl := rfl
@[simp] theorem Device.modTile_bad (t : Nat) (f : Tile → Tile) : (d.modTile t f).bad = d.bad := rfl
@[simp] theorem Device.modTile_sec (t : Nat) (f : Tile → Tile) : (d.modTile t f).sec = d.sec := rfl
@[simp] theorem Device.modTile_ctrs (t : Nat) (f : Tile → Tile) : (d.modTile t f).ctrs = d.ctrs := rfl
@[simp] theorem Device.modTile_free (t : Nat) (f : Tile → Tile) : (d.modTile t f).free = d.free := rfl

/-! ### setFrond -/

@[simp] theorem Device.setFrond_tiles (f : Nat) (x : Frond) : (d.setFrond f x).tiles = d.tiles := rfl
@[simp] theorem Device.setFrond_hqs (f : Nat) (x : Frond) : (d.setFrond f x).hqs = d.hqs := rfl
@[simp] theorem Device.setFrond_routers (f : Nat) (x : Frond) : (d.setFrond f x).routers = d.routers := rfl
@[simp] theorem Device.setFrond_mcs (f : Nat) (x : Frond) : (d.setFrond f x).mcs = d.mcs := rfl
@[simp] theorem Device.setFrond_dram (f : Nat) (x : Frond) : (d.setFrond f x).dram = d.dram := rfl
@[simp] theorem Device.setFrond_side (f : Nat) (x : Frond) : (d.setFrond f x).side = d.side := rfl
@[simp] theorem Device.setFrond_hostMem (f : Nat) (x : Frond) : (d.setFrond f x).hostMem = d.hostMem := rfl
@[simp] theorem Device.setFrond_flash (f : Nat) (x : Frond) : (d.setFrond f x).flash = d.flash := rfl
@[simp] theorem Device.setFrond_host (f : Nat) (x : Frond) : (d.setFrond f x).host = d.host := rfl
@[simp] theorem Device.setFrond_sched (f : Nat) (x : Frond) : (d.setFrond f x).sched = d.sched := rfl
@[simp] theorem Device.setFrond_fab (f : Nat) (x : Frond) : (d.setFrond f x).fab = d.fab := rfl
@[simp] theorem Device.setFrond_pwr (f : Nat) (x : Frond) : (d.setFrond f x).pwr = d.pwr := rfl
@[simp] theorem Device.setFrond_rst (f : Nat) (x : Frond) : (d.setFrond f x).rst = d.rst := rfl
@[simp] theorem Device.setFrond_boot (f : Nat) (x : Frond) : (d.setFrond f x).boot = d.boot := rfl
@[simp] theorem Device.setFrond_fuses (f : Nat) (x : Frond) : (d.setFrond f x).fuses = d.fuses := rfl
@[simp] theorem Device.setFrond_mod (f : Nat) (x : Frond) : (d.setFrond f x).mod = d.mod := rfl
@[simp] theorem Device.setFrond_cxl (f : Nat) (x : Frond) : (d.setFrond f x).cxl = d.cxl := rfl
@[simp] theorem Device.setFrond_bad (f : Nat) (x : Frond) : (d.setFrond f x).bad = d.bad := rfl
@[simp] theorem Device.setFrond_sec (f : Nat) (x : Frond) : (d.setFrond f x).sec = d.sec := rfl
@[simp] theorem Device.setFrond_ctrs (f : Nat) (x : Frond) : (d.setFrond f x).ctrs = d.ctrs := rfl
@[simp] theorem Device.setFrond_free (f : Nat) (x : Frond) : (d.setFrond f x).free = d.free := rfl

/-! ### modFrond -/

@[simp] theorem Device.modFrond_tiles (f : Nat) (g : Frond → Frond) : (d.modFrond f g).tiles = d.tiles := rfl
@[simp] theorem Device.modFrond_hqs (f : Nat) (g : Frond → Frond) : (d.modFrond f g).hqs = d.hqs := rfl
@[simp] theorem Device.modFrond_routers (f : Nat) (g : Frond → Frond) : (d.modFrond f g).routers = d.routers := rfl
@[simp] theorem Device.modFrond_mcs (f : Nat) (g : Frond → Frond) : (d.modFrond f g).mcs = d.mcs := rfl
@[simp] theorem Device.modFrond_dram (f : Nat) (g : Frond → Frond) : (d.modFrond f g).dram = d.dram := rfl
@[simp] theorem Device.modFrond_side (f : Nat) (g : Frond → Frond) : (d.modFrond f g).side = d.side := rfl
@[simp] theorem Device.modFrond_hostMem (f : Nat) (g : Frond → Frond) : (d.modFrond f g).hostMem = d.hostMem := rfl
@[simp] theorem Device.modFrond_flash (f : Nat) (g : Frond → Frond) : (d.modFrond f g).flash = d.flash := rfl
@[simp] theorem Device.modFrond_host (f : Nat) (g : Frond → Frond) : (d.modFrond f g).host = d.host := rfl
@[simp] theorem Device.modFrond_sched (f : Nat) (g : Frond → Frond) : (d.modFrond f g).sched = d.sched := rfl
@[simp] theorem Device.modFrond_fab (f : Nat) (g : Frond → Frond) : (d.modFrond f g).fab = d.fab := rfl
@[simp] theorem Device.modFrond_pwr (f : Nat) (g : Frond → Frond) : (d.modFrond f g).pwr = d.pwr := rfl
@[simp] theorem Device.modFrond_rst (f : Nat) (g : Frond → Frond) : (d.modFrond f g).rst = d.rst := rfl
@[simp] theorem Device.modFrond_boot (f : Nat) (g : Frond → Frond) : (d.modFrond f g).boot = d.boot := rfl
@[simp] theorem Device.modFrond_fuses (f : Nat) (g : Frond → Frond) : (d.modFrond f g).fuses = d.fuses := rfl
@[simp] theorem Device.modFrond_mod (f : Nat) (g : Frond → Frond) : (d.modFrond f g).mod = d.mod := rfl
@[simp] theorem Device.modFrond_cxl (f : Nat) (g : Frond → Frond) : (d.modFrond f g).cxl = d.cxl := rfl
@[simp] theorem Device.modFrond_bad (f : Nat) (g : Frond → Frond) : (d.modFrond f g).bad = d.bad := rfl
@[simp] theorem Device.modFrond_sec (f : Nat) (g : Frond → Frond) : (d.modFrond f g).sec = d.sec := rfl
@[simp] theorem Device.modFrond_ctrs (f : Nat) (g : Frond → Frond) : (d.modFrond f g).ctrs = d.ctrs := rfl
@[simp] theorem Device.modFrond_free (f : Nat) (g : Frond → Frond) : (d.modFrond f g).free = d.free := rfl

/-! ### setHq -/

@[simp] theorem Device.setHq_tiles (q : Nat) (x : HQueue) : (d.setHq q x).tiles = d.tiles := rfl
@[simp] theorem Device.setHq_fronds (q : Nat) (x : HQueue) : (d.setHq q x).fronds = d.fronds := rfl
@[simp] theorem Device.setHq_routers (q : Nat) (x : HQueue) : (d.setHq q x).routers = d.routers := rfl
@[simp] theorem Device.setHq_mcs (q : Nat) (x : HQueue) : (d.setHq q x).mcs = d.mcs := rfl
@[simp] theorem Device.setHq_dram (q : Nat) (x : HQueue) : (d.setHq q x).dram = d.dram := rfl
@[simp] theorem Device.setHq_side (q : Nat) (x : HQueue) : (d.setHq q x).side = d.side := rfl
@[simp] theorem Device.setHq_hostMem (q : Nat) (x : HQueue) : (d.setHq q x).hostMem = d.hostMem := rfl
@[simp] theorem Device.setHq_flash (q : Nat) (x : HQueue) : (d.setHq q x).flash = d.flash := rfl
@[simp] theorem Device.setHq_host (q : Nat) (x : HQueue) : (d.setHq q x).host = d.host := rfl
@[simp] theorem Device.setHq_sched (q : Nat) (x : HQueue) : (d.setHq q x).sched = d.sched := rfl
@[simp] theorem Device.setHq_fab (q : Nat) (x : HQueue) : (d.setHq q x).fab = d.fab := rfl
@[simp] theorem Device.setHq_pwr (q : Nat) (x : HQueue) : (d.setHq q x).pwr = d.pwr := rfl
@[simp] theorem Device.setHq_rst (q : Nat) (x : HQueue) : (d.setHq q x).rst = d.rst := rfl
@[simp] theorem Device.setHq_boot (q : Nat) (x : HQueue) : (d.setHq q x).boot = d.boot := rfl
@[simp] theorem Device.setHq_fuses (q : Nat) (x : HQueue) : (d.setHq q x).fuses = d.fuses := rfl
@[simp] theorem Device.setHq_mod (q : Nat) (x : HQueue) : (d.setHq q x).mod = d.mod := rfl
@[simp] theorem Device.setHq_cxl (q : Nat) (x : HQueue) : (d.setHq q x).cxl = d.cxl := rfl
@[simp] theorem Device.setHq_bad (q : Nat) (x : HQueue) : (d.setHq q x).bad = d.bad := rfl
@[simp] theorem Device.setHq_sec (q : Nat) (x : HQueue) : (d.setHq q x).sec = d.sec := rfl
@[simp] theorem Device.setHq_ctrs (q : Nat) (x : HQueue) : (d.setHq q x).ctrs = d.ctrs := rfl
@[simp] theorem Device.setHq_free (q : Nat) (x : HQueue) : (d.setHq q x).free = d.free := rfl

/-! ### setRouter -/

@[simp] theorem Device.setRouter_tiles (r : Nat) (x : Router) : (d.setRouter r x).tiles = d.tiles := rfl
@[simp] theorem Device.setRouter_fronds (r : Nat) (x : Router) : (d.setRouter r x).fronds = d.fronds := rfl
@[simp] theorem Device.setRouter_hqs (r : Nat) (x : Router) : (d.setRouter r x).hqs = d.hqs := rfl
@[simp] theorem Device.setRouter_mcs (r : Nat) (x : Router) : (d.setRouter r x).mcs = d.mcs := rfl
@[simp] theorem Device.setRouter_dram (r : Nat) (x : Router) : (d.setRouter r x).dram = d.dram := rfl
@[simp] theorem Device.setRouter_side (r : Nat) (x : Router) : (d.setRouter r x).side = d.side := rfl
@[simp] theorem Device.setRouter_hostMem (r : Nat) (x : Router) : (d.setRouter r x).hostMem = d.hostMem := rfl
@[simp] theorem Device.setRouter_flash (r : Nat) (x : Router) : (d.setRouter r x).flash = d.flash := rfl
@[simp] theorem Device.setRouter_host (r : Nat) (x : Router) : (d.setRouter r x).host = d.host := rfl
@[simp] theorem Device.setRouter_sched (r : Nat) (x : Router) : (d.setRouter r x).sched = d.sched := rfl
@[simp] theorem Device.setRouter_fab (r : Nat) (x : Router) : (d.setRouter r x).fab = d.fab := rfl
@[simp] theorem Device.setRouter_pwr (r : Nat) (x : Router) : (d.setRouter r x).pwr = d.pwr := rfl
@[simp] theorem Device.setRouter_rst (r : Nat) (x : Router) : (d.setRouter r x).rst = d.rst := rfl
@[simp] theorem Device.setRouter_boot (r : Nat) (x : Router) : (d.setRouter r x).boot = d.boot := rfl
@[simp] theorem Device.setRouter_fuses (r : Nat) (x : Router) : (d.setRouter r x).fuses = d.fuses := rfl
@[simp] theorem Device.setRouter_mod (r : Nat) (x : Router) : (d.setRouter r x).mod = d.mod := rfl
@[simp] theorem Device.setRouter_cxl (r : Nat) (x : Router) : (d.setRouter r x).cxl = d.cxl := rfl
@[simp] theorem Device.setRouter_bad (r : Nat) (x : Router) : (d.setRouter r x).bad = d.bad := rfl
@[simp] theorem Device.setRouter_sec (r : Nat) (x : Router) : (d.setRouter r x).sec = d.sec := rfl
@[simp] theorem Device.setRouter_ctrs (r : Nat) (x : Router) : (d.setRouter r x).ctrs = d.ctrs := rfl
@[simp] theorem Device.setRouter_free (r : Nat) (x : Router) : (d.setRouter r x).free = d.free := rfl

/-! ### modRouter -/

@[simp] theorem Device.modRouter_tiles (r : Nat) (g : Router → Router) : (d.modRouter r g).tiles = d.tiles := rfl
@[simp] theorem Device.modRouter_fronds (r : Nat) (g : Router → Router) : (d.modRouter r g).fronds = d.fronds := rfl
@[simp] theorem Device.modRouter_hqs (r : Nat) (g : Router → Router) : (d.modRouter r g).hqs = d.hqs := rfl
@[simp] theorem Device.modRouter_mcs (r : Nat) (g : Router → Router) : (d.modRouter r g).mcs = d.mcs := rfl
@[simp] theorem Device.modRouter_dram (r : Nat) (g : Router → Router) : (d.modRouter r g).dram = d.dram := rfl
@[simp] theorem Device.modRouter_side (r : Nat) (g : Router → Router) : (d.modRouter r g).side = d.side := rfl
@[simp] theorem Device.modRouter_hostMem (r : Nat) (g : Router → Router) : (d.modRouter r g).hostMem = d.hostMem := rfl
@[simp] theorem Device.modRouter_flash (r : Nat) (g : Router → Router) : (d.modRouter r g).flash = d.flash := rfl
@[simp] theorem Device.modRouter_host (r : Nat) (g : Router → Router) : (d.modRouter r g).host = d.host := rfl
@[simp] theorem Device.modRouter_sched (r : Nat) (g : Router → Router) : (d.modRouter r g).sched = d.sched := rfl
@[simp] theorem Device.modRouter_fab (r : Nat) (g : Router → Router) : (d.modRouter r g).fab = d.fab := rfl
@[simp] theorem Device.modRouter_pwr (r : Nat) (g : Router → Router) : (d.modRouter r g).pwr = d.pwr := rfl
@[simp] theorem Device.modRouter_rst (r : Nat) (g : Router → Router) : (d.modRouter r g).rst = d.rst := rfl
@[simp] theorem Device.modRouter_boot (r : Nat) (g : Router → Router) : (d.modRouter r g).boot = d.boot := rfl
@[simp] theorem Device.modRouter_fuses (r : Nat) (g : Router → Router) : (d.modRouter r g).fuses = d.fuses := rfl
@[simp] theorem Device.modRouter_mod (r : Nat) (g : Router → Router) : (d.modRouter r g).mod = d.mod := rfl
@[simp] theorem Device.modRouter_cxl (r : Nat) (g : Router → Router) : (d.modRouter r g).cxl = d.cxl := rfl
@[simp] theorem Device.modRouter_bad (r : Nat) (g : Router → Router) : (d.modRouter r g).bad = d.bad := rfl
@[simp] theorem Device.modRouter_sec (r : Nat) (g : Router → Router) : (d.modRouter r g).sec = d.sec := rfl
@[simp] theorem Device.modRouter_ctrs (r : Nat) (g : Router → Router) : (d.modRouter r g).ctrs = d.ctrs := rfl
@[simp] theorem Device.modRouter_free (r : Nat) (g : Router → Router) : (d.modRouter r g).free = d.free := rfl

/-! ### setMc -/

@[simp] theorem Device.setMc_tiles (m : Nat) (x : MemCtl) : (d.setMc m x).tiles = d.tiles := rfl
@[simp] theorem Device.setMc_fronds (m : Nat) (x : MemCtl) : (d.setMc m x).fronds = d.fronds := rfl
@[simp] theorem Device.setMc_hqs (m : Nat) (x : MemCtl) : (d.setMc m x).hqs = d.hqs := rfl
@[simp] theorem Device.setMc_routers (m : Nat) (x : MemCtl) : (d.setMc m x).routers = d.routers := rfl
@[simp] theorem Device.setMc_dram (m : Nat) (x : MemCtl) : (d.setMc m x).dram = d.dram := rfl
@[simp] theorem Device.setMc_side (m : Nat) (x : MemCtl) : (d.setMc m x).side = d.side := rfl
@[simp] theorem Device.setMc_hostMem (m : Nat) (x : MemCtl) : (d.setMc m x).hostMem = d.hostMem := rfl
@[simp] theorem Device.setMc_flash (m : Nat) (x : MemCtl) : (d.setMc m x).flash = d.flash := rfl
@[simp] theorem Device.setMc_host (m : Nat) (x : MemCtl) : (d.setMc m x).host = d.host := rfl
@[simp] theorem Device.setMc_sched (m : Nat) (x : MemCtl) : (d.setMc m x).sched = d.sched := rfl
@[simp] theorem Device.setMc_fab (m : Nat) (x : MemCtl) : (d.setMc m x).fab = d.fab := rfl
@[simp] theorem Device.setMc_pwr (m : Nat) (x : MemCtl) : (d.setMc m x).pwr = d.pwr := rfl
@[simp] theorem Device.setMc_rst (m : Nat) (x : MemCtl) : (d.setMc m x).rst = d.rst := rfl
@[simp] theorem Device.setMc_boot (m : Nat) (x : MemCtl) : (d.setMc m x).boot = d.boot := rfl
@[simp] theorem Device.setMc_fuses (m : Nat) (x : MemCtl) : (d.setMc m x).fuses = d.fuses := rfl
@[simp] theorem Device.setMc_mod (m : Nat) (x : MemCtl) : (d.setMc m x).mod = d.mod := rfl
@[simp] theorem Device.setMc_cxl (m : Nat) (x : MemCtl) : (d.setMc m x).cxl = d.cxl := rfl
@[simp] theorem Device.setMc_bad (m : Nat) (x : MemCtl) : (d.setMc m x).bad = d.bad := rfl
@[simp] theorem Device.setMc_sec (m : Nat) (x : MemCtl) : (d.setMc m x).sec = d.sec := rfl
@[simp] theorem Device.setMc_ctrs (m : Nat) (x : MemCtl) : (d.setMc m x).ctrs = d.ctrs := rfl
@[simp] theorem Device.setMc_free (m : Nat) (x : MemCtl) : (d.setMc m x).free = d.free := rfl

/-! ### modMc -/

@[simp] theorem Device.modMc_tiles (m : Nat) (g : MemCtl → MemCtl) : (d.modMc m g).tiles = d.tiles := rfl
@[simp] theorem Device.modMc_fronds (m : Nat) (g : MemCtl → MemCtl) : (d.modMc m g).fronds = d.fronds := rfl
@[simp] theorem Device.modMc_hqs (m : Nat) (g : MemCtl → MemCtl) : (d.modMc m g).hqs = d.hqs := rfl
@[simp] theorem Device.modMc_routers (m : Nat) (g : MemCtl → MemCtl) : (d.modMc m g).routers = d.routers := rfl
@[simp] theorem Device.modMc_dram (m : Nat) (g : MemCtl → MemCtl) : (d.modMc m g).dram = d.dram := rfl
@[simp] theorem Device.modMc_side (m : Nat) (g : MemCtl → MemCtl) : (d.modMc m g).side = d.side := rfl
@[simp] theorem Device.modMc_hostMem (m : Nat) (g : MemCtl → MemCtl) : (d.modMc m g).hostMem = d.hostMem := rfl
@[simp] theorem Device.modMc_flash (m : Nat) (g : MemCtl → MemCtl) : (d.modMc m g).flash = d.flash := rfl
@[simp] theorem Device.modMc_host (m : Nat) (g : MemCtl → MemCtl) : (d.modMc m g).host = d.host := rfl
@[simp] theorem Device.modMc_sched (m : Nat) (g : MemCtl → MemCtl) : (d.modMc m g).sched = d.sched := rfl
@[simp] theorem Device.modMc_fab (m : Nat) (g : MemCtl → MemCtl) : (d.modMc m g).fab = d.fab := rfl
@[simp] theorem Device.modMc_pwr (m : Nat) (g : MemCtl → MemCtl) : (d.modMc m g).pwr = d.pwr := rfl
@[simp] theorem Device.modMc_rst (m : Nat) (g : MemCtl → MemCtl) : (d.modMc m g).rst = d.rst := rfl
@[simp] theorem Device.modMc_boot (m : Nat) (g : MemCtl → MemCtl) : (d.modMc m g).boot = d.boot := rfl
@[simp] theorem Device.modMc_fuses (m : Nat) (g : MemCtl → MemCtl) : (d.modMc m g).fuses = d.fuses := rfl
@[simp] theorem Device.modMc_mod (m : Nat) (g : MemCtl → MemCtl) : (d.modMc m g).mod = d.mod := rfl
@[simp] theorem Device.modMc_cxl (m : Nat) (g : MemCtl → MemCtl) : (d.modMc m g).cxl = d.cxl := rfl
@[simp] theorem Device.modMc_bad (m : Nat) (g : MemCtl → MemCtl) : (d.modMc m g).bad = d.bad := rfl
@[simp] theorem Device.modMc_sec (m : Nat) (g : MemCtl → MemCtl) : (d.modMc m g).sec = d.sec := rfl
@[simp] theorem Device.modMc_ctrs (m : Nat) (g : MemCtl → MemCtl) : (d.modMc m g).ctrs = d.ctrs := rfl
@[simp] theorem Device.modMc_free (m : Nat) (g : MemCtl → MemCtl) : (d.modMc m g).free = d.free := rfl

/-! ### setQueue -/

@[simp] theorem Device.setQueue_tiles (q : Nat) (x : HostQueue) : (d.setQueue q x).tiles = d.tiles := rfl
@[simp] theorem Device.setQueue_fronds (q : Nat) (x : HostQueue) : (d.setQueue q x).fronds = d.fronds := rfl
@[simp] theorem Device.setQueue_hqs (q : Nat) (x : HostQueue) : (d.setQueue q x).hqs = d.hqs := rfl
@[simp] theorem Device.setQueue_routers (q : Nat) (x : HostQueue) : (d.setQueue q x).routers = d.routers := rfl
@[simp] theorem Device.setQueue_mcs (q : Nat) (x : HostQueue) : (d.setQueue q x).mcs = d.mcs := rfl
@[simp] theorem Device.setQueue_dram (q : Nat) (x : HostQueue) : (d.setQueue q x).dram = d.dram := rfl
@[simp] theorem Device.setQueue_side (q : Nat) (x : HostQueue) : (d.setQueue q x).side = d.side := rfl
@[simp] theorem Device.setQueue_hostMem (q : Nat) (x : HostQueue) : (d.setQueue q x).hostMem = d.hostMem := rfl
@[simp] theorem Device.setQueue_flash (q : Nat) (x : HostQueue) : (d.setQueue q x).flash = d.flash := rfl
@[simp] theorem Device.setQueue_sched (q : Nat) (x : HostQueue) : (d.setQueue q x).sched = d.sched := rfl
@[simp] theorem Device.setQueue_fab (q : Nat) (x : HostQueue) : (d.setQueue q x).fab = d.fab := rfl
@[simp] theorem Device.setQueue_pwr (q : Nat) (x : HostQueue) : (d.setQueue q x).pwr = d.pwr := rfl
@[simp] theorem Device.setQueue_rst (q : Nat) (x : HostQueue) : (d.setQueue q x).rst = d.rst := rfl
@[simp] theorem Device.setQueue_boot (q : Nat) (x : HostQueue) : (d.setQueue q x).boot = d.boot := rfl
@[simp] theorem Device.setQueue_fuses (q : Nat) (x : HostQueue) : (d.setQueue q x).fuses = d.fuses := rfl
@[simp] theorem Device.setQueue_mod (q : Nat) (x : HostQueue) : (d.setQueue q x).mod = d.mod := rfl
@[simp] theorem Device.setQueue_cxl (q : Nat) (x : HostQueue) : (d.setQueue q x).cxl = d.cxl := rfl
@[simp] theorem Device.setQueue_bad (q : Nat) (x : HostQueue) : (d.setQueue q x).bad = d.bad := rfl
@[simp] theorem Device.setQueue_sec (q : Nat) (x : HostQueue) : (d.setQueue q x).sec = d.sec := rfl
@[simp] theorem Device.setQueue_ctrs (q : Nat) (x : HostQueue) : (d.setQueue q x).ctrs = d.ctrs := rfl
@[simp] theorem Device.setQueue_free (q : Nat) (x : HostQueue) : (d.setQueue q x).free = d.free := rfl

/-! ### setRegion -/

@[simp] theorem Device.setRegion_tiles (n : Nat) (x : Region) : (d.setRegion n x).tiles = d.tiles := rfl
@[simp] theorem Device.setRegion_fronds (n : Nat) (x : Region) : (d.setRegion n x).fronds = d.fronds := rfl
@[simp] theorem Device.setRegion_hqs (n : Nat) (x : Region) : (d.setRegion n x).hqs = d.hqs := rfl
@[simp] theorem Device.setRegion_routers (n : Nat) (x : Region) : (d.setRegion n x).routers = d.routers := rfl
@[simp] theorem Device.setRegion_mcs (n : Nat) (x : Region) : (d.setRegion n x).mcs = d.mcs := rfl
@[simp] theorem Device.setRegion_dram (n : Nat) (x : Region) : (d.setRegion n x).dram = d.dram := rfl
@[simp] theorem Device.setRegion_side (n : Nat) (x : Region) : (d.setRegion n x).side = d.side := rfl
@[simp] theorem Device.setRegion_hostMem (n : Nat) (x : Region) : (d.setRegion n x).hostMem = d.hostMem := rfl
@[simp] theorem Device.setRegion_flash (n : Nat) (x : Region) : (d.setRegion n x).flash = d.flash := rfl
@[simp] theorem Device.setRegion_host (n : Nat) (x : Region) : (d.setRegion n x).host = d.host := rfl
@[simp] theorem Device.setRegion_sched (n : Nat) (x : Region) : (d.setRegion n x).sched = d.sched := rfl
@[simp] theorem Device.setRegion_pwr (n : Nat) (x : Region) : (d.setRegion n x).pwr = d.pwr := rfl
@[simp] theorem Device.setRegion_rst (n : Nat) (x : Region) : (d.setRegion n x).rst = d.rst := rfl
@[simp] theorem Device.setRegion_boot (n : Nat) (x : Region) : (d.setRegion n x).boot = d.boot := rfl
@[simp] theorem Device.setRegion_fuses (n : Nat) (x : Region) : (d.setRegion n x).fuses = d.fuses := rfl
@[simp] theorem Device.setRegion_mod (n : Nat) (x : Region) : (d.setRegion n x).mod = d.mod := rfl
@[simp] theorem Device.setRegion_cxl (n : Nat) (x : Region) : (d.setRegion n x).cxl = d.cxl := rfl
@[simp] theorem Device.setRegion_bad (n : Nat) (x : Region) : (d.setRegion n x).bad = d.bad := rfl
@[simp] theorem Device.setRegion_sec (n : Nat) (x : Region) : (d.setRegion n x).sec = d.sec := rfl
@[simp] theorem Device.setRegion_ctrs (n : Nat) (x : Region) : (d.setRegion n x).ctrs = d.ctrs := rfl
@[simp] theorem Device.setRegion_free (n : Nat) (x : Region) : (d.setRegion n x).free = d.free := rfl

/-! ### setFport -/

@[simp] theorem Device.setFport_tiles (n : Nat) (x : FPort) : (d.setFport n x).tiles = d.tiles := rfl
@[simp] theorem Device.setFport_fronds (n : Nat) (x : FPort) : (d.setFport n x).fronds = d.fronds := rfl
@[simp] theorem Device.setFport_hqs (n : Nat) (x : FPort) : (d.setFport n x).hqs = d.hqs := rfl
@[simp] theorem Device.setFport_routers (n : Nat) (x : FPort) : (d.setFport n x).routers = d.routers := rfl
@[simp] theorem Device.setFport_mcs (n : Nat) (x : FPort) : (d.setFport n x).mcs = d.mcs := rfl
@[simp] theorem Device.setFport_dram (n : Nat) (x : FPort) : (d.setFport n x).dram = d.dram := rfl
@[simp] theorem Device.setFport_side (n : Nat) (x : FPort) : (d.setFport n x).side = d.side := rfl
@[simp] theorem Device.setFport_hostMem (n : Nat) (x : FPort) : (d.setFport n x).hostMem = d.hostMem := rfl
@[simp] theorem Device.setFport_flash (n : Nat) (x : FPort) : (d.setFport n x).flash = d.flash := rfl
@[simp] theorem Device.setFport_host (n : Nat) (x : FPort) : (d.setFport n x).host = d.host := rfl
@[simp] theorem Device.setFport_sched (n : Nat) (x : FPort) : (d.setFport n x).sched = d.sched := rfl
@[simp] theorem Device.setFport_pwr (n : Nat) (x : FPort) : (d.setFport n x).pwr = d.pwr := rfl
@[simp] theorem Device.setFport_rst (n : Nat) (x : FPort) : (d.setFport n x).rst = d.rst := rfl
@[simp] theorem Device.setFport_boot (n : Nat) (x : FPort) : (d.setFport n x).boot = d.boot := rfl
@[simp] theorem Device.setFport_fuses (n : Nat) (x : FPort) : (d.setFport n x).fuses = d.fuses := rfl
@[simp] theorem Device.setFport_mod (n : Nat) (x : FPort) : (d.setFport n x).mod = d.mod := rfl
@[simp] theorem Device.setFport_cxl (n : Nat) (x : FPort) : (d.setFport n x).cxl = d.cxl := rfl
@[simp] theorem Device.setFport_bad (n : Nat) (x : FPort) : (d.setFport n x).bad = d.bad := rfl
@[simp] theorem Device.setFport_sec (n : Nat) (x : FPort) : (d.setFport n x).sec = d.sec := rfl
@[simp] theorem Device.setFport_ctrs (n : Nat) (x : FPort) : (d.setFport n x).ctrs = d.ctrs := rfl
@[simp] theorem Device.setFport_free (n : Nat) (x : FPort) : (d.setFport n x).free = d.free := rfl

/-! ### setLink -/

@[simp] theorem Device.setLink_tiles (n : Nat) (x : Link) : (d.setLink n x).tiles = d.tiles := rfl
@[simp] theorem Device.setLink_fronds (n : Nat) (x : Link) : (d.setLink n x).fronds = d.fronds := rfl
@[simp] theorem Device.setLink_hqs (n : Nat) (x : Link) : (d.setLink n x).hqs = d.hqs := rfl
@[simp] theorem Device.setLink_routers (n : Nat) (x : Link) : (d.setLink n x).routers = d.routers := rfl
@[simp] theorem Device.setLink_mcs (n : Nat) (x : Link) : (d.setLink n x).mcs = d.mcs := rfl
@[simp] theorem Device.setLink_dram (n : Nat) (x : Link) : (d.setLink n x).dram = d.dram := rfl
@[simp] theorem Device.setLink_side (n : Nat) (x : Link) : (d.setLink n x).side = d.side := rfl
@[simp] theorem Device.setLink_hostMem (n : Nat) (x : Link) : (d.setLink n x).hostMem = d.hostMem := rfl
@[simp] theorem Device.setLink_flash (n : Nat) (x : Link) : (d.setLink n x).flash = d.flash := rfl
@[simp] theorem Device.setLink_host (n : Nat) (x : Link) : (d.setLink n x).host = d.host := rfl
@[simp] theorem Device.setLink_sched (n : Nat) (x : Link) : (d.setLink n x).sched = d.sched := rfl
@[simp] theorem Device.setLink_fab (n : Nat) (x : Link) : (d.setLink n x).fab = d.fab := rfl
@[simp] theorem Device.setLink_pwr (n : Nat) (x : Link) : (d.setLink n x).pwr = d.pwr := rfl
@[simp] theorem Device.setLink_rst (n : Nat) (x : Link) : (d.setLink n x).rst = d.rst := rfl
@[simp] theorem Device.setLink_boot (n : Nat) (x : Link) : (d.setLink n x).boot = d.boot := rfl
@[simp] theorem Device.setLink_fuses (n : Nat) (x : Link) : (d.setLink n x).fuses = d.fuses := rfl
@[simp] theorem Device.setLink_mod (n : Nat) (x : Link) : (d.setLink n x).mod = d.mod := rfl
@[simp] theorem Device.setLink_cxl (n : Nat) (x : Link) : (d.setLink n x).cxl = d.cxl := rfl
@[simp] theorem Device.setLink_sec (n : Nat) (x : Link) : (d.setLink n x).sec = d.sec := rfl
@[simp] theorem Device.setLink_ctrs (n : Nat) (x : Link) : (d.setLink n x).ctrs = d.ctrs := rfl
@[simp] theorem Device.setLink_free (n : Nat) (x : Link) : (d.setLink n x).free = d.free := rfl

/-! ### setBuDie -/

@[simp] theorem Device.setBuDie_tiles (k : Nat) (x : BuDie) : (d.setBuDie k x).tiles = d.tiles := rfl
@[simp] theorem Device.setBuDie_fronds (k : Nat) (x : BuDie) : (d.setBuDie k x).fronds = d.fronds := rfl
@[simp] theorem Device.setBuDie_hqs (k : Nat) (x : BuDie) : (d.setBuDie k x).hqs = d.hqs := rfl
@[simp] theorem Device.setBuDie_routers (k : Nat) (x : BuDie) : (d.setBuDie k x).routers = d.routers := rfl
@[simp] theorem Device.setBuDie_mcs (k : Nat) (x : BuDie) : (d.setBuDie k x).mcs = d.mcs := rfl
@[simp] theorem Device.setBuDie_dram (k : Nat) (x : BuDie) : (d.setBuDie k x).dram = d.dram := rfl
@[simp] theorem Device.setBuDie_side (k : Nat) (x : BuDie) : (d.setBuDie k x).side = d.side := rfl
@[simp] theorem Device.setBuDie_hostMem (k : Nat) (x : BuDie) : (d.setBuDie k x).hostMem = d.hostMem := rfl
@[simp] theorem Device.setBuDie_flash (k : Nat) (x : BuDie) : (d.setBuDie k x).flash = d.flash := rfl
@[simp] theorem Device.setBuDie_host (k : Nat) (x : BuDie) : (d.setBuDie k x).host = d.host := rfl
@[simp] theorem Device.setBuDie_sched (k : Nat) (x : BuDie) : (d.setBuDie k x).sched = d.sched := rfl
@[simp] theorem Device.setBuDie_fab (k : Nat) (x : BuDie) : (d.setBuDie k x).fab = d.fab := rfl
@[simp] theorem Device.setBuDie_pwr (k : Nat) (x : BuDie) : (d.setBuDie k x).pwr = d.pwr := rfl
@[simp] theorem Device.setBuDie_rst (k : Nat) (x : BuDie) : (d.setBuDie k x).rst = d.rst := rfl
@[simp] theorem Device.setBuDie_fuses (k : Nat) (x : BuDie) : (d.setBuDie k x).fuses = d.fuses := rfl
@[simp] theorem Device.setBuDie_mod (k : Nat) (x : BuDie) : (d.setBuDie k x).mod = d.mod := rfl
@[simp] theorem Device.setBuDie_cxl (k : Nat) (x : BuDie) : (d.setBuDie k x).cxl = d.cxl := rfl
@[simp] theorem Device.setBuDie_bad (k : Nat) (x : BuDie) : (d.setBuDie k x).bad = d.bad := rfl
@[simp] theorem Device.setBuDie_sec (k : Nat) (x : BuDie) : (d.setBuDie k x).sec = d.sec := rfl
@[simp] theorem Device.setBuDie_ctrs (k : Nat) (x : BuDie) : (d.setBuDie k x).ctrs = d.ctrs := rfl
@[simp] theorem Device.setBuDie_free (k : Nat) (x : BuDie) : (d.setBuDie k x).free = d.free := rfl

/-! ### setDom -/

@[simp] theorem Device.setDom_tiles (n : Nat) (x : Dom) : (d.setDom n x).tiles = d.tiles := rfl
@[simp] theorem Device.setDom_fronds (n : Nat) (x : Dom) : (d.setDom n x).fronds = d.fronds := rfl
@[simp] theorem Device.setDom_hqs (n : Nat) (x : Dom) : (d.setDom n x).hqs = d.hqs := rfl
@[simp] theorem Device.setDom_routers (n : Nat) (x : Dom) : (d.setDom n x).routers = d.routers := rfl
@[simp] theorem Device.setDom_mcs (n : Nat) (x : Dom) : (d.setDom n x).mcs = d.mcs := rfl
@[simp] theorem Device.setDom_dram (n : Nat) (x : Dom) : (d.setDom n x).dram = d.dram := rfl
@[simp] theorem Device.setDom_side (n : Nat) (x : Dom) : (d.setDom n x).side = d.side := rfl
@[simp] theorem Device.setDom_hostMem (n : Nat) (x : Dom) : (d.setDom n x).hostMem = d.hostMem := rfl
@[simp] theorem Device.setDom_flash (n : Nat) (x : Dom) : (d.setDom n x).flash = d.flash := rfl
@[simp] theorem Device.setDom_host (n : Nat) (x : Dom) : (d.setDom n x).host = d.host := rfl
@[simp] theorem Device.setDom_sched (n : Nat) (x : Dom) : (d.setDom n x).sched = d.sched := rfl
@[simp] theorem Device.setDom_fab (n : Nat) (x : Dom) : (d.setDom n x).fab = d.fab := rfl
@[simp] theorem Device.setDom_rst (n : Nat) (x : Dom) : (d.setDom n x).rst = d.rst := rfl
@[simp] theorem Device.setDom_boot (n : Nat) (x : Dom) : (d.setDom n x).boot = d.boot := rfl
@[simp] theorem Device.setDom_fuses (n : Nat) (x : Dom) : (d.setDom n x).fuses = d.fuses := rfl
@[simp] theorem Device.setDom_mod (n : Nat) (x : Dom) : (d.setDom n x).mod = d.mod := rfl
@[simp] theorem Device.setDom_cxl (n : Nat) (x : Dom) : (d.setDom n x).cxl = d.cxl := rfl
@[simp] theorem Device.setDom_bad (n : Nat) (x : Dom) : (d.setDom n x).bad = d.bad := rfl
@[simp] theorem Device.setDom_sec (n : Nat) (x : Dom) : (d.setDom n x).sec = d.sec := rfl
@[simp] theorem Device.setDom_ctrs (n : Nat) (x : Dom) : (d.setDom n x).ctrs = d.ctrs := rfl
@[simp] theorem Device.setDom_free (n : Nat) (x : Dom) : (d.setDom n x).free = d.free := rfl

/-! ### setCounter -/

@[simp] theorem Device.setCounter_tiles (i u : Nat) (c : Counter) : (d.setCounter i u c).tiles = d.tiles := rfl
@[simp] theorem Device.setCounter_fronds (i u : Nat) (c : Counter) : (d.setCounter i u c).fronds = d.fronds := rfl
@[simp] theorem Device.setCounter_hqs (i u : Nat) (c : Counter) : (d.setCounter i u c).hqs = d.hqs := rfl
@[simp] theorem Device.setCounter_routers (i u : Nat) (c : Counter) : (d.setCounter i u c).routers = d.routers := rfl
@[simp] theorem Device.setCounter_mcs (i u : Nat) (c : Counter) : (d.setCounter i u c).mcs = d.mcs := rfl
@[simp] theorem Device.setCounter_dram (i u : Nat) (c : Counter) : (d.setCounter i u c).dram = d.dram := rfl
@[simp] theorem Device.setCounter_side (i u : Nat) (c : Counter) : (d.setCounter i u c).side = d.side := rfl
@[simp] theorem Device.setCounter_hostMem (i u : Nat) (c : Counter) : (d.setCounter i u c).hostMem = d.hostMem := rfl
@[simp] theorem Device.setCounter_flash (i u : Nat) (c : Counter) : (d.setCounter i u c).flash = d.flash := rfl
@[simp] theorem Device.setCounter_host (i u : Nat) (c : Counter) : (d.setCounter i u c).host = d.host := rfl
@[simp] theorem Device.setCounter_sched (i u : Nat) (c : Counter) : (d.setCounter i u c).sched = d.sched := rfl
@[simp] theorem Device.setCounter_fab (i u : Nat) (c : Counter) : (d.setCounter i u c).fab = d.fab := rfl
@[simp] theorem Device.setCounter_pwr (i u : Nat) (c : Counter) : (d.setCounter i u c).pwr = d.pwr := rfl
@[simp] theorem Device.setCounter_rst (i u : Nat) (c : Counter) : (d.setCounter i u c).rst = d.rst := rfl
@[simp] theorem Device.setCounter_boot (i u : Nat) (c : Counter) : (d.setCounter i u c).boot = d.boot := rfl
@[simp] theorem Device.setCounter_fuses (i u : Nat) (c : Counter) : (d.setCounter i u c).fuses = d.fuses := rfl
@[simp] theorem Device.setCounter_mod (i u : Nat) (c : Counter) : (d.setCounter i u c).mod = d.mod := rfl
@[simp] theorem Device.setCounter_cxl (i u : Nat) (c : Counter) : (d.setCounter i u c).cxl = d.cxl := rfl
@[simp] theorem Device.setCounter_bad (i u : Nat) (c : Counter) : (d.setCounter i u c).bad = d.bad := rfl
@[simp] theorem Device.setCounter_sec (i u : Nat) (c : Counter) : (d.setCounter i u c).sec = d.sec := rfl
@[simp] theorem Device.setCounter_free (i u : Nat) (c : Counter) : (d.setCounter i u c).free = d.free := rfl

end Sys2Proof.Machine
end

