-- ==== Sys2Proof/Laws/Ops.lean ====
section
/-! SUPPORT. What the shared operations can do, said once: running an effect, writing one unit, raising an event, counting, and how a tile
instruction issues and completes. -/

namespace Sys2Proof.Machine

variable (d : Device)

/-! ## Running an effect -/

@[simp] theorem run_eq (f : Device → Device) (s : State) : run f s = .next { s with dev := f s.dev } := rfl

theorem runUnit_ok (f : Device → Device) (s : State) (ok : Bool) (h : ok = true) : runUnit ok f s = .next { s with dev := f s.dev } := by
  subst h; rfl

/-- A command on a unit answers a next state exactly where the unit exists, and then the device alone has changed. -/
theorem runUnit_next (f : Device → Device) (s s' : State) (ok : Bool) :
    runUnit ok f s = .next s' ↔ ok = true ∧ s' = { s with dev := f s.dev } := by
  cases ok
  · simp [runUnit]
  · simp [runUnit, eq_comm]

/-- A command on a unit stops only with noSuchUnit, where the unit does not exist. -/
theorem runUnit_fault (f : Device → Device) (s : State) (ok : Bool) (r : Fault) : runUnit ok f s = .fault r ↔ ok = false ∧ r = .noSuchUnit := by
  cases ok
  · simp [runUnit]
  · simp [runUnit, run]

theorem runUnit_not_refused (f : Device → Device) (s : State) (ok : Bool) (r : Refusal) : runUnit ok f s ≠ .refused r := by
  cases ok <;> simp [runUnit, run]

/-! ## One unit written: it reads back, and the others stand -/

theorem Device.tile_setTile (t : Nat) (x : Tile) (i : Nat) (h : Sparse.wf Tile.reset d.tiles = true) :
    (d.setTile t x).tile i = if i = t then x else d.tile i :=
  Sparse.get_put Tile.reset d.tiles t x i h

theorem Device.frond_setFrond (f : Nat) (x : Frond) (i : Nat) (h : Sparse.wf Frond.reset d.fronds = true) :
    (d.setFrond f x).frond i = if i = f then x else d.frond i :=
  Sparse.get_put Frond.reset d.fronds f x i h

theorem Device.hq_setHq (q : Nat) (x : HQueue) (i : Nat) (h : Sparse.wf HQueue.reset d.hqs = true) :
    (d.setHq q x).hq i = if i = q then x else d.hq i :=
  Sparse.get_put HQueue.reset d.hqs q x i h

theorem Device.router_setRouter (r : Nat) (x : Router) (i : Nat) (h : Sparse.wf Router.reset d.routers = true) :
    (d.setRouter r x).router i = if i = r then x else d.router i :=
  Sparse.get_put Router.reset d.routers r x i h

theorem Device.mc_setMc (m : Nat) (x : MemCtl) (i : Nat) (h : Sparse.wf MemCtl.reset d.mcs = true) :
    (d.setMc m x).mc i = if i = m then x else d.mc i :=
  Sparse.get_put MemCtl.reset d.mcs m x i h

theorem Device.queue_setQueue (q : Nat) (x : HostQueue) (i : Nat) (h : Sparse.wf HostQueue.reset d.host.queues = true) :
    (d.setQueue q x).queue i = if i = q then x else d.queue i :=
  Sparse.get_put HostQueue.reset d.host.queues q x i h

theorem Device.region_setRegion (n : Nat) (x : Region) (i : Nat) (h : Sparse.wf Region.reset d.fab.regions = true) :
    (d.setRegion n x).region i = if i = n then x else d.region i :=
  Sparse.get_put Region.reset d.fab.regions n x i h

theorem Device.fport_setFport (n : Nat) (x : FPort) (i : Nat) (h : Sparse.wf FPort.reset d.fab.ports = true) :
    (d.setFport n x).fport i = if i = n then x else d.fport i :=
  Sparse.get_put FPort.reset d.fab.ports n x i h

theorem Device.link_setLink (n : Nat) (x : Link) (i : Nat) (h : Sparse.wf Link.reset d.bad.links = true) :
    (d.setLink n x).link i = if i = n then x else d.link i :=
  Sparse.get_put Link.reset d.bad.links n x i h

theorem Device.buDie_setBuDie (k : Nat) (x : BuDie) (i : Nat) (h : Sparse.wf BuDie.reset d.boot.dies = true) :
    (d.setBuDie k x).buDie i = if i = k then x else d.buDie i :=
  Sparse.get_put BuDie.reset d.boot.dies k x i h

theorem Device.dom_setDom (n : Nat) (x : Dom) (i : Nat) (h : Sparse.wf Dom.run d.pwr.doms = true) :
    (d.setDom n x).dom i = if i = n then x else d.dom i :=
  Sparse.get_put Dom.run d.pwr.doms n x i h

/-! ## What raise leaves -/

@[simp] theorem Device.raise_tiles (code : Nat) (r0 r1 : Word) : (d.raise code r0 r1).tiles = d.tiles := by
  unfold Device.raise; simp only []; split
  · split <;> split <;> rfl
  · rfl

@[simp] theorem Device.raise_fronds (code : Nat) (r0 r1 : Word) : (d.raise code r0 r1).fronds = d.fronds := by
  unfold Device.raise; simp only []; split
  · split <;> split <;> rfl
  · rfl

@[simp] theorem Device.raise_hqs (code : Nat) (r0 r1 : Word) : (d.raise code r0 r1).hqs = d.hqs := by
  unfold Device.raise; simp only []; split
  · split <;> split <;> rfl
  · rfl

@[simp] theorem Device.raise_routers (code : Nat) (r0 r1 : Word) : (d.raise code r0 r1).routers = d.routers := by
  unfold Device.raise; simp only []; split
  · split <;> split <;> rfl
  · rfl

@[simp] theorem Device.raise_mcs (code : Nat) (r0 r1 : Word) : (d.raise code r0 r1).mcs = d.mcs := by
  unfold Device.raise; simp only []; split
  · split <;> split <;> rfl
  · rfl

@[simp] theorem Device.raise_dram (code : Nat) (r0 r1 : Word) : (d.raise code r0 r1).dram = d.dram := by
  unfold Device.raise; simp only []; split
  · split <;> split <;> rfl
  · rfl

@[simp] theorem Device.raise_side (code : Nat) (r0 r1 : Word) : (d.raise code r0 r1).side = d.side := by
  unfold Device.raise; simp only []; split
  · split <;> split <;> rfl
  · rfl

@[simp] theorem Device.raise_hostMem (code : Nat) (r0 r1 : Word) : (d.raise code r0 r1).hostMem = d.hostMem := by
  unfold Device.raise; simp only []; split
  · split <;> split <;> rfl
  · rfl

@[simp] theorem Device.raise_flash (code : Nat) (r0 r1 : Word) : (d.raise code r0 r1).flash = d.flash := by
  unfold Device.raise; simp only []; split
  · split <;> split <;> rfl
  · rfl

@[simp] theorem Device.raise_sched (code : Nat) (r0 r1 : Word) : (d.raise code r0 r1).sched = d.sched := by
  unfold Device.raise; simp only []; split
  · split <;> split <;> rfl
  · rfl

@[simp] theorem Device.raise_fab (code : Nat) (r0 r1 : Word) : (d.raise code r0 r1).fab = d.fab := by
  unfold Device.raise; simp only []; split
  · split <;> split <;> rfl
  · rfl

@[simp] theorem Device.raise_pwr (code : Nat) (r0 r1 : Word) : (d.raise code r0 r1).pwr = d.pwr := by
  unfold Device.raise; simp only []; split
  · split <;> split <;> rfl
  · rfl

@[simp] theorem Device.raise_boot (code : Nat) (r0 r1 : Word) : (d.raise code r0 r1).boot = d.boot := by
  unfold Device.raise; simp only []; split
  · split <;> split <;> rfl
  · rfl

@[simp] theorem Device.raise_fuses (code : Nat) (r0 r1 : Word) : (d.raise code r0 r1).fuses = d.fuses := by
  unfold Device.raise; simp only []; split
  · split <;> split <;> rfl
  · rfl

@[simp] theorem Device.raise_mod (code : Nat) (r0 r1 : Word) : (d.raise code r0 r1).mod = d.mod := by
  unfold Device.raise; simp only []; split
  · split <;> split <;> rfl
  · rfl

@[simp] theorem Device.raise_cxl (code : Nat) (r0 r1 : Word) : (d.raise code r0 r1).cxl = d.cxl := by
  unfold Device.raise; simp only []; split
  · split <;> split <;> rfl
  · rfl

@[simp] theorem Device.raise_bad (code : Nat) (r0 r1 : Word) : (d.raise code r0 r1).bad = d.bad := by
  unfold Device.raise; simp only []; split
  · split <;> split <;> rfl
  · rfl

@[simp] theorem Device.raise_sec (code : Nat) (r0 r1 : Word) : (d.raise code r0 r1).sec = d.sec := by
  unfold Device.raise; simp only []; split
  · split <;> split <;> rfl
  · rfl

@[simp] theorem Device.raise_free (code : Nat) (r0 r1 : Word) : (d.raise code r0 r1).free = d.free := by
  unfold Device.raise; simp only []; split
  · split <;> split <;> rfl
  · rfl

/-! ## What bump leaves -/

@[simp] theorem Device.bump_tiles (i u n : Nat) : (d.bump i u n).tiles = d.tiles := by
  unfold Device.bump; simp only []; split
  · rw [Device.raise_tiles]; rfl
  · rfl

@[simp] theorem Device.bump_fronds (i u n : Nat) : (d.bump i u n).fronds = d.fronds := by
  unfold Device.bump; simp only []; split
  · rw [Device.raise_fronds]; rfl
  · rfl

@[simp] theorem Device.bump_hqs (i u n : Nat) : (d.bump i u n).hqs = d.hqs := by
  unfold Device.bump; simp only []; split
  · rw [Device.raise_hqs]; rfl
  · rfl

@[simp] theorem Device.bump_routers (i u n : Nat) : (d.bump i u n).routers = d.routers := by
  unfold Device.bump; simp only []; split
  · rw [Device.raise_routers]; rfl
  · rfl

@[simp] theorem Device.bump_mcs (i u n : Nat) : (d.bump i u n).mcs = d.mcs := by
  unfold Device.bump; simp only []; split
  · rw [Device.raise_mcs]; rfl
  · rfl

@[simp] theorem Device.bump_dram (i u n : Nat) : (d.bump i u n).dram = d.dram := by
  unfold Device.bump; simp only []; split
  · rw [Device.raise_dram]; rfl
  · rfl

@[simp] theorem Device.bump_side (i u n : Nat) : (d.bump i u n).side = d.side := by
  unfold Device.bump; simp only []; split
  · rw [Device.raise_side]; rfl
  · rfl

@[simp] theorem Device.bump_hostMem (i u n : Nat) : (d.bump i u n).hostMem = d.hostMem := by
  unfold Device.bump; simp only []; split
  · rw [Device.raise_hostMem]; rfl
  · rfl

@[simp] theorem Device.bump_flash (i u n : Nat) : (d.bump i u n).flash = d.flash := by
  unfold Device.bump; simp only []; split
  · rw [Device.raise_flash]; rfl
  · rfl

@[simp] theorem Device.bump_sched (i u n : Nat) : (d.bump i u n).sched = d.sched := by
  unfold Device.bump; simp only []; split
  · rw [Device.raise_sched]; rfl
  · rfl

@[simp] theorem Device.bump_fab (i u n : Nat) : (d.bump i u n).fab = d.fab := by
  unfold Device.bump; simp only []; split
  · rw [Device.raise_fab]; rfl
  · rfl

@[simp] theorem Device.bump_pwr (i u n : Nat) : (d.bump i u n).pwr = d.pwr := by
  unfold Device.bump; simp only []; split
  · rw [Device.raise_pwr]; rfl
  · rfl

@[simp] theorem Device.bump_boot (i u n : Nat) : (d.bump i u n).boot = d.boot := by
  unfold Device.bump; simp only []; split
  · rw [Device.raise_boot]; rfl
  · rfl

@[simp] theorem Device.bump_fuses (i u n : Nat) : (d.bump i u n).fuses = d.fuses := by
  unfold Device.bump; simp only []; split
  · rw [Device.raise_fuses]; rfl
  · rfl

@[simp] theorem Device.bump_mod (i u n : Nat) : (d.bump i u n).mod = d.mod := by
  unfold Device.bump; simp only []; split
  · rw [Device.raise_mod]; rfl
  · rfl

@[simp] theorem Device.bump_cxl (i u n : Nat) : (d.bump i u n).cxl = d.cxl := by
  unfold Device.bump; simp only []; split
  · rw [Device.raise_cxl]; rfl
  · rfl

@[simp] theorem Device.bump_bad (i u n : Nat) : (d.bump i u n).bad = d.bad := by
  unfold Device.bump; simp only []; split
  · rw [Device.raise_bad]; rfl
  · rfl

@[simp] theorem Device.bump_sec (i u n : Nat) : (d.bump i u n).sec = d.sec := by
  unfold Device.bump; simp only []; split
  · rw [Device.raise_sec]; rfl
  · rfl

@[simp] theorem Device.bump_free (i u n : Nat) : (d.bump i u n).free = d.free := by
  unfold Device.bump; simp only []; split
  · rw [Device.raise_free]; rfl
  · rfl

/-- An event is recorded, or dropped and counted where the buffer is full, or ignored where its code is not enabled. -/
theorem Device.raise_cases (code : Nat) (r0 r1 : Word) :
    (d.enabled code = false ∧ d.raise code r0 r1 = d) ∨
    (d.enabled code = true ∧ d.host.events.length < 256 ∧ (d.raise code r0 r1).host.events = d.host.events ++ [⟨code, r0, r1, 0⟩] ∧
      (d.raise code r0 r1).ctrs = d.ctrs) ∨
    (d.enabled code = true ∧ 256 ≤ d.host.events.length ∧ (d.raise code r0 r1).host.events = d.host.events) := by
  unfold Device.raise
  by_cases h : d.enabled code = true
  · by_cases hl : d.host.events.length < 256
    · refine Or.inr (Or.inl ⟨h, hl, ?_⟩)
      by_cases hf : fatalCode code = true <;> simp [h, hl, hf]
    · refine Or.inr (Or.inr ⟨h, by omega, ?_⟩)
      by_cases hf : fatalCode code = true <;> simp [h, hl, hf, Device.setCounter]
  · simp only [Bool.not_eq_true] at h
    exact Or.inl ⟨h, by simp [h]⟩

/-- The event buffer never holds more than 256 records (08 R223). -/
theorem Device.raise_events_length (code : Nat) (r0 r1 : Word) (h : d.host.events.length ≤ 256) :
    (d.raise code r0 r1).host.events.length ≤ 256 := by
  rcases d.raise_cases code r0 r1 with ⟨_, e⟩ | ⟨_, hl, e, _⟩ | ⟨_, _, e⟩
  · rw [e]; exact h
  · rw [e, List.length_append]; simp; omega
  · rw [e]; exact h

/-! ## Tile instructions -/

/-- The instruction at the PC issues as its opcode: its body decides. -/
theorem Tile.issue_at (op : Nat) (body : Word → Tile → Issue) (t : Tile) (h : t.at op = true) (hr : reservedOpc op = false) :
    Tile.issue op body t = (body t.fetch t).apply t := by
  simp only [Tile.at, Bool.and_eq_true, Bool.not_eq_true', beq_iff_eq] at h
  simp [Tile.issue, h.1.1.1, h.1.1.2, h.1.2, h.2, hr]

/-- A tile whose sequencer may not issue is left as it is. -/
theorem Tile.issue_idle (op : Nat) (body : Word → Tile → Issue) (t : Tile) (h : t.canIssue = false) : Tile.issue op body t = t := by
  simp [Tile.issue, h]

/-- Everything an issue can do: nothing, a fault of the word, or what the body says. -/
theorem Tile.issue_cases (op : Nat) (body : Word → Tile → Issue) (t : Tile) :
    Tile.issue op body t = t ∨ (∃ c, t.canIssue = true ∧ Tile.issue op body t = t.fault c 0) ∨
      (t.at op = true ∧ Tile.issue op body t = (body t.fetch t).apply t) := by
  by_cases hc : t.canIssue = true
  · by_cases hb : t.fetchBad = true
    · exact Or.inr (Or.inl ⟨_, hc, by simp [Tile.issue, hc, hb]; rfl⟩)
    · by_cases hr : reservedOpc (wOpc t.fetch) = true
      · exact Or.inr (Or.inl ⟨_, hc, by simp [Tile.issue, hc, hb, hr]; rfl⟩)
      · by_cases ho : wOpc t.fetch = op ∧ t.seq.regsReady t.fetch = true
        · exact Or.inr (Or.inr ⟨by simp [Tile.at, hc, hb, ho.1, ho.2], by
            have hr' : reservedOpc op = false := by rw [← ho.1]; simpa using hr
            simp [Tile.issue, hc, hb, ho.1, ho.2, hr']⟩)
        · exact Or.inl (by simp [Tile.issue, hc, hb, hr, ho])
  · exact Or.inl (Tile.issue_idle op body t (by simpa using hc))

/-- A tile instruction changes its tile and nothing else. -/
theorem Device.issue_eq (op : Nat) (body : Ctx → Word → Tile → Issue) (t : Nat) :
    Device.issue op body t d = d.setTile t (Tile.issue op (limited d.rst.st (body ⟨t, d.time (t / 384)⟩)) (d.tile t)) := rfl

/-- The end of an iteration leaves the registers, the flags and everything but the loops, their counts and the rotation. -/
theorem Seq.iterEnd_keeps (s : Seq) (e : Nat) (inner l : List LoopCtx) :
    (s.iterEnd e inner l).1.g = s.g ∧ (s.iterEnd e inner l).1.v = s.v ∧ (s.iterEnd e inner l).1.p = s.p ∧
      (s.iterEnd e inner l).1.flags = s.flags ∧ (s.iterEnd e inner l).1.slot = s.slot ∧ (s.iterEnd e inner l).1.item = s.item ∧
      (s.iterEnd e inner l).1.seed = s.seed ∧ (s.iterEnd e inner l).1.cycle = s.cycle := by
  induction l generalizing s inner with
  | nil => simp [Seq.iterEnd]
  | cons x r ih =>
    unfold Seq.iterEnd
    by_cases hx : x.last = e
    · simp only [hx, if_true]
      split
      · have := ih { s with rrbG := s.rrbG - x.gstep, rrbV := s.rrbV - x.vstep } inner
        simpa using this
      · simp
    · simpa [hx] using ih s (inner ++ [x])

/-- Going on after an instruction leaves the registers and flags as the instruction left them. -/
theorem Tile.fallThrough_keeps (t : Tile) :
    t.fallThrough.seq.g = t.seq.g ∧ t.fallThrough.seq.v = t.seq.v ∧ t.fallThrough.seq.p = t.seq.p ∧ t.fallThrough.seq.flags = t.seq.flags := by
  have h := Seq.iterEnd_keeps t.seq t.seq.pc.toNat [] t.seq.loops
  unfold Tile.fallThrough
  simp only []
  split
  · exact ⟨h.1, h.2.1, h.2.2.1, h.2.2.2.1⟩
  · exact ⟨h.1, h.2.1, h.2.2.1, h.2.2.2.1⟩

@[simp] theorem Tile.fallThrough_mem (t : Tile) : t.fallThrough.mem = t.mem := by unfold Tile.fallThrough; simp only []; split <;> rfl
@[simp] theorem Tile.fallThrough_imem (t : Tile) : t.fallThrough.imem = t.imem := by unfold Tile.fallThrough; simp only []; split <;> rfl
@[simp] theorem Tile.fallThrough_arr (t : Tile) : t.fallThrough.arr = t.arr := by unfold Tile.fallThrough; simp only []; split <;> rfl
@[simp] theorem Tile.fallThrough_sel (t : Tile) : t.fallThrough.sel = t.sel := by unfold Tile.fallThrough; simp only []; split <;> rfl
@[simp] theorem Tile.fallThrough_strm (t : Tile) : t.fallThrough.strm = t.strm := by unfold Tile.fallThrough; simp only []; split <;> rfl
@[simp] theorem Tile.fallThrough_running (t : Tile) : t.fallThrough.running = t.running := by unfold Tile.fallThrough; simp only []; split <;> rfl

/-- Without a loop that ends there, the next instruction is the one that follows. -/
theorem Tile.fallThrough_plain (t : Tile) (hl : t.seq.loops = []) (hp : t.seq.pc.toNat < 16383) :
    t.fallThrough = { t with seq := { t.seq with loops := [], st := .run, pc := t.seq.pc + 1, wait := none } } := by
  have e : BitVec.ofNat 14 (t.seq.pc.toNat + 1) = t.seq.pc + 1 := by
    apply BitVec.eq_of_toNat_eq
    simp [BitVec.toNat_add]
  have h1 : t.seq.pc.toNat + 1 < 16384 := by omega
  simp [Tile.fallThrough, hl, Seq.iterEnd, h1, e]

end Sys2Proof.Machine
end

