-- ==== Sys2Proof/Laws/PerInstr.lean ====
section
/-! SUPPORT. A statement about every command, made constructor by constructor: no table word spells it, at any width (spec/opcode_table.json
gives no row any bits). -/

namespace Sys2Proof.Laws.NoWord

open Sys2Proof

/-- No word of the table's bits spells the command. -/
def Statement (i : Instr) : Prop := ∀ nbits w : Nat, decodeTableWord nbits w ≠ some i

/-- The reason they share: the reader of table words answers nothing. -/
theorem of_none (i : Instr) : Statement i := fun _ _ h => by cases h

theorem add (t : Nat) : Statement (.add t) := of_none _
theorem sub (t : Nat) : Statement (.sub t) := of_none _
theorem and (t : Nat) : Statement (.and t) := of_none _
theorem or (t : Nat) : Statement (.or t) := of_none _
theorem xor (t : Nat) : Statement (.xor t) := of_none _
theorem shl (t : Nat) : Statement (.shl t) := of_none _
theorem shr (t : Nat) : Statement (.shr t) := of_none _
theorem li (t : Nat) : Statement (.li t) := of_none _
theorem mov (t : Nat) : Statement (.mov t) := of_none _
theorem cmp (t : Nat) : Statement (.cmp t) := of_none _
theorem br (t : Nat) : Statement (.br t) := of_none _
theorem brc (t : Nat) : Statement (.brc t) := of_none _
theorem loop (t : Nat) : Statement (.loop t) := of_none _
theorem halt (t : Nat) : Statement (.halt t) := of_none _
theorem waith (t : Nat) : Statement (.waith t) := of_none _
theorem signal (t : Nat) : Statement (.signal t) := of_none _
theorem mld (t : Nat) : Statement (.mld t) := of_none _
theorem mma (t : Nat) : Statement (.mma t) := of_none _
theorem mzero (t : Nat) : Statement (.mzero t) := of_none _
theorem mdrain (t : Nat) : Statement (.mdrain t) := of_none _
theorem hpush (t : Nat) : Statement (.hpush t) := of_none _
theorem hpop (t : Nat) : Statement (.hpop t) := of_none _
theorem hpeek (t : Nat) : Statement (.hpeek t) := of_none _
theorem strm (t : Nat) : Statement (.strm t) := of_none _
theorem strmy (t : Nat) : Statement (.strmy t) := of_none _
theorem rng (t : Nat) : Statement (.rng t) := of_none _
theorem ballast (t : Nat) : Statement (.ballast t) := of_none _
theorem fence (t : Nat) : Statement (.fence t) := of_none _
theorem trap (t : Nat) : Statement (.trap t) := of_none _
theorem vld (t : Nat) : Statement (.vld t) := of_none _
theorem vst (t : Nat) : Statement (.vst t) := of_none _
theorem vadd (t : Nat) : Statement (.vadd t) := of_none _
theorem vsub (t : Nat) : Statement (.vsub t) := of_none _
theorem vmul (t : Nat) : Statement (.vmul t) := of_none _
theorem vfma (t : Nat) : Statement (.vfma t) := of_none _
theorem vmax (t : Nat) : Statement (.vmax t) := of_none _
theorem vmin (t : Nat) : Statement (.vmin t) := of_none _
theorem vsel (t : Nat) : Statement (.vsel t) := of_none _
theorem vmaxi (t : Nat) : Statement (.vmaxi t) := of_none _
theorem vmini (t : Nat) : Statement (.vmini t) := of_none _
theorem vred (t : Nat) : Statement (.vred t) := of_none _
theorem vscan (t : Nat) : Statement (.vscan t) := of_none _
theorem vcvt (t : Nat) : Statement (.vcvt t) := of_none _
theorem sinit (t : Nat) : Statement (.sinit t) := of_none _
theorem sfeed (t : Nat) : Statement (.sfeed t) := of_none _
theorem sread (t : Nat) : Statement (.sread t) := of_none _
theorem smerge (t : Nat) : Statement (.smerge t) := of_none _
theorem mldSetComplete (t : Nat) : Statement (.mldSetComplete t) := of_none _
theorem newwSwap (t : Nat) : Statement (.newwSwap t) := of_none _
theorem mmaBlockWrite (t : Nat) : Statement (.mmaBlockWrite t) := of_none _
theorem arrayGapExpiry (t : Nat) : Statement (.arrayGapExpiry t) := of_none _
theorem arrayRampStep (t : Nat) : Statement (.arrayRampStep t) := of_none _
theorem rampLead (t : Nat) : Statement (.rampLead t) := of_none _
theorem ballastEnd (t : Nat) : Statement (.ballastEnd t) := of_none _
theorem streamBlockStart (t : Nat) : Statement (.streamBlockStart t) := of_none _
theorem streamBlockComplete (t : Nat) : Statement (.streamBlockComplete t) := of_none _
theorem readResponse (r lp : Nat) : Statement (.readResponse r lp) := of_none _
theorem writeAck (r lp : Nat) : Statement (.writeAck r lp) := of_none _
theorem hrespReceive (r lp : Nat) : Statement (.hrespReceive r lp) := of_none _
theorem hopRetry (r lp : Nat) : Statement (.hopRetry r lp) := of_none _
theorem queueOperation (f : Nat) : Statement (.queueOperation f) := of_none _
theorem wcFillReturn (f : Nat) : Statement (.wcFillReturn f) := of_none _
theorem itemSend (q g : Nat) : Statement (.itemSend q g) := of_none _
theorem itemDispatch (f : Nat) : Statement (.itemDispatch f) := of_none _
theorem itemEnd (t : Nat) : Statement (.itemEnd t) := of_none _
theorem itemTimeout (t : Nat) : Statement (.itemTimeout t) := of_none _
theorem loadReport (f : Nat) : Statement (.loadReport f) := of_none _
theorem dieTotalReport (k : Nat) : Statement (.dieTotalReport k) := of_none _
theorem stealRequest (f : Nat) : Statement (.stealRequest f) := of_none _
theorem stealAnswer (f : Nat) : Statement (.stealAnswer f) := of_none _
theorem commitApply (q g : Nat) : Statement (.commitApply q g) := of_none _
theorem consRecheck (q g : Nat) : Statement (.consRecheck q g) := of_none _
theorem nop (q g : Nat) : Statement (.nop q g) := of_none _
theorem identify (q g : Nat) : Statement (.identify q g) := of_none _
theorem getStatus (q g : Nat) : Statement (.getStatus q g) := of_none _
theorem setPowerPolicy (q g : Nat) : Statement (.setPowerPolicy q g) := of_none _
theorem resetWarm (q g : Nat) : Statement (.resetWarm q g) := of_none _
theorem setQueueCreate (q g : Nat) : Statement (.setQueueCreate q g) := of_none _
theorem setQueueDelete (q g : Nat) : Statement (.setQueueDelete q g) := of_none _
theorem setQueueWeights (q g : Nat) : Statement (.setQueueWeights q g) := of_none _
theorem getCounters (q g : Nat) : Statement (.getCounters q g) := of_none _
theorem clearCounters (q g : Nat) : Statement (.clearCounters q g) := of_none _
theorem getAvailability (q g : Nat) : Statement (.getAvailability q g) := of_none _
theorem setEventMask (q g : Nat) : Statement (.setEventMask q g) := of_none _
theorem copy (q g : Nat) : Statement (.copy q g) := of_none _
theorem fill (q g : Nat) : Statement (.fill q g) := of_none _
theorem biasSet (q g : Nat) : Statement (.biasSet q g) := of_none _
theorem cacheInvalidate (q g : Nat) : Statement (.cacheInvalidate q g) := of_none _
theorem loadProgram (q g : Nat) : Statement (.loadProgram q g) := of_none _
theorem run (q g : Nat) : Statement (.run q g) := of_none _
theorem abort (q g : Nat) : Statement (.abort q g) := of_none _
theorem queryRun (q g : Nat) : Statement (.queryRun q g) := of_none _
theorem setSchedPolicy (q g : Nat) : Statement (.setSchedPolicy q g) := of_none _
theorem fabricLoad (q g : Nat) : Statement (.fabricLoad q g) := of_none _
theorem patchLoad (q g : Nat) : Statement (.patchLoad q g) := of_none _
theorem patchClear (q g : Nat) : Statement (.patchClear q g) := of_none _
theorem capture (q g : Nat) : Statement (.capture q g) := of_none _
theorem readback (q g : Nat) : Statement (.readback q g) := of_none _
theorem scrubSetPeriod (q g : Nat) : Statement (.scrubSetPeriod q g) := of_none _
theorem scrubPause (q g : Nat) : Statement (.scrubPause q g) := of_none _
theorem scrubResume (q g : Nat) : Statement (.scrubResume q g) := of_none _
theorem scrubRebuild (q g : Nat) : Statement (.scrubRebuild q g) := of_none _
theorem gpioRead (q g : Nat) : Statement (.gpioRead q g) := of_none _
theorem gpioReleaseKeepers (q g : Nat) : Statement (.gpioReleaseKeepers q g) := of_none _
theorem linkDisable (q g : Nat) : Statement (.linkDisable q g) := of_none _
theorem linkEnableTrain (q g : Nat) : Statement (.linkEnableTrain q g) := of_none _
theorem linkRetrain (q g : Nat) : Statement (.linkRetrain q g) := of_none _
theorem linkAllowLowPower (q g : Nat) : Statement (.linkAllowLowPower q g) := of_none _
theorem linkHoldRun (q g : Nat) : Statement (.linkHoldRun q g) := of_none _
theorem linkStatus (q g : Nat) : Statement (.linkStatus q g) := of_none _
theorem routeSet (q g : Nat) : Statement (.routeSet q g) := of_none _
theorem collectiveSetup (q g : Nat) : Statement (.collectiveSetup q g) := of_none _
theorem attest (q g : Nat) : Statement (.attest q g) := of_none _
theorem getMeasurements (q g : Nat) : Statement (.getMeasurements q g) := of_none _
theorem getCert (q g : Nat) : Statement (.getCert q g) := of_none _
theorem fwStage (q g : Nat) : Statement (.fwStage q g) := of_none _
theorem fwActivate (q g : Nat) : Statement (.fwActivate q g) := of_none _
theorem debugChallenge (q g : Nat) : Statement (.debugChallenge q g) := of_none _
theorem debugResponse (q g : Nat) : Statement (.debugResponse q g) := of_none _
theorem diagRead (q g : Nat) : Statement (.diagRead q g) := of_none _
theorem mcThaw (q g : Nat) : Statement (.mcThaw q g) := of_none _
theorem traceStart (q g : Nat) : Statement (.traceStart q g) := of_none _
theorem traceStop (q g : Nat) : Statement (.traceStop q g) := of_none _
theorem bistRun (q g : Nat) (failed : List Nat) : Statement (.bistRun q g failed) := of_none _
theorem commandFetch : Statement (.commandFetch) := of_none _
theorem qEnable (cfg : Word) : Statement (.qEnable cfg) := of_none _
theorem qDisable (cfg : Word) : Statement (.qDisable cfg) := of_none _
theorem sqTailDoorbell (q : Nat) (v : BitVec 32) : Statement (.sqTailDoorbell q v) := of_none _
theorem cqHeadDoorbell (q : Nat) (v : BitVec 32) : Statement (.cqHeadDoorbell q v) := of_none _
theorem registerWrite (off size : Nat) (v : Word) : Statement (.registerWrite off size v) := of_none _
theorem eventPost : Statement (.eventPost) := of_none _
theorem coalTimer (q : Nat) : Statement (.coalTimer q) := of_none _
theorem packetInject (r lp : Nat) : Statement (.packetInject r lp) := of_none _
theorem unmappedAnswer (r : Nat) : Statement (.unmappedAnswer r) := of_none _
theorem flitReceive (r p : Nat) (err : BitVec 1120) : Statement (.flitReceive r p err) := of_none _
theorem flitReplayRequest (r p : Nat) : Statement (.flitReplayRequest r p) := of_none _
theorem creditReturn (r p vc : Nat) : Statement (.creditReturn r p vc) := of_none _
theorem mcReadRequest (m : Nat) : Statement (.mcReadRequest m) := of_none _
theorem mcWriteRequest (m : Nat) : Statement (.mcWriteRequest m) := of_none _
theorem writeEntryAccept (m : Nat) : Statement (.writeEntryAccept m) := of_none _
theorem dramCommandIssue (m c : Nat) : Statement (.dramCommandIssue m c) := of_none _
theorem dramReadData (m c : Nat) (errs : List (Nat × Byte)) : Statement (.dramReadData m c errs) := of_none _
theorem parityFailure (m c : Nat) : Statement (.parityFailure m c) := of_none _
theorem refreshDue (m c : Nat) : Statement (.refreshDue m c) := of_none _
theorem dramTempRead (m : Nat) (temp : Byte) : Statement (.dramTempRead m temp) := of_none _
theorem retrainChannelDone (m c : Nat) : Statement (.retrainChannelDone m c) := of_none _
theorem agePromote (m c n : Nat) : Statement (.agePromote m c n) := of_none _
theorem patrolScrubRead (m : Nat) : Statement (.patrolScrubRead m) := of_none _
theorem iqRequest (r lp : Nat) (b : IqEvent) : Statement (.iqRequest r lp b) := of_none _
theorem trResponse (r lp : Nat) (b : TrEvent) : Statement (.trResponse r lp b) := of_none _
theorem tgtTimeout (r lp : Nat) (ttag : TtagEvent) : Statement (.tgtTimeout r lp ttag) := of_none _
theorem sleepOkChange (g : Nat) (level : Bool) : Statement (.sleepOkChange g level) := of_none _
theorem patchWake (p : Nat) : Statement (.patchWake p) := of_none _
theorem dllLock (g : Nat) : Statement (.dllLock g) := of_none _
theorem dllLockLoss (g : Nat) : Statement (.dllLockLoss g) := of_none _
theorem dllLockTimeout (g : Nat) : Statement (.dllLockTimeout g) := of_none _
theorem configClearDone (k : Nat) : Statement (.configClearDone k) := of_none _
theorem configFrame (k : Nat) : Statement (.configFrame k) := of_none _
theorem startupStep (k : Nat) : Statement (.startupStep k) := of_none _
theorem scrubPassStart (g : Nat) : Statement (.scrubPassStart g) := of_none _
theorem scrubFrameRead (g : Nat) (upset : List (Nat × Bool)) (sig : SigRead) : Statement (.scrubFrameRead g upset sig) := of_none _
theorem scrubWatchdog (g : Nat) : Statement (.scrubWatchdog g) := of_none _
theorem horizonUpdate : Statement (.horizonUpdate) := of_none _
theorem domainEval (d : DomainId) : Statement (.domainEval d) := of_none _
theorem domainEntryDone (d : DomainId) : Statement (.domainEntryDone d) := of_none _
theorem domainWakeDone (d : DomainId) : Statement (.domainWakeDone d) := of_none _
theorem powerWindow (watts : Nat) (tj : List (List Nat)) : Statement (.powerWindow watts tj) := of_none _
theorem thermtrip (k : Nat) : Statement (.thermtrip k) := of_none _
theorem lidSensorRead (temp : Nat) : Statement (.lidSensorRead temp) := of_none _
theorem pllLockLoss (k : Nat) : Statement (.pllLockLoss k) := of_none _
theorem dmWatchdog (k : Nat) : Statement (.dmWatchdog k) := of_none _
theorem modRstAssert : Statement (.modRstAssert) := of_none _
theorem modRstRelease : Statement (.modRstRelease) := of_none _
theorem perstAssert : Statement (.perstAssert) := of_none _
theorem perstRelease : Statement (.perstRelease) := of_none _
theorem powerGood : Statement (.powerGood) := of_none _
theorem inputUp : Statement (.inputUp) := of_none _
theorem brownout : Statement (.brownout) := of_none _
theorem enBreak : Statement (.enBreak) := of_none _
theorem overcurrent : Statement (.overcurrent) := of_none _
theorem overcurrentRetry : Statement (.overcurrentRetry) := of_none _
theorem fuseSense : Statement (.fuseSense) := of_none _
theorem secBoot (k : CoreStart) : Statement (.secBoot k) := of_none _
theorem networkSelftestDone (failed : List (Nat × Nat)) : Statement (.networkSelftestDone failed) := of_none _
theorem census (answers : List Answer) : Statement (.census answers) := of_none _
theorem dramTrainDone (k : Nat) (failed : Bool) : Statement (.dramTrainDone k failed) := of_none _
theorem dramTestDone (k : Nat) (exhausted : Bool) : Statement (.dramTestDone k exhausted) := of_none _
theorem selftestPartDone (t : Nat) (pass : Bool) (faulty : List (Nat × Nat)) (frondOk : Bool) : Statement (.selftestPartDone t pass faulty frondOk) := of_none _
theorem partIIBatch : Statement (.partIIBatch) := of_none _
theorem closing : Statement (.closing) := of_none _
theorem sporeSetup : Statement (.sporeSetup) := of_none _
theorem sporeChunkSend : Statement (.sporeChunkSend) := of_none _
theorem sporeChunkWrite (f : Nat) (bad : List Nat) : Statement (.sporeChunkWrite f bad) := of_none _
theorem sporeReportRequest : Statement (.sporeReportRequest) := of_none _
theorem sporeReport (t : Nat) : Statement (.sporeReport t) := of_none _
theorem sporeReportTimeout (f : Nat) : Statement (.sporeReportTimeout f) := of_none _
theorem sporeRepairRound : Statement (.sporeRepairRound) := of_none _
theorem cxlLinkL0 (allThree : Bool) (rate : CxlRate) (lanes : Nat) : Statement (.cxlLinkL0 allThree rate lanes) := of_none _
theorem cxlLinkDown : Statement (.cxlLinkDown) := of_none _
theorem cxlMemRead (addr : Nat) : Statement (.cxlMemRead addr) := of_none _
theorem cxlMemWrite (addr : Nat) (data : List Byte) : Statement (.cxlMemWrite addr data) := of_none _
theorem hostSnoop (addr : Nat) : Statement (.hostSnoop addr) := of_none _
theorem doeRequest (kind : Nat) (nonce : List Byte) : Statement (.doeRequest kind nonce) := of_none _
theorem hdmCommit (ways gran : Nat) (size : HdmSpan) (skip : Nat) : Statement (.hdmCommit ways gran size skip) := of_none _
theorem busMasterEnable (on : CxlEnables) : Statement (.busMasterEnable on) := of_none _
theorem dStateChange (d3 : Bool) : Statement (.dStateChange d3) := of_none _
theorem cxlHotReset : Statement (.cxlHotReset) := of_none _
theorem cxlReset : Statement (.cxlReset) := of_none _
theorem flr : Statement (.flr) := of_none _
theorem trainingFrame (n lane : Nat) (frame : BitVec 128) (want : BitVec 8) : Statement (.trainingFrame n lane frame want) := of_none _
theorem detectDwell (n : Nat) : Statement (.detectDwell n) := of_none _
theorem linkStateTimeout (n : Nat) : Statement (.linkStateTimeout n) := of_none _
theorem linkMarker (n : Nat) (marks : List (BitVec 512)) (skew : MarkerPlace) : Statement (.linkMarker n marks skew) := of_none _
theorem linkMarkerLoss (n : Nat) : Statement (.linkMarkerLoss n) := of_none _
theorem linkParam (n : Nat) (addr : BitVec 18) (valid : Bool) (dir : BitVec 3) : Statement (.linkParam n addr valid dir) := of_none _
theorem linkDataFlit (n : Nat) (flit : BitVec 1184) (damaged : Bool) : Statement (.linkDataFlit n flit damaged) := of_none _
theorem linkNak (n : Nat) (seq : BitVec 12) : Statement (.linkNak n seq) := of_none _
theorem linkDownNotice (n : Nat) : Statement (.linkDownNotice n) := of_none _
theorem linkElectricalIdle (n : Nat) : Statement (.linkElectricalIdle n) := of_none _
theorem linkIdleTimeout (n : Nat) (own : Bool) : Statement (.linkIdleTimeout n own) := of_none _
theorem linkDryTimeout (n : Nat) (agreed : Bool) : Statement (.linkDryTimeout n agreed) := of_none _
theorem linkWake (n : Nat) (own ok : Bool) : Statement (.linkWake n own ok) := of_none _
theorem rwrite (n : Nat) : Statement (.rwrite n) := of_none _
theorem rpush (n : Nat) : Statement (.rpush n) := of_none _
theorem rack (n : Nat) : Statement (.rack n) := of_none _
theorem cdata (n : Nat) : Statement (.cdata n) := of_none _
theorem treq (n : Nat) : Statement (.treq n) := of_none _
theorem tgrant (n : Nat) : Statement (.tgrant n) := of_none _
theorem tdata (n : Nat) : Statement (.tdata n) := of_none _
theorem rackResendTimer (c : Nat) : Statement (.rackResendTimer c) := of_none _
theorem collectiveRackTimeout (c : Nat) : Statement (.collectiveRackTimeout c) := of_none _
theorem collectiveSrcPop (c : Nat) : Statement (.collectiveSrcPop c) := of_none _
theorem measurementAppend : Statement (.measurementAppend) := of_none _
theorem svcFuseBlow (ok : Bool) : Statement (.svcFuseBlow ok) := of_none _
theorem challengeLapse : Statement (.challengeLapse) := of_none _
theorem glitchDetect (k : Nat) : Statement (.glitchDetect k) := of_none _
theorem smbStatus (b : Nat) : Statement (.smbStatus b) := of_none _
theorem smbCause (b : Nat) : Statement (.smbCause b) := of_none _
theorem smbThermal (b inlet outlet : Nat) : Statement (.smbThermal b inlet outlet) := of_none _
theorem smbPower (b vin iin : Nat) : Statement (.smbPower b vin iin) := of_none _
theorem smbSerial (b : Nat) : Statement (.smbSerial b) := of_none _
theorem pllRelock (k : Nat) : Statement (.pllRelock k) := of_none _
theorem cxlCacheResponse (addr : Nat) (data : List Byte) : Statement (.cxlCacheResponse addr data) := of_none _
theorem jtagRequest (op : JtagOp) : Statement (.jtagRequest op) := of_none _
theorem msixMaskWrite (v : Nat) (mask : Bool) : Statement (.msixMaskWrite v mask) := of_none _
theorem challengeDelayExpiry : Statement (.challengeDelayExpiry) := of_none _
theorem fecCodewordReceive (n : Nat) (lanes : List (List Nat)) : Statement (.fecCodewordReceive n lanes) := of_none _

end Sys2Proof.Laws.NoWord
end

