-- ==== Sys2Proof/Tests/Slice0.lean ====
section
/-! SUPPORT. Tests of the model on small devices, one command each, their expected values taken from the rules the comments name; a witness for the hypotheses of
every statement; and the forms the part does not have. -/

namespace Sys2Proof.Tests

set_option Elab.async false
set_option maxRecDepth 20000

open Sys2Proof Sys2Proof.Machine Sys2Proof.Claims

/-- An item of RUN (queue 1, tag 7) on a tile. -/
def item : Running := { q := 1, tag := 7, index := 3, seq := 0, epoch := 0, layer := 0, spec := false, verify := false, outs := [] }

/-- A word of opcode op and the bits lo below them. -/
def wordOf (op lo : Nat) : Word := BitVec.ofNat 64 (op * 2 ^ 58 + lo)

/-- Tile 0 runs an item with the word w at its PC p. -/
def tileAt (p : Nat) (w : Word) : Tile :=
  { Tile.reset with imem := [(p, w)], running := some item, seq := { Seq.reset with st := .run, pc := BitVec.ofNat 14 p } }

/-- The READY device with tile 0 as given. -/
def devWith (T : Tile) : Device := { Device.reset with tiles := [(0, T)], rst := { Rst.reset with st := .ready } }

/-- The READY device, its clocks running, everything else as after reset. -/
def dev0 : Device := { Device.reset with rst := { Rst.reset with st := .ready }, pwr := { Power.reset with pll := List.range 8 } }

/-- A state with no command waiting. -/
def st (d : Device) : State := ⟨[], d⟩

/-- Tile 0 after a command that is carried out. -/
def tileAfter (c : Instr) (s : State) : Option Tile := match exec c s with | .next s' => some (s'.dev.tile 0) | _ => none

/-- The device after a command that is carried out. -/
def after (c : Instr) (s : State) : Option Device := match exec c s with | .next s' => some s'.dev | _ => none

/-- An MZERO block of one row. -/
def zblock : Block :=
  { mode := 0, fa := 0, fb := 0, sat := false, zero := true, bias := false, bfirst := true, blast := true, row := 0, rows := 1, col := 0, biasRow := 0,
    kv := 0, nv := 64, a := [], scales := [], newwHead := false, set := none, mzero := true }

/-- Scalar registers g1 = x and g2 = y. -/
def withG (T : Tile) (x y : Word) : Tile := { T with seq := { T.seq with g := [(1, x), (2, y)] } }

/-- GD = 3, GA = 1, GB = 2 or the immediate. -/
def gab (op sub : Nat) : Word := wordOf op (3 * 2 ^ 48 + 1 * 2 ^ 42 + 2 * 2 ^ 36 + sub * 2 ^ 32)
def gai (op imm : Nat) : Word := wordOf op (3 * 2 ^ 48 + 1 * 2 ^ 42 + 2 ^ 35 + imm)

/-- The state in which tile 0 issues w with g1 = x, g2 = y. -/
def sc (w x y : Word) : State := st (devWith (withG (tileAt 0 w) x y))

/-- What g3 holds after a command. -/
def g3 (c : Instr) (s : State) : Option Word := (tileAfter c s).map fun T => T.seq.getG 3

/-- R88: ADD wraps and sets SATURATED without SAT; the sum of two signed 64-bit limits. -/
theorem test_add_wraps : g3 (.add 0) (sc (gab 0 0) 0x7FFFFFFFFFFFFFFF 1) = some 0x8000000000000000 := by decide
theorem test_add_sets_saturated :
    (tileAfter (.add 0) (sc (gab 0 0) 0x7FFFFFFFFFFFFFFF 1)).map (fun T => T.seq.flags.saturated) = some true := by decide
/-- R88: SUB with an immediate, sign-extended. -/
theorem test_sub_imm : g3 (.sub 0) (sc (gai 1 0xFFFFFFFF) 5 0) = some 6 := by decide
theorem test_and : g3 (.and 0) (sc (gab 2 0) 0b1100 0b1010) = some 0b1000 := by decide
theorem test_or : g3 (.or 0) (sc (gab 3 0) 0b1100 0b1010) = some 0b1110 := by decide
theorem test_xor : g3 (.xor 0) (sc (gab 4 0) 0b1100 0b1010) = some 0b0110 := by decide
/-- R88: the shift count is b[5:0]. -/
theorem test_shl_count : g3 (.shl 0) (sc (gab 5 0) 3 65) = some 6 := by decide
theorem test_shr_arithmetic : g3 (.shr 0) (sc (gab 6 1) 0x8000000000000000 63) = some 0xFFFFFFFFFFFFFFFF := by decide
/-- R89: IMM47 is sign-extended. -/
theorem test_li_negative : g3 (.li 0) (sc (wordOf 7 (3 * 2 ^ 48 + 0x7FFFFFFFFFFF)) 0 0) = some 0xFFFFFFFFFFFFFFFF := by decide
theorem test_li_upper :
    (tileAfter (.li 0) (sc (wordOf 7 (1 * 2 ^ 48 + 2 ^ 47 + 1)) 5 0)).map (fun T => T.seq.getG 1) = some (0x800000000005 : Word) := by decide
/-- R85, R88: MOV reads the physical tile number, 0 here, over what g3 held, and p0 reads ones. -/
theorem test_mov_p0 : g3 (.mov 0) (sc (wordOf 8 (3 * 2 ^ 48 + 3 * 2 ^ 32)) 0 0) = some 0xFFFFFFFFFFFFFFFF := by decide
theorem test_mov_range_faults :
    (tileAfter (.mov 0) (sc (wordOf 8 (3 * 2 ^ 48 + 10 * 2 ^ 42 + 1 * 2 ^ 32)) 0 0)).map (fun T => T.seq.fault.cause) = some .operandRange := by decide
/-- R88: LT is signed, LTU unsigned. -/
theorem test_cmp_signed : g3 (.cmp 0) (sc (gab 9 2) 0xFFFFFFFFFFFFFFFF 1) = some 1 := by decide
theorem test_cmp_unsigned : g3 (.cmp 0) (sc (gab 9 4) 0xFFFFFFFFFFFFFFFF 1) = some 0 := by decide

/-- The hypotheses of ScalarInstructions are met, for each instruction. -/
theorem witness_add_sub : (Issues (sc (gab 0 0) 1 2) 0 0x00 (gab 0 0) ∧ ScalarForm (gab 0 0) 0) ∧
    Issues (sc (gai 1 7) 1 2) 0 0x01 (gai 1 7) ∧ ScalarForm (gai 1 7) 0 := by
  simp only [Issues, ScalarForm]; decide
theorem witness_bits : ∀ op ∈ [2, 3, 4, 5], Issues (sc (gab op 0) 1 2) 0 op (gab op 0) ∧ ScalarForm (gab op 0) 0 ∧ wSat (gab op 0) = false := by
  simp only [Issues, ScalarForm]; decide
theorem witness_shr_cmp : (∀ n ∈ [0, 1], Issues (sc (gab 6 n) 1 2) 0 6 (gab 6 n) ∧ ScalarForm (gab 6 n) 1 ∧ wSat (gab 6 n) = false) ∧
    ∀ n ∈ [0, 5], Issues (sc (gab 9 n) 1 2) 0 9 (gab 9 n) ∧ ScalarForm (gab 9 n) 5 ∧ wSat (gab 9 n) = false := by
  simp only [Issues, ScalarForm]; decide
theorem witness_li : ∀ w ∈ [wordOf 7 (3 * 2 ^ 48 + 5), wordOf 7 (3 * 2 ^ 48 + 2 ^ 47 + 0x1FFFF)],
    Issues (sc w 1 2) 0 7 w ∧ wSat w = false ∧ wPs w = 0 ∧ (bitAt w 47 = true → fld w 17 30 = 0) := by
  intro w hw; simp only [List.mem_cons, List.not_mem_nil, or_false] at hw; obtain rfl | rfl := hw <;> (simp only [Issues]; decide)
/-- MOV with SUBOP sub: the first and last register number of the range, and one beyond it. -/
def movW (gd ga sub : Nat) : Word := wordOf 8 (gd * 2 ^ 48 + ga * 2 ^ 42 + sub * 2 ^ 32)
theorem witness_mov : ∀ w ∈ [movW 3 1 0, movW 3 0 1, movW 3 1 1, movW 3 9 1, movW 3 10 1, movW 1 1 2, movW 7 1 2, movW 0 1 2, movW 8 1 2, movW 3 0 3, movW 3 7 3, movW 3 8 3],
    Issues (sc w 1 2) 0 8 w ∧ wSat w = false ∧ wPs w = 0 ∧ wImm w = false ∧ wImm32 w = 0 := by
  intro w hw; simp only [List.mem_cons, List.not_mem_nil, or_false] at hw; obtain rfl | rfl | rfl | rfl | rfl | rfl | rfl | rfl | rfl | rfl | rfl | rfl := hw <;> (simp only [Issues]; decide)
theorem witness_mov_waits :
    let w := wordOf 8 (3 * 2 ^ 48 + 1 * 2 ^ 32)
    let T := { tileAt 0 w with arr := { Arrays.reset with blocks := [zblock] } }
    Issues (st (devWith T)) 0 8 w ∧ wSub w = 1 ∧ wGa w = 0 ∧ T.arr.blocks ≠ [] := by
  simp only [Issues]; decide

/-- Tile 0 with the word w at its PC p, changed by f, in a state. -/
def cs (p : Nat) (w : Word) (f : Tile → Tile) : State := st (devWith (f (tileAt p w)))

def pcAfter (c : Instr) (s : State) : Option Nat := (tileAfter c s).map fun T => T.seq.pc.toNat

/-- R90: BR with OFFSET -2 from index 5 goes to 3; at index 0 it is PC_RANGE at the branch. -/
theorem test_br_back : pcAfter (.br 0) (cs 5 (wordOf 10 0xFFFFFE) id) = some 3 := by decide
theorem test_br_range : (tileAfter (.br 0) (cs 0 (wordOf 10 0xFFFFFE) id)).map (fun T => (T.seq.fault.cause, T.seq.fault.pc)) = some (.pcRange, 0) := by decide
/-- R90: GEZ of g1 = 0 holds, GTZ does not. -/
theorem test_brc_taken : pcAfter (.brc 0) (cs 5 (wordOf 11 (1 * 2 ^ 48 + 3 * 2 ^ 45 + 10)) (fun T => withG T 0 0)) = some 15 := by decide
theorem test_brc_not_taken : pcAfter (.brc 0) (cs 5 (wordOf 11 (1 * 2 ^ 48 + 4 * 2 ^ 45 + 10)) (fun T => withG T 0 0)) = some 6 := by decide
/-- R93: trip count 3 leaves lc0 = 2 and LDEPTH 1. -/
theorem test_loop_enters : (tileAfter (.loop 0) (cs 5 (wordOf 12 (2 ^ 53 + 3 * 2 ^ 31 + 4 * 2 ^ 18)) id)).map (fun T => (Sparse.get 0 T.seq.lc 0, T.seq.depth)) =
    some (2, 1) := by decide
theorem test_loop_none : pcAfter (.loop 0) (cs 5 (wordOf 12 (2 ^ 53 + 4 * 2 ^ 18)) id) = some 10 := by decide
/-- R91: HALT ends the item with its USER_CODE. -/
theorem test_halt : (tileAfter (.halt 0) (cs 5 (wordOf 13 0xBEEF) id)).map (fun T => (T.seq.st, T.ended)) = some (.idle, some ⟨.success, 0xBEEF, false⟩) := by decide
theorem test_fence_waits :
    (tileAfter (.fence 0) (cs 5 (wordOf 0x3E 0) (fun T => { T with arr := { T.arr with blocks := [zblock] } }))).map (fun T => T.seq.st) = some .wait := by decide
/-- R103: a FENCE of SCOPE 1 waits for a push that is not acknowledged, one of SCOPE 0 does not. -/
theorem test_fence_scope : ([0, 1] : List Nat).map (fun n =>
    (tileAfter (.fence 0) (cs 5 (wordOf 0x3E n) fun T => { T with seq := { T.seq with ops := [⟨1, .push, 3, none, false⟩] } })).map fun T => T.seq.st) =
    [some .run, some .wait] := by decide
theorem test_trap : (tileAfter (.trap 0) (cs 5 (wordOf 0x3F 0x1234) id)).map (fun T => (T.seq.fault.cause, T.seq.fault.trapCode)) = some (.trap, 0x1234) := by decide
/-- R93: with iterations left the last instruction of the body returns to its start and rotates. -/
theorem test_iteration :
    (tileAfter (.add 0) (cs 9 0 fun T => { T with seq := { T.seq with loops := [⟨6, 9, 1, 2, 0⟩], lc := [(0, 2)] } })).map
      (fun T => (T.seq.pc.toNat, Sparse.get 0 T.seq.lc 0, T.seq.rrbG, T.seq.rrbV)) = some (6, 1, 31, 14) := by decide

theorem witness_branches : ∀ w ∈ [wordOf 10 0, wordOf 10 0xFFFFFF, wordOf 10 (2 ^ 53 + 1 * 2 ^ 47)],
    Issues (cs 5 w id) 0 10 w ∧ wSat w = false ∧ wPs w = 0 ∧ (bitAt w 53 = false → fld w 24 29 = 0) ∧ (bitAt w 53 = true → fld w 0 47 = 0) := by
  intro w hw; simp only [List.mem_cons, List.not_mem_nil, or_false] at hw; obtain rfl | rfl | rfl := hw <;> (simp only [Issues]; decide)
/-- BRC: a condition that holds and one that does not, the first and last code. -/
theorem witness_brc : ∀ c ∈ [0, 1, 5],
    let w := wordOf 11 (1 * 2 ^ 48 + c * 2 ^ 45)
    Issues (cs 5 w fun T => withG T 0 0) 0 11 w ∧ wSat w = false ∧ wPs w = 0 ∧ fld w 24 21 = 0 ∧ fld w 45 3 = c ∧ branchCond c 0 = decide (c ≠ 1) := by
  simp only [Issues]; decide
/-- LOOP: trip counts 0 and 65,535 and one from a register; a body of 1 and of 4,096; the deepest nest a LOOP may join. -/
theorem witness_loop : ∀ w ∈ [wordOf 12 (2 ^ 53 + 1 * 2 ^ 18), wordOf 12 (2 ^ 53 + 65535 * 2 ^ 31 + 4096 * 2 ^ 18), wordOf 12 (2 ^ 53 + 3 * 2 ^ 31 + 2 * 2 ^ 18)], ∀ n ∈ [0, 3],
    let s := cs 5 w fun T => { T with seq := { T.seq with loops := List.replicate n ⟨0, 9000, 0, 0, 0⟩ } }
    Issues s 0 12 w ∧ wSat w = false ∧ wPs w = 0 ∧ fld w 0 9 = 0 ∧ bitAt w 53 = true ∧ fld w 47 6 = 0 ∧ 1 ≤ fld w 18 13 ∧ fld w 18 13 ≤ 4096 ∧
      (s.dev.tile 0).seq.depth < 4 ∧ NestOk (s.dev.tile 0) ∧ ∀ l ∈ (s.dev.tile 0).seq.loops.head?, 5 + fld w 18 13 ≤ l.last := by
  intro w hw; simp only [List.mem_cons, List.not_mem_nil, or_false] at hw; obtain rfl | rfl | rfl := hw <;> (simp only [Issues, NestOk]; decide)
theorem witness_loop_register :
    let w := wordOf 12 (1 * 2 ^ 47 + 1 * 2 ^ 18)
    Issues (cs 5 w fun T => withG T 0xFFFFFFFF 0) 0 12 w ∧ bitAt w 53 = false ∧ fld w 31 16 = 0 ∧ fld w 0 9 = 0 := by
  simp only [Issues]; decide
/-- Tile 0 at 9 with the zero word, inside the loops l, n iterations left in each. -/
def inLoops (l : List LoopCtx) (n : Nat) : State := cs 9 0 fun T => { T with seq := { T.seq with loops := l, lc := if n = 0 then [] else [(0, BitVec.ofNat 32 n), (1, BitVec.ofNat 32 n)] } }
/-- The zero word: outside loops, at 16,383, at the end of one body and of two, and at the end of a body around a loop that is still active. -/
theorem witness_zero : Issues (cs 5 0 id) 0 0 0 ∧ Issues (cs 16383 0 id) 0 0 0 ∧ (∀ n ∈ [0, 2], Issues (inLoops [⟨6, 9, 1, 2, 0⟩] n) 0 0 0) ∧
    (∀ n ∈ [0, 2], Issues (inLoops [⟨7, 8, 1, 1, 1⟩, ⟨6, 9, 1, 2, 0⟩] n) 0 0 0) ∧
    Issues (cs 9 0 fun T => { T with seq := { T.seq with loops := [⟨8, 9, 1, 2, 1⟩, ⟨6, 9, 1, 2, 0⟩], lc := [(0, 2)] } }) 0 0 0 := by
  simp only [Issues]; decide
/-- R93: the last instruction of the outer body ends its iteration although the inner loop is still active. -/
theorem test_outer_iteration : (tileAfter (.add 0) (inLoops [⟨7, 8, 1, 1, 1⟩, ⟨6, 9, 1, 2, 0⟩] 2)).map (fun T => (T.seq.pc.toNat, T.seq.lc, T.seq.rrbG)) =
    some (6, [(0, 1), (1, 2)], 31) := by decide
theorem witness_halt_fence_trap :
    (Issues (cs 5 (wordOf 13 7) id) 0 13 (wordOf 13 7) ∧ fld (wordOf 13 7) 16 38 = 0) ∧
    Issues (cs 5 (wordOf 13 7) fun T => { T with arr := { T.arr with blocks := [zblock] } }) 0 13 (wordOf 13 7) ∧
    (∀ n ∈ [0, 1], Issues (cs 5 (wordOf 0x3E n) id) 0 0x3E (wordOf 0x3E n) ∧ fld (wordOf 0x3E n) 2 52 = 0) ∧
    Issues (cs 5 (wordOf 0x3E 0) fun T => { T with arr := { T.arr with blocks := [zblock] } }) 0 0x3E (wordOf 0x3E 0) ∧
    (∀ n ∈ [0, 1], Issues (cs 5 (wordOf 0x3E n) fun T => { T with seq := { T.seq with ops := [⟨1, .push, 3, none, false⟩] } }) 0 0x3E (wordOf 0x3E n)) ∧
    Issues (cs 5 (wordOf 0x3F 7) id) 0 0x3F (wordOf 0x3F 7) ∧ fld (wordOf 0x3F 7) 16 38 = 0 := by
  simp only [Issues]; decide
/-- A reserved field of each scalar and control instruction: bit 32 is SUBOP's, and PS is never taken by them. -/
theorem witness_reserved : ∀ op ∈ [0, 1, 2, 3, 4, 5, 6, 7, 8, 9, 10, 11, 12, 13, 0x3E, 0x3F],
    let w := wordOf op (1 * 2 ^ 54)
    Issues (cs 5 w id) 0 op w ∧ wPs w = 1 := by
  simp only [Issues]; decide
theorem witness_reserved_opcode : (tileAt 5 (wordOf 0x14 0)).canIssue = true ∧ reservedOpc (wOpc (tileAt 5 (wordOf 0x14 0)).fetch) = true ∧
    (tileAt 5 0).fetchBad = false ∧ ({ tileAt 5 0 with badWords := [0x3C005] }).fetchBad = true := by decide

/-- A vector word: VD = 1, VA = 2, VB = 3, in a format. -/
def vw (op fmt : Nat) : Word := wordOf op (1 * 2 ^ 49 + 2 * 2 ^ 44 + 3 * 2 ^ 39 + fmt * 2 ^ 30)

/-- Lane 5 of v2 holds x and of v3 holds y. -/
def withV (x y : BitVec 32) (T : Tile) : Tile := { T with seq := (T.seq.setLane 2 5 x).setLane 3 5 y }

def vs (w : Word) (x y : BitVec 32) : State := cs 0 w (withV x y)

/-- Lane 5 of v1 after a command. -/
def v1 (c : Instr) (s : State) : Option (BitVec 32) := (tileAfter c s).map fun T => T.seq.getLane 1 5

/-- R115: INT8 saturates under SAT and wraps without it; the other elements of the lane are theirs. -/
theorem test_vadd_wraps : v1 (.vadd 0) (vs (vw 0x1A 1) 0x0100007F 0x02000001) = some 0x03000080 := by decide +kernel
theorem test_vadd_saturates : v1 (.vadd 0) (vs (vw 0x1A 1 + BitVec.ofNat 64 (2 ^ 57)) 0x0100007F 0x02000001) = some 0x0300007F := by decide +kernel
theorem test_vsub : v1 (.vsub 0) (vs (vw 0x1B 3) 5 7) = some 0xFFFFFFFE := by decide +kernel
/-- FP32: 1.5 times 2.0 is 3.0. -/
theorem test_vmul_fp32 : v1 (.vmul 0) (vs (vw 0x1C 8) 0x3FC00000 0x40000000) = some 0x40400000 := by decide +kernel
/-- FP32: 1.5 times 2.0 plus v0's lane, 0. -/
theorem test_vfma_fp32 : v1 (.vfma 0) (vs (vw 0x1D 8) 0x3FC00000 0x40000000) = some 0x40400000 := by decide +kernel
/-- R115: VMAX of +0 and -0 is +0, VMIN is -0; a NaN yields the other operand. -/
theorem test_vmax_zero : v1 (.vmax 0) (vs (vw 0x1E 8) 0x80000000 0) = some 0 := by decide +kernel
theorem test_vmin_nan : v1 (.vmin 0) (vs (vw 0x1F 8) 0x7FC00000 0x40000000) = some 0x40000000 := by decide +kernel
/-- R116: SELECT under p0 takes VA; NE is true of a NaN. -/
theorem test_vsel_select : v1 (.vsel 0) (vs (vw 0x24 3) 11 22) = some 11 := by decide +kernel
theorem test_vsel_ne_nan :
    (tileAfter (.vsel 0) (vs (vw 0x24 8 + BitVec.ofNat 64 (2 * 2 ^ 20)) 0x7FC00000 0)).map (fun T => (bitAt (T.seq.getP 1) 5, T.seq.flags.nanSeen)) = some (true, true) := by decide +kernel
/-- R117: VLD of INT8 sign-extends; the byte 0x80 at address 5 is lane 5. -/
theorem test_vld_int8 :
    v1 (.vld 0) (cs 0 (wordOf 0x18 (1 * 2 ^ 49 + 1 * 2 ^ 39)) fun T => { T with mem := [(5, 0x80)] }) = some 0xFFFFFF80 := by decide +kernel
theorem test_vst_raw :
    (tileAfter (.vst 0) (cs 0 (wordOf 0x19 (2 * 2 ^ 49 + 3 * 2 ^ 39)) (withV 0x11223344 0))).map (fun T => (T.mem.byte 20, T.mem.byte 23)) = some (0x44, 0x11) := by decide +kernel
/-- A reduction word: VD = 1, VA = 2, VI = vi. -/
def rw_ (op sub fmt vi : Nat) : Word := wordOf op (1 * 2 ^ 49 + 2 * 2 ^ 44 + vi * 2 ^ 39 + fmt * 2 ^ 29 + sub * 2 ^ 26)
theorem test_vred_sum : v1 (.vred 0) (vs (rw_ 0x22 0 3 0) 41 0) = some 41 := by decide +kernel
theorem test_vscan : (tileAfter (.vscan 0) (vs (rw_ 0x25 0 3 0) 41 0)).map (fun T => (T.seq.getLane 1 4, T.seq.getLane 1 63)) = some (0, 41) := by decide +kernel
/-- R120: the best of the elements is 41, at element 5. -/
theorem test_vmaxi : (tileAfter (.vmaxi 0) (vs (rw_ 0x20 0 3 4) 41 0)).map (fun T => (T.seq.getLane 1 9, T.seq.getLane 4 9)) = some (41, 5) := by decide +kernel
/-- R120: with VD = VI a lane whose candidate does not outrank the held pair keeps what it holds. -/
theorem test_vmaxi_same_kept : v1 (.vmaxi 0) (cs 0 (rw_ 0x20 1 3 1) fun T => { T with seq := (T.seq.setLane 2 5 3).setLane 1 5 7 }) = some 7 := by decide +kernel
/-- R112, R108: a store that selects no lane leaves a word's error. -/
theorem test_vst_keeps_error : (tileAfter (.vst 0) (cs 0 (wordOf 0x19 (1 * 2 ^ 54 + 2 * 2 ^ 49 + 3 * 2 ^ 39)) fun T => { T with badWords := [2] })).map (fun T => T.badWords) = some [2] := by decide +kernel
theorem test_vmini : (tileAfter (.vmini 0) (vs (rw_ 0x21 0 3 4) 0xFFFFFFFE 0)).map (fun T => (T.seq.getLane 1 9, T.seq.getLane 4 9)) = some (0xFFFFFFFE, 5) := by decide +kernel
/-- R122: INT32 to INT8, PART 0: element 5 lies in lane 1, bits 15 to 8. -/
theorem test_vcvt : (tileAfter (.vcvt 0) (vs (wordOf 0x23 (1 * 2 ^ 49 + 2 * 2 ^ 44 + 3 * 2 ^ 40 + 1 * 2 ^ 36)) 0x7F 0)).map (fun T => T.seq.getLane 1 1) = some 0x7F00 := by decide +kernel
theorem test_rng_lanes : (tileAfter (.rng 0) (cs 0 (wordOf 0x3C (1 * 2 ^ 49)) id)).map (fun T => T.seq.getLane 1 0 != T.seq.getLane 1 1) = some true := by decide +kernel

theorem witness_elementwise_int : ∀ e ∈ vecOps 0, ∀ f ∈ [1, 2, 3], Issues (vs (vw e.2.1 f) 0 0) 0 e.2.1 (vw e.2.1 f) ∧ ElemForm (vw e.2.1 f) e.2.2.1 ∧ wSat (vw e.2.1 f) = false := by
  simp only [vecOps, List.forall_mem_cons, Issues, ElemForm]; and_intros <;> first | decide +kernel | (intro x hx; cases hx)
theorem witness_elementwise_fp : ∀ e ∈ vecOpsF 0, Issues (vs (vw e.2.1 8) 0 0) 0 e.2.1 (vw e.2.1 8) ∧ ElemForm (vw e.2.1 8) e.2.2.1 ∧ wSat (vw e.2.1 8) = false := by
  simp only [vecOpsF, List.forall_mem_cons, Issues, ElemForm]; and_intros <;> decide +kernel
/-- VSEL: SELECT, the first and last compare, BCAST, a compare into p0, a packed compare, BCAST without a scalar. -/
theorem witness_vsel : ∀ w ∈ [vw 0x24 3, vw 0x24 3 + 1 * 2 ^ 20, vw 0x24 8 + 6 * 2 ^ 20, wordOf 0x24 (1 * 2 ^ 49 + 3 * 2 ^ 30 + 2 ^ 29 + 1 * 2 ^ 23 + 7 * 2 ^ 20),
      vw 0x24 3 + 1 * 2 ^ 20 - 1 * 2 ^ 49, vw 0x24 1 + 1 * 2 ^ 20, vw 0x24 3 + 7 * 2 ^ 20], Issues (vs w 0 0) 0 0x24 w ∧ SelForm w := by
  intro w hw; simp only [List.mem_cons, List.not_mem_nil, or_false] at hw; obtain rfl | rfl | rfl | rfl | rfl | rfl | rfl := hw <;> (simp only [Issues, SelForm]; decide +kernel)
/-- Loads: INT4 at the last place it fits, a raw row of accumulator memory, one element of INT4 broadcast. -/
theorem witness_loads :
    (let w := wordOf 0x18 (1 * 2 ^ 49 + 0xFFFE0)
     Issues (cs 0 w id) 0 0x18 w ∧ wSat w = false ∧ fld w 22 15 = 0 ∧ MoveFits (moveAddr (tileAt 0 w) w) 32 1 false ∧ RowReady (tileAt 0 w) (moveAddr (tileAt 0 w) w)) ∧
    (let w := wordOf 0x18 (1 * 2 ^ 49 + 3 * 2 ^ 39 + 0x13FF00)
     Issues (cs 0 w id) 0 0x18 w ∧ MoveFits (moveAddr (tileAt 0 w) w) 256 4 true ∧ RowReady (tileAt 0 w) (moveAddr (tileAt 0 w) w)) ∧
    (let w := wordOf 0x18 (1 * 2 ^ 49 + 2 ^ 38 + 2 ^ 37 + 0xFFFFF)
     Issues (cs 0 w id) 0 0x18 w ∧ moveAddr (tileAt 0 w) w + 1 ≤ 0x100000 ∧ (tileAt 0 w).badRead (moveAddr (tileAt 0 w) w) 1 = false) := by
  simp only [Issues, MoveFits, RowReady]; decide +kernel
theorem witness_stores :
    (let w := wordOf 0x19 (1 * 2 ^ 49 + 0xFFFE0)
     Issues (cs 0 w id) 0 0x19 w ∧ fld w 22 17 = 0 ∧ MoveFits (moveAddr (tileAt 0 w) w) 32 1 false ∧ RowFree (tileAt 0 w) (moveAddr (tileAt 0 w) w) ∧ Mem.wf (tileAt 0 w).mem = true) ∧
    (let w := wordOf 0x19 (1 * 2 ^ 49 + 8 * 2 ^ 39 + 0x100000)
     Issues (cs 0 w id) 0 0x19 w ∧ MoveFits (moveAddr (tileAt 0 w) w) 256 4 true ∧ RowFree (tileAt 0 w) (moveAddr (tileAt 0 w) w)) := by
  simp only [Issues, MoveFits, RowFree]; decide +kernel
theorem witness_reductions : ∀ w ∈ [rw_ 0x22 0 3 0, rw_ 0x22 1 8 0, rw_ 0x22 2 3 0, rw_ 0x22 5 8 0, rw_ 0x25 0 3 0, rw_ 0x25 1 8 0],
    Issues (vs w 1 0) 0 (wOpc w) w ∧ ReduceForm w ∧ wSat w = false := by
  intro w hw; simp only [List.mem_cons, List.not_mem_nil, or_false] at hw; obtain rfl | rfl | rfl | rfl | rfl | rfl := hw <;> (simp only [Issues, ReduceForm]; decide +kernel)
/-- VMAXI and VMINI: ACROSS on INT8 and FP32, ALONG, and VD = VI. -/
theorem witness_search : ∀ w ∈ [rw_ 0x20 0 1 4, rw_ 0x21 0 8 4, rw_ 0x20 1 3 4, rw_ 0x21 1 8 4, rw_ 0x20 0 3 1],
    Issues (vs w 1 0) 0 (wOpc w) w ∧ wSat w = false ∧ fld w 0 26 = 0 ∧ vecWidth (wRfmt w) ≠ 0 := by
  intro w hw; simp only [List.mem_cons, List.not_mem_nil, or_false] at hw; obtain rfl | rfl | rfl | rfl | rfl := hw <;> (simp only [Issues]; decide +kernel)
/-- VCVT: FP32 to INT4 in the last part, INT8 to INT32, FP32 to both MX formats; RNG. -/
def cvt (fr tf part : Nat) : Word := wordOf 0x23 (1 * 2 ^ 49 + 2 * 2 ^ 44 + fr * 2 ^ 40 + tf * 2 ^ 36 + part * 2 ^ 33)
theorem witness_convert : ∀ w ∈ [cvt 8 0 7, cvt 1 3 0, cvt 8 9 3, cvt 8 10 7, wordOf 0x3C (1 * 2 ^ 49)],
    Issues (vs w 1 0) 0 (wOpc w) w ∧ wSat w = false ∧ wPs w = 0 ∧ fld w 0 33 = 0 := by
  intro w hw; simp only [List.mem_cons, List.not_mem_nil, or_false] at hw; obtain rfl | rfl | rfl | rfl | rfl := hw <;> (simp only [Issues]; decide +kernel)

/-- Tile 0 with the word w at PC 0 and its arrays changed. -/
def as_ (w : Word) (f : Arrays → Arrays) : State := cs 0 w fun T => { T with arr := f T.arr }

/-- A set of INT8 by INT8 in mode G8 whose image is empty. -/
def set88 : StatSet := ⟨0, 1, 1, []⟩
/-- A block of one row and one column, INT8 by INT8, with one K position: a[0] = 3. -/
def pblock : Block :=
  { zblock with zero := true, bfirst := false, blast := false, fa := 1, fb := 1, kv := 1, nv := 1, a := [[3]], set := some ⟨0, 1, 1, [5]⟩, mzero := false }

/-- R96: MLD of an INT8 pair, mode G8, from g0 + 0. -/
def mldW : Word := wordOf 0x10 (1 * 2 ^ 48 + 1 * 2 ^ 44)
theorem test_mld : (tileAfter (.mld 0) (as_ mldW id)).map (fun T => T.arr.loading.isSome) = some true := by decide +kernel
theorem test_mld_waits : (tileAfter (.mld 0) (as_ mldW fun A => { A with loading := some set88 })).map (fun T => T.seq.pc) = some 0 := by decide +kernel
theorem test_set_complete : (tileAfter (.mldSetComplete 0) (as_ 0 fun A => { A with loading := some set88 })).map (fun T => (T.arr.shadow, T.arr.loading)) = some (some set88, none) := by decide
theorem test_swap :
    (tileAfter (.newwSwap 0) (as_ 0 fun A => { A with shadow := some set88, blocks := [{ pblock with newwHead := true, set := none }] })).map
      (fun T => (T.arr.active, T.arr.blocks.map (·.set))) = some (some set88, [some set88]) := by decide
/-- R97: an MMA of one row, one K position and one column: VALUES M = 1, KV = 1, NV = 1, ZERO. -/
def mmaW : Word := wordOf 0x11 (1 * 2 ^ 48 + 1 * 2 ^ 44 + 2 ^ 42 + 1 * 2 ^ 18 + 1 * 2 ^ 11 + 1 * 2 ^ 5)
theorem test_mma : (tileAfter (.mma 0) (as_ mmaW fun A => { A with active := some set88 })).map (fun T => (T.arr.blocks.length, T.arr.phase)) = some (1, .rampUp) := by decide +kernel
theorem test_mzero : (tileAfter (.mzero 0) (as_ (wordOf 0x12 (5 * 2 ^ 33)) id)).map (fun T => T.arr.blocks.map (·.rows)) = some [4, 1] := by decide +kernel
/-- R36: the cell becomes 3 times 5. -/
theorem test_block_write : (tileAfter (.mmaBlockWrite 0) (as_ 0 fun A => { A with blocks := [pblock], enabled := 8 })).map (fun T => (T.acc 0 0, T.arr.blocks)) = some (15, []) := by decide +kernel
theorem test_ballast : (tileAfter (.ballast 0) (as_ (wordOf 0x3D 4096) id)).map (fun T => (T.arr.ballast, T.arr.phase)) = some (4096, .rampUp) := by decide +kernel
theorem test_ballast_end : (tileAfter (.ballastEnd 0) (as_ 0 fun A => { A with ballast := 7 })).map (fun T => T.arr.ballast) = some 0 := by decide
theorem test_ramp_last : (tileAfter (.arrayRampStep 0) (as_ 0 fun A => { A with phase := .rampUp, enabled := 7, ballast := 1 })).map (fun T => (T.arr.enabled, T.arr.phase)) = some (8, .ballast) := by decide
theorem test_gap : (tileAfter (.arrayGapExpiry 0) (as_ 0 fun A => { A with phase := .run, enabled := 8 })).map (fun T => T.arr.phase) = some .rampDown := by decide
theorem test_lead :
    (tileAfter (.rampLead 0) (cs 0 0 fun T => { T with seq := { T.seq with wait := some .stream } })).map (fun T => T.arr.phase) = some .rampUp := by decide

/-- R63: while a flagged block waits for its set to load, no further matrix instruction issues. -/
theorem test_mma_held : (tileAfter (.mma 0) (as_ mmaW fun A => { A with active := some set88, loading := some set88, blocks := [{ pblock with newwHead := true }] })).map
    (fun T => (T.seq.pc, T.arr.blocks.length)) = some (0, 1) := by decide +kernel
/-- R69: with W = 0 the end of a BALLAST begins the ramp-down. -/
theorem test_ballast_end_window : (tileAfter (.ballastEnd 0) (as_ 0 fun A => { A with ballast := 7, phase := .ballast, enabled := 8 })).map (fun T => T.arr.phase) =
    some (if dev0.pwr.window = 0 then .rampDown else .ballast) := by decide

theorem witness_mld :
    Issues (as_ mldW id) 0 0x10 mldW ∧ wSat mldW = false ∧ wPs mldW = 0 ∧ fld mldW 0 38 = 0 ∧ (pairClass 1 1).isSome = true ∧
    Issues (as_ mldW fun A => { A with loading := some set88 }) 0 0x10 mldW ∧
    Issues (as_ mldW fun A => { A with blocks := [{ pblock with newwHead := true }] }) 0 0x10 mldW ∧
    ((tileAt 0 mldW).badRead 0 0 = false) := by
  simp only [Issues]; decide +kernel
theorem witness_mma :
    Issues (as_ mmaW fun A => { A with active := some set88 }) 0 0x11 mmaW ∧ wPs mmaW = 0 ∧ fld mmaW 0 5 = 0 ∧ fld mmaW 18 9 = 1 ∧ fld mmaW 11 7 = 1 ∧ fld mmaW 5 6 = 1 ∧
    fld mmaW 5 6 ≤ colsOf 0 ∧ colsOf 0 ≤ 64 ∧ (∀ c, pairClass 1 1 = some c → 1 ≤ kcOf 0 c) ∧ (as_ mmaW fun A => { A with active := some set88 }).dev.tiles ≠ [] ∧
    ((tileAt 0 mmaW).arr.prospect = (none, none)) ∧ ({ (tileAt 0 mmaW).arr with active := some set88 } : Arrays).prospect.1 = some set88 := by
  simp only [Issues]
  refine ⟨by decide +kernel, by decide, by decide, by decide, by decide, by decide, by decide, by decide, ?_, by decide, by decide, by decide⟩
  intro c h; cases h; decide
/-- MMA with no row, and one that a BALLAST holds; MZERO of 1 and of all 1,024 rows. -/
theorem witness_mma_others :
    (let w := wordOf 0x11 (1 * 2 ^ 48 + 1 * 2 ^ 44 + 1 * 2 ^ 11 + 1 * 2 ^ 5)
     Issues (as_ w fun A => { A with active := some set88 }) 0 0x11 w ∧ fld w 18 9 = 0) ∧
    Issues (as_ mmaW fun A => { A with active := some set88, ballast := 1 }) 0 0x11 mmaW ∧
    Issues (as_ mmaW fun A => { A with active := some set88, loading := some set88, blocks := [{ pblock with newwHead := true }] }) 0 0x11 mmaW ∧
    (let w := wordOf 0x12 (1 * 2 ^ 33)
     Issues (as_ w id) 0 0x12 w ∧ fld w 33 11 = 1 ∧ fld w 44 10 = 0 ∧ fld w 0 33 = 0) ∧
    (let w := wordOf 0x12 (1023 * 2 ^ 44 + 1 * 2 ^ 33)
     Issues (as_ w fun A => { A with ballast := 3 }) 0 0x12 w ∧ fld w 44 10 + fld w 33 11 ≤ 1024) := by
  simp only [Issues]; decide +kernel
theorem witness_blocks : BlockFits { zblock with row := 1023 } ∧ zblock.newwHead = false ∧ zblock.nv = 64 ∧ BlockFits { pblock with row := 1023, col := 63 } ∧
    pblock.newwHead = false ∧ 1 ≤ pblock.rows ∧ 1 ≤ pblock.kv ∧ 1 ≤ pblock.nv ∧ pblock.set.isSome = true ∧ pblock.split = false ∧ Mem.wf [] = true := by
  simp only [BlockFits]; decide
theorem witness_ballast : ∀ n ∈ [1, 4096], Issues (as_ (wordOf 0x3D n) id) 0 0x3D (wordOf 0x3D n) ∧ wSat (wordOf 0x3D n) = false ∧ fld (wordOf 0x3D n) 13 41 = 0 ∧ fld (wordOf 0x3D n) 0 13 = n := by
  simp only [Issues]; decide +kernel

/-- A selector of one row of up to two INT32 entries that holds the score 5 with index 9. -/
def sel1 : Selector := { Selector.reset with valid := true, fmt := 3, k := 2, rows := [[⟨5, 9⟩]] }

theorem sel1_ok : SelOk sel1 := by
  intro row h
  have h : row = [⟨5, 9⟩] := by simpa [sel1] using h
  subst h
  refine ⟨by decide, by simp, ?_⟩
  intro e he
  have he : e = ⟨5, 9⟩ := by simpa using he
  subst he
  decide

/-- Tile 0 with the selector q, a predicate p1 = 0x20 and a memory m. -/
def ss (w : Word) (q : Selector) (m : Mem) : State :=
  cs 0 w fun T => { (withV 7 0 T) with sel := q, mem := m, seq := { (withV 7 0 T).seq with p := [(1, 0x20)] } }

/-- R126: SFEED of lane 5 of v2, 7, under p1, with indices counted up from g0: index 5. -/
def sfeedW : Word := wordOf 0x31 (1 * 2 ^ 54 + 2 * 2 ^ 49)
theorem test_sfeed : (tileAfter (.sfeed 0) (ss sfeedW sel1 [])).map (fun T => T.sel.rows) = some [[⟨7, 5⟩, ⟨5, 9⟩]] := by decide +kernel
/-- R126: SINIT of two rows of four INT32 entries. -/
def sinitW : Word := wordOf 0x30 (1 * 2 ^ 44 + 4 * 2 ^ 33 + 3 * 2 ^ 28)
theorem test_sinit : (tileAfter (.sinit 0) (ss sinitW sel1 [])).map (fun T => (T.sel.rows, T.sel.k)) = some ([[], []], 4) := by decide +kernel
theorem test_sread :
    (tileAfter (.sread 0) (ss (wordOf 0x32 0) sel1 [])).map (fun T => (T.mem.num 0 4, T.mem.num 4 4, T.mem.num 8 4, T.mem.num 12 4)) = some (5, 0x80000000, 9, 0xFFFFFFFF) := by decide +kernel
theorem test_smerge : (tileAfter (.smerge 0) (ss (wordOf 0x33 0) sel1 [(0, 8), (8, 1), (12, 2)])).map (fun T => T.sel.rows) = some [[⟨8, 1⟩, ⟨5, 9⟩]] := by decide +kernel
/-- R99: MDRAIN of accumulator row 0, INT32; its cell 3 holds 6, the others 0. -/
def mdrainW : Word := wordOf 0x13 (1 * 2 ^ 33 + 3 * 2 ^ 28)
theorem test_mdrain :
    (tileAfter (.mdrain 0) (ss mdrainW { sel1 with rows := [[]] } [(0x10000C, 6)])).map (fun T => T.sel.rows) = some [[⟨6, 3⟩, ⟨0, 0⟩]] := by decide +kernel

/-- A double-bit error in the first word of the live state. -/
def inError (s : State) : State := { s with dev := s.dev.setTile 0 { s.dev.tile 0 with badWords := [0x30000] } }
theorem test_sfeed_error : (tileAfter (.sfeed 0) (inError (ss sfeedW sel1 []))).map (fun T => T.seq.fault.cause) = some .sramUncorrectable := by decide +kernel
theorem witness_errors : ¬rowClean ((inError (ss sfeedW sel1 [])).dev.tile 0) 0 ∧ rowClean ((ss sfeedW sel1 []).dev.tile 0) 0 ∧
    Issues (inError (ss sfeedW sel1 [])) 0 0x31 sfeedW ∧ ¬liveClean ((inError (ss (wordOf 0x32 0) sel1 [])).dev.tile 0) ∧
    liveClean ((ss (wordOf 0x32 0) sel1 []).dev.tile 0) ∧
    (∀ op ∈ [0x32, 0x33], Issues (inError (ss (wordOf op 0) sel1 [])) 0 op (wordOf op 0)) := by
  simp only [Issues, rowClean, liveClean]; decide +kernel
theorem witness_sfeed : Issues (ss sfeedW sel1 []) 0 0x31 sfeedW ∧ wSat sfeedW = false ∧ fld sfeedW 0 33 = 0 ∧ bitAt sfeedW 38 = false ∧ fld sfeedW 33 5 = 0 ∧
    sel1.valid = true ∧ fld sfeedW 45 4 < 2 ^ sel1.logr.toNat ∧ SelOk sel1 ∧ fld sfeedW 45 4 < sel1.rows.length := by
  refine ⟨?_, by decide, by decide, by decide, by decide, by decide, by decide, sel1_ok, by decide⟩
  simp only [Issues]; decide +kernel
theorem witness_sinit : ∀ w ∈ [sinitW, wordOf 0x30 (2 ^ 53 + 4 * 2 ^ 44 + 64 * 2 ^ 33 + 8 * 2 ^ 28), wordOf 0x30 (1024 * 2 ^ 33 + 3 * 2 ^ 28)],
    Issues (ss w sel1 []) 0 0x30 w ∧ wSat w = false ∧ wPs w = 0 ∧ fld w 0 28 = 0 ∧ fld w 44 3 ≤ 4 ∧ 1 ≤ fld w 33 11 ∧ 2 ^ fld w 44 3 * fld w 33 11 ≤ 1024 := by
  intro w hw; simp only [List.mem_cons, List.not_mem_nil, or_false] at hw; obtain rfl | rfl | rfl := hw <;> (simp only [Issues]; decide +kernel)
theorem witness_sread_smerge : Issues (ss (wordOf 0x32 0) sel1 []) 0 0x32 (wordOf 0x32 0) ∧ Issues (ss (wordOf 0x33 0) sel1 []) 0 0x33 (wordOf 0x33 0) ∧
    SelOk sel1 ∧ sel1.rows.length = 2 ^ sel1.logr.toNat ∧ Mem.wf [] = true ∧ ImageAt ((ss 0 sel1 []).dev.tile 0) 0 0 (8 * 1 * 2) := by
  refine ⟨?_, ?_, sel1_ok, by decide, by decide, ?_⟩
  · simp only [Issues]; decide +kernel
  · simp only [Issues]; decide +kernel
  · simp only [ImageAt]; decide +kernel
theorem witness_mdrain : Issues (ss mdrainW sel1 []) 0 0x13 mdrainW ∧ fld mdrainW 0 22 = 0 ∧ fld mdrainW 28 4 = sel1.fmt.toNat ∧ 1 ≤ fld mdrainW 33 11 ∧ SelOk sel1 ∧
    sel1.rows.length = 2 ^ sel1.logr.toNat ∧ (∀ j, j < 64 → BitVec.ofNat 32 j ≠ 0xFFFFFFFF) ∧ ((ss mdrainW sel1 []).dev.tile 0).arr.rowBusy 0 = false ∧
    ({ Arrays.reset with blocks := [zblock] } : Arrays).rowBusy 0 = true ∧ ({ Arrays.reset with blocks := [{ pblock with zero := false, bias := true, biasRow := 5 }] } : Arrays).rowHeld 5 = true := by
  refine ⟨?_, by decide, by decide, by decide, sel1_ok, by decide, by decide, by decide, by decide, by decide⟩
  simp only [Issues]; decide +kernel
theorem witness_keep : Sparse.wf Tile.reset (ss sfeedW sel1 []).dev.tiles = true ∧ NestOk (tileAt 0 0) ∧ SelOk sel1 ∧ (after (.sfeed 0) (ss sfeedW sel1 [])).isSome = true := by
  refine ⟨by decide +kernel, ?_, sel1_ok, by decide +kernel⟩
  simp [NestOk, tileAt, Tile.reset, Seq.reset]

/-- Queues 3 and 66 belong to the item's RUN; frond 2 is fused off; g1 is a valid handle. -/
def hs (w : Word) (f : Tile → Tile) : State :=
  st { devWith (f (withG (tileAt 0 w) 0x8000000000100005 0)) with
    hqs := [(3, ⟨[], [], some (1, 7)⟩), (66, ⟨[], [], some (1, 7)⟩)], fuses := { Fuses.reset with frondEn := 0xFFFFFB :: List.replicate 7 0xFFFFFF } }

/-- QIMM = 1, Q = q. -/
def qw (op lo q : Nat) : Word := wordOf op (lo + 2 ^ 47 + q)

/-- WAITH of one entry, SIGNAL of g2, HPUSH of g1, HPOP to g3 without blocking, HPEEK to g3. -/
def waithW (q : Nat) : Word := qw 0x0E (1 * 2 ^ 32) q
def signalW (q : Nat) : Word := qw 0x0F (2 * 2 ^ 48) q
def hpushW (q : Nat) : Word := qw 0x34 (1 * 2 ^ 48) q
def hpopW (q : Nat) : Word := qw 0x35 (3 * 2 ^ 48 + 2 ^ 32) q
def hpeekW (q : Nat) : Word := qw 0x36 (3 * 2 ^ 48) q

/-- The operation handed to frond 0, and what the tile waits for. -/
def handed (c : Instr) (s : State) : Option (List (QOp × Nat × Word) × Option WaitOn) :=
  (after c s).map fun d => ((d.frond 0).ops.map fun r => (r.op, r.count, r.entry), (d.tile 0).seq.wait)

theorem test_waith : handed (.waith 0) (hs (waithW 3) id) = some ([(.waith, 1, 0)], some (.handle none)) := by decide +kernel
/-- R149: SIGNAL pushes an entry of kind 1 with the register's low 32 bits. -/
theorem test_signal : handed (.signal 0) (hs (signalW 3) id) = some ([(.push, 0, 0x4000000000000000)], none) := by decide +kernel
theorem test_hpush : handed (.hpush 0) (hs (hpushW 3) id) = some ([(.push, 0, 0x8000000000100005)], none) := by decide +kernel
theorem test_hpop : handed (.hpop 0) (hs (hpopW 3) id) = some ([(.popNb, 0, 0)], none) := by decide +kernel
theorem test_hpeek_remote :
    (after (.hpeek 0) (hs (hpeekW 66) id)).map (fun d => ((Sparse.get [] (d.router (frondRouter 0)).outbox 0).map (fun e => e.2.type), (d.frond 0).ops)) = some ([6], []) := by decide +kernel
theorem test_handle_not_owned : (tileAfter (.hpop 0) (hs (hpopW 4) id)).map (fun T => T.seq.fault.cause) = some .address := by decide +kernel

/-- Handle queue 3 with entries and parked operations, and tile 0 held in a pop to g3 that its frond has received. -/
def qs (r : HopReq) (l : List QEntry) (n : Nat) : State :=
  st { devWith (askingHeld (tileAt 0 0) (some 3)) with hqs := [(3, ⟨l, List.replicate n r, some (1, 7)⟩)], fronds := [(0, { Frond.reset with ops := [r] })] }
def popReq : HopReq := ⟨.pop, 3, 0, 0, 0, 0, false, .tile 0⟩

theorem test_queue_pop : (tileAfter (.queueOperation 0) (qs popReq [⟨9, none⟩, ⟨8, none⟩] 0)).map (fun T => (T.seq.getG 3, T.seq.st)) = some (9, .run) := by decide +kernel
/-- R154: the operation that finds 32 parked is refused and counted in HQ_RETRY. -/
theorem test_queue_refuses :
    (after (.queueOperation 0) (qs popReq [] 32)).map (fun d => ((d.frond 0).retries, (d.hq 3).parked.length, (d.counter 0x24 0).value)) = some ([popReq], 32, 1) := by decide +kernel

theorem witness_handle : ∀ q ∈ [3, 66, 4, 128, 12288],
    let e := fun (w : Word) => (hs w id).dev.tile 0
    HandleForm (e (waithW q)) 0 (waithW q) (.waith 0) 0x0E (askedOp (e (waithW q)) 0 (waithW q) .waith 1 0) none ∧ Issues (hs (waithW q) id) 0 0x0E (waithW q) ∧
    HandleForm (e (signalW q)) 0 (signalW q) (.signal 0) 0x0F (askedOp (e (signalW q)) 0 (signalW q) .push 0 (2 ^ 62)) none ∧
    Issues (hs (signalW q) id) 0 0x0F (signalW q) ∧
    HandleForm (e (hpushW q)) 0 (hpushW q) (.hpush 0) 0x34 (askedOp (e (hpushW q)) 0 (hpushW q) .push 0 0x8000000000100005) none ∧
    Issues (hs (hpushW q) id) 0 0x34 (hpushW q) ∧
    HandleForm (e (hpopW q)) 0 (hpopW q) (.hpop 0) 0x35 (askedOp (e (hpopW q)) 0 (hpopW q) .popNb 0 0) (some 3) ∧ Issues (hs (hpopW q) id) 0 0x35 (hpopW q) ∧
    HandleForm (e (hpeekW q)) 0 (hpeekW q) (.hpeek 0) 0x36 (askedOp (e (hpeekW q)) 0 (hpeekW q) .peek 0 0) (some 3) ∧ Issues (hs (hpeekW q) id) 0 0x36 (hpeekW q) ∧
    askedQueue (e (hpopW q)) (hpopW q) = q ∧ (∀ w ∈ [waithW q, signalW q, hpushW q, hpopW q, hpeekW q], wSat w = false ∧ wPs w = 0 ∧ fld w 14 18 = 0 ∧ fld w 41 6 = 0) := by
  intro q hq
  simp only [List.mem_cons, List.not_mem_nil, or_false] at hq
  obtain rfl | rfl | rfl | rfl | rfl := hq <;>
    (simp only [Issues]
     refine ⟨.waith (by decide) (by decide) (by decide), by decide +kernel, .signal (by decide), by decide +kernel,
       .hpush (by decide) (by decide), by decide +kernel, .hpop (by decide), by decide +kernel, .hpeek (by decide), by decide +kernel, by decide, ?_⟩
     intro w hw
     simp only [List.mem_cons, List.not_mem_nil, or_false] at hw
     obtain rfl | rfl | rfl | rfl | rfl := hw <;> decide)
theorem witness_handle_owner : QueueOf (hs 0 id) 0 3 ∧ QueueOf (hs 0 id) 0 66 ∧ ((hs 0 id).dev.hq 4).owner = none ∧ (hs 0 id).dev.frondOn 2 = false ∧
    (hs 0 id).dev.frondOn 1 = true ∧ (∀ w ∈ [(wordOf 0x35 (3 * 2 ^ 48 + 2 * 2 ^ 41) : Word)], bitAt w 47 = false ∧ fld w 0 14 = 0) := by
  refine ⟨⟨by decide, by decide, item, by decide, by decide⟩, ⟨by decide, by decide, item, by decide, by decide⟩, by decide, by decide, by decide, ?_⟩
  intro w hw; simp only [List.mem_cons, List.not_mem_nil, or_false] at hw; subst hw; decide

/-- R106: a push passes at issue where nothing earlier of the tile is to be written, and waits behind a block; an operation on another frond's queue waits
for an earlier one on it; a push at a full queue. -/
theorem witness_may_go :
    let push : HopReq := askedOp (tileAt 0 0) 0 (hpushW 3) .push 0 0
    MayGo (tileAt 0 0) 0 push ∧ ¬MayGo { tileAt 0 0 with arr := { Arrays.reset with blocks := [zblock] } } 0 push ∧
    ¬MayGo { tileAt 0 0 with seq := { (tileAt 0 0).seq with ops := [⟨0, .popNb, 66, none, false⟩] } } 0 (askedOp (tileAt 0 0) 0 (hpopW 66) .popNb 0 0) ∧
    (∀ n ∈ [255, 256], let s := hs (hpushW 3) id
      let u : State := st (s.dev.setHq 3 ⟨List.replicate n ⟨9, none⟩, [], some (1, 7)⟩)
      QueueOf u 0 3 ∧ Issues u 0 0x34 (hpushW 3) ∧ (u.dev.hq 3).entries.length = n ∧ Sparse.wf Tile.reset u.dev.tiles = true) := by
  refine ⟨?_, ?_, ?_, ?_⟩
  · simp [MayGo, askedOp, tileAt, Tile.reset, Arrays.reset, Seq.reset, Stream.reset, Stream.signals]
  · intro h; exact absurd (h.1 (by decide)).1 (by decide)
  · intro h; exact h.2 (by decide) _ (List.mem_singleton.mpr rfl) (by decide)
  · intro n hn
    simp only [List.mem_cons, List.not_mem_nil, or_false] at hn
    obtain rfl | rfl := hn <;> (refine ⟨⟨by decide, by decide, item, by decide, by decide +kernel⟩, ?_, by decide +kernel, by decide +kernel⟩; simp only [Issues]; decide +kernel)
/-- R106: the push of a tile with a block still to be written stays at issue. -/
theorem test_push_waits : (after (.hpush 0) (hs (hpushW 3) fun T => { T with arr := { T.arr with blocks := [zblock] } })).map
    (fun d => ((d.frond 0).ops, (d.tile 0).seq.pc)) = some ([], 0) := by decide +kernel

/-- Every way a queue operation completes at once, and one that does not. -/
theorem witness_serves :
    Serves ⟨[], [], none⟩ false { popReq with op := .push, entry := 7 } ⟨[⟨7, none⟩], [], none⟩ 0 0 ∧
    Serves ⟨[], [], none⟩ true { popReq with op := .push, specv := true } ⟨[], [], none⟩ 0 0 ∧
    Serves ⟨[⟨9, none⟩], [], none⟩ false popReq ⟨[], [], none⟩ 9 0 ∧
    Serves ⟨[⟨9, some (1, 0xFFFF)⟩], [], none⟩ false { popReq with op := .peek, specv := true, seq := 1, epoch := 0 } ⟨[⟨9, some (1, 0xFFFF)⟩], [], none⟩ 9 0 ∧
    Serves ⟨[⟨9, some (1, 1)⟩], [], none⟩ false { popReq with op := .popNb, specv := true, seq := 1, epoch := 0 } ⟨[⟨9, some (1, 1)⟩], [], none⟩ 0 1 ∧
    Serves ⟨[⟨9, none⟩, ⟨8, none⟩], [], none⟩ false { popReq with op := .waith, count := 1 } ⟨[⟨9, none⟩, ⟨8, none⟩], [], none⟩ 0 0 ∧
    (∀ Q' e res, ¬Serves ⟨[], [], some (1, 7)⟩ false popReq Q' e res) := by
  refine ⟨.push rfl rfl (by decide), .discarded rfl rfl, .pop ⟨9, none⟩ [] (.inl rfl) rfl ?_, .peek ⟨9, some (1, 0xFFFF)⟩ [] rfl rfl ?_, .empty (.inl rfl) ?_, .waith [⟨9, none⟩] [⟨8, none⟩] rfl rfl rfl ?_, ?_⟩
  · intro g h; simp at h
  · intro g h; simp at h; subst h; decide
  · intro e he h; simp at he; subst he; exact absurd (h _ rfl).2.2 (by decide)
  · intro e he g h; simp at he; subst he; simp at h
  · intro Q' e res h; cases h <;> simp_all [popReq]
theorem taken_alone (s : State) (r : HopReq) (h : (s.dev.frond 0).ops = [r]) (hn : s.dev.netHop 0 = none) : Taken s.dev 0 r :=
  ⟨r, [], ⟨[], [], by rw [h]; rfl, rfl, by simp, by simp⟩, .inl ⟨rfl, by simp [hn]⟩⟩
theorem witness_queue_service : ∀ n ∈ [0, 31, 32],
    let s := qs popReq [] n
    Taken s.dev 0 popReq ∧ popReq.src = .tile 0 ∧ (s.dev.tile 0).seq.wait = some (.handle (some 3)) ∧ (s.dev.hq 3).owner.isSome = true ∧
      (s.dev.hq 3).parked.length = n ∧ s.dev.pushDiscarded (s.dev.hq 3) popReq = false ∧ Sparse.wf HQueue.reset s.dev.hqs = true := by
  intro n hn
  simp only [List.mem_cons, List.not_mem_nil, or_false] at hn
  obtain rfl | rfl | rfl := hn <;>
    exact ⟨taken_alone _ _ (by decide) (by decide +kernel), by decide, by decide, by decide, by decide, by decide, by decide +kernel⟩
/-- An operation beside the sequencer that is answered; a pop without blocking that meets a push at the empty queue goes behind it (R153). -/
theorem witness_meets : Oldest { tileAt 0 0 with seq := { (tileAt 0 0).seq with ops := [⟨0, .popNb, 3, some 3, false⟩] } } { popReq with op := .popNb } [] ⟨0, .popNb, 3, some 3, false⟩ [] ∧
    (let push : HopReq := { popReq with op := .push, src := .tile 1 }
     let s := qs { popReq with op := .popNb } [] 0
     Taken ({ s with dev := s.dev.setFrond 0 { Frond.reset with ops := [{ popReq with op := .popNb }, push] } } : State).dev 0 push) := by
  refine ⟨⟨rfl, rfl, rfl, by simp⟩, { popReq with op := .popNb }, [{ popReq with op := .push, src := .tile 1 }], ⟨[], [_], by decide +kernel, rfl, by simp, by decide⟩, .inr ⟨[], [], rfl, ⟨rfl, .inr ⟨.inr rfl, .inl ⟨by decide +kernel, rfl⟩⟩⟩, ?_⟩⟩
  have h : (({ (qs { popReq with op := .popNb } [] 0) with dev := (qs { popReq with op := .popNb } [] 0).dev.setFrond 0 { Frond.reset with ops := [{ popReq with op := .popNb }, { popReq with op := .push, src := .tile 1 }] } } : State).dev).netHop 0 = none := by decide +kernel
  simp [h]
/-- An operation of a tile is taken before an earlier one of a remote port. -/
theorem witness_queue_first : FirstOf [{ popReq with src := .net 0 }, popReq] popReq [{ popReq with src := .net 0 }] :=
  ⟨[{ popReq with src := .net 0 }], [], rfl, rfl, by decide, by decide⟩

/-- A HOP of frond 1 lies at frond 0. -/
def rq (r : HopReq) (f : BitVec 1024 → BitVec 1024) (n : Nat) : State :=
  let p := mkHop false ⟨frondRouter 1, 0⟩ 9 r
  st { devWith Tile.reset with hqs := [(3, ⟨[⟨6, none⟩], List.replicate n popReq, some (1, 7)⟩)], routers := [(0, { Router.reset with inbox := [(0, [{ p with pay := p.pay.map f }])] })] }
def answersTo (s : State) : Option (List (Nat × Nat × Word)) :=
  (after (.queueOperation 0) s).map fun d => (Sparse.get [] (d.router 0).outbox 0).map fun e => (e.2.status, e.2.result, e.2.word0)

theorem test_remote_peek : answersTo (rq { popReq with op := .peek } id 0) = some [(0, 0, 6)] := by decide +kernel
theorem test_remote_reserved : answersTo (rq popReq (fun _ => 5) 0) = some [(0x11, 0, 0)] := by decide +kernel
theorem test_remote_refused : answersTo (rq { popReq with op := .waith, count := 2 } id 32) = some [(0, 2, 0)] := by decide +kernel

/-- The clauses of RemoteQueueService: a reserved operation; a push of an invalid entry; one that completes; one that finds 31 and 32 parked. -/
theorem witness_remote : ∀ e ∈ [(popReq, fun (_ : BitVec 1024) => (5 : BitVec 1024), 0), ({ popReq with op := .push, entry := 1 }, id, 0), ({ popReq with op := .peek }, id, 0),
      ({ popReq with op := .waith, count := 2 }, id, 31), ({ popReq with op := .waith, count := 2 }, id, 32)],
    ∃ p, FirstAt (rq e.1 e.2.1 e.2.2).dev (frondRouter 0) 0 (fun x => x.type == 6) p [] ∧ ((rq e.1 e.2.1 e.2.2).dev.frond 0).ops = [] := by
  intro e he
  simp only [List.mem_cons, List.not_mem_nil, or_false] at he
  obtain rfl | rfl | rfl | rfl | rfl := he <;>
    exact ⟨_, ⟨[], [], rfl, rfl, by decide +kernel, by simp⟩, by decide +kernel⟩
theorem witness_remote_forms : validEntry 1 = false ∧ validEntry (2 ^ 62) = true ∧
    ({ (mkHop false ⟨frondRouter 1, 0⟩ 9 popReq) with pay := [5] } : Packet).hop = none ∧
    ((mkHop false ⟨frondRouter 1, 0⟩ 9 { popReq with op := .waith, count := 2 }).hop.map fun r => (r.op, r.count, r.queue)) = some (.waith, 2, 3) := by decide +kernel

/-- A descriptor that gathers two 4-byte elements, 8 apart from window offset 64, to offset 256 of its own tile; LAST. -/
def descWords : List Word := [2 ^ 44 + 64, 2 ^ 44 + 256, 2 + 2 ^ 32 + 2 ^ 48, 8, 2 ^ 56 + 2 * 2 ^ 32, 0, 0, 0]

/-- Tile 0 holds its list, block 2 under way with one read and one write to come, and the memory m. -/
def streaming (b : StrmBlock) (m : Mem) : Tile :=
  { tileAt 0 0 with mem := m, seq := { (tileAt 0 0).seq with st := .wait, wait := some .stream }, strm := { Stream.reset with count := 3, blocks := [b], closed := true } }
def blk2 : StrmBlock := ⟨2, descWords, 0, 1, 1, false, false, false⟩

/-- Packets p lie at router 0, port 0; frond 0 is F. -/
def fa (T : Tile) (F : Frond) (p : List Packet) : State :=
  st { devWith T with fronds := [(0, F)], routers := [(0, { Router.reset with inbox := [(0, p)] })] }
/-- The header of a request of frond 0 with TXID 9 and SUB 32. -/
def req9 : Word := mkHdr 1 false 1 ⟨0, 0⟩ ⟨0, 0⟩ (9 * 2 ^ 19 + 32)
def readFor : TxUse := .streamRead 0 2 0 64 [⟨3, 0x40, 2, false⟩]
def rd (st : Nat) : Packet := mkRdResp req9 ⟨mcRouter 0, 0⟩ st [0, 0, 0, 0xAA, 0xBB]

theorem test_read_response :
    (tileAfter (.readResponse 0 0) (fa (streaming blk2 []) { Frond.reset with outst := [(9, readFor)] } [rd 0])).map
      (fun T => (T.mem.byte 0x40, T.mem.byte 0x41, T.mem.byte 0x42, T.strm.blocks.map (·.reads))) = some (0xAA, 0xBB, 0, [0]) := by decide +kernel
/-- R140: a read that fails ends the list once its requests have landed. -/
theorem test_read_poison :
    (tileAfter (.readResponse 0 0) (fa (streaming { blk2 with writes := 0 } []) { Frond.reset with outst := [(9, readFor)] } [rd 0x22])).map
      (fun T => (T.seq.fault.cause, T.seq.fault.status)) = some (.dataPoison, 0x22) := by decide +kernel
theorem test_write_ack :
    (tileAfter (.writeAck 0 0) (fa (streaming blk2 []) Frond.reset [mkWrAck req9 ⟨mcRouter 0, 0⟩ 0])).map (fun T => T.strm.blocks.map (·.writes)) = some [0] := by decide +kernel
def hopOut (r : HopReq) : Frond := { Frond.reset with outst := [(9, .hop r)] }
theorem test_hresp :
    (tileAfter (.hrespReceive 0 0) (fa (askingHeld (tileAt 0 0) (some 3)) (hopOut popReq) [mkHresp req9 ⟨0, 0⟩ 0 0 77])).map (fun T => T.seq.getG 3) = some 77 := by decide +kernel
theorem test_hresp_refused :
    (after (.hrespReceive 0 0) (fa (askingHeld (tileAt 0 0) (some 3)) (hopOut popReq) [mkHresp req9 ⟨0, 0⟩ 0 2 0])).map (fun d => (d.frond 0).retries) = some [popReq] := by decide +kernel
theorem test_hop_retry :
    (after (.hopRetry 0 0) (fa Tile.reset { Frond.reset with retries := [popReq] } [])).map (fun d => ((d.frond 0).retries, (d.frond 0).ops)) = some ([], [popReq]) := by decide +kernel
def fillOut (i : Bool) (l : List WcLine) : Frond := { Frond.reset with outst := [(9, .fill 5)], wcFills := [⟨5, [], i⟩], wcLines := l }
theorem test_fill :
    (after (.wcFillReturn 0) (fa Tile.reset (fillOut true []) [rd 0])).map (fun d => (d.frond 0).wcLines.map (fun y => (y.line, y.data.getD 3 0))) = some [(5, 0xAA)] := by decide +kernel
theorem test_fill_invalidated : (after (.wcFillReturn 0) (fa Tile.reset (fillOut false []) [rd 0])).map (fun d => (d.frond 0).wcLines) = some [] := by decide +kernel

theorem witness_frond_answers :
    (let s := fa (streaming blk2 []) { Frond.reset with outst := [(9, readFor)] } [rd 0]
     FirstAt s.dev 0 0 (fun x => x.type == 4 && !s.dev.isFill 0 x) (rd 0) [] ∧ Sparse.find (s.dev.frond 0).outst (rd 0).txid.toNat = some readFor ∧ (rd 0).status = 0 ∧
       (s.dev.tile 0).strm.failing = none ∧ (s.dev.tile 0).strm.blocks.find? (fun b => b.idx == 2) = some blk2 ∧ (descOf blk2.words).dlocal = true ∧
       Sparse.wf Tile.reset s.dev.tiles = true ∧ Sparse.wf Frond.reset s.dev.fronds = true) ∧
    (let p := mkWrAck req9 ⟨mcRouter 0, 0⟩ 0
     let s := fa (streaming blk2 []) Frond.reset [p]
     FirstAt s.dev 0 0 (fun x => x.type == 5) p [] ∧ p.sub / 16 = 2 ∧ p.status = 0 ∧ (s.dev.tile (p.sub % 16)).strm.blocks.find? (fun b => b.idx % 4 == p.sub / 16) = some blk2) ∧
    (∀ e ∈ [(0, 0), (0, 1), (0, 2), (0x11, 0)],
     let p := mkHresp req9 ⟨0, 0⟩ e.1 e.2 0
     let s := fa (askingHeld (tileAt 0 0) (some 3)) (hopOut popReq) [p]
     FirstAt s.dev 0 0 (fun x => x.type == 7) p [] ∧ Sparse.find (s.dev.frond 0).outst p.txid.toNat = some (.hop popReq) ∧ popReq.src = .tile 0 ∧
       (s.dev.tile 0).seq.wait = some (.handle (some 3)) ∧ s.dev.sched.runs = [] ∧ p.status = e.1 ∧ p.result = e.2) := by
  refine ⟨⟨⟨[], [], rfl, rfl, by decide +kernel, by simp⟩, by decide +kernel⟩, ⟨⟨[], [], rfl, rfl, by decide +kernel, by simp⟩, by decide +kernel⟩, ?_⟩
  intro e he
  simp only [List.mem_cons, List.not_mem_nil, or_false] at he
  obtain rfl | rfl | rfl | rfl := he <;> exact ⟨⟨[], [], rfl, rfl, by decide +kernel, by simp⟩, by decide +kernel⟩
/-- The fill whose set holds 15 lines, the one that was invalidated, and the retry. -/
theorem witness_fill : ∀ i ∈ [true, false],
    let s := fa Tile.reset (fillOut i ((List.range 15).map fun n => ⟨1029 + 1024 * n, []⟩)) [rd 0]
    FirstAt s.dev 0 0 (fun x => x.type == 4 && s.dev.isFill 0 x) (rd 0) [] ∧ Sparse.find (s.dev.frond 0).outst (rd 0).txid.toNat = some (.fill 5) ∧
      (s.dev.frond 0).wcFills.find? (fun y => y.line == 5) = some ⟨5, [], i⟩ ∧ (s.dev.frond 0).wcWait = [] ∧ (s.dev.frond 0).invals = [] ∧
      ((s.dev.frond 0).wcLines.filter (fun y => y.line % 1024 == 5 % 1024 && y.line != 5)).length = 15 ∧ popReq.queue / 64 = 0 := by
  intro i hi
  simp only [List.mem_cons, List.not_mem_nil, or_false] at hi
  obtain rfl | rfl := hi <;> exact ⟨⟨[], [], rfl, rfl, by decide +kernel, by simp⟩, by decide +kernel⟩

/-- A fill that one read waits for; an operation on a queue of frond 1 that was refused. -/
theorem witness_fill_waiter :
    (let F : Frond := { Frond.reset with outst := [(9, .fill 0)], wcFills := [⟨0, [(0, 2, 0, 64, [⟨3, 0x40, 2, false⟩])], true⟩] }
     let s := fa (streaming blk2 []) F [rd 0]
     FirstAt s.dev 0 0 (fun x => x.type == 4 && s.dev.isFill 0 x) (rd 0) [] ∧ F.wcWait = [] ∧ (s.dev.tile 0).strm.failing = none ∧ LocalBlock (s.dev.tile 0) 2 ∧
       (tileAfter (.wcFillReturn 0) s).map (fun T => (T.mem.byte 0x40, T.strm.blocks.map (·.reads))) = some (0xAA, [0])) ∧
    (let op := { popReq with queue := 66 }
     let s := fa Tile.reset { Frond.reset with retries := [op] } []
     (s.dev.frond 0).retries = [op] ∧ op.queue / 64 ≠ 0 ∧ (s.dev.frond 0).outst.length < 65536 ∧
       (after (.hopRetry 0 0) s).map (fun d => ((d.frond 0).retries, (Sparse.get [] (d.router 0).outbox 0).map fun e => e.2.type)) = some ([], [6])) := by
  refine ⟨⟨⟨[], [], rfl, rfl, by decide +kernel, by simp⟩, rfl, by decide, ⟨blk2, by decide +kernel, by decide⟩, by decide +kernel⟩, by decide +kernel⟩
/-- RunsGoOn holds with no RUN, and an operation beside the sequencer is answered (04 R106). -/
theorem witness_answer_beside : RunsGoOn (fa Tile.reset Frond.reset []).dev ∧
    (tileAfter (.hrespReceive 0 0) (fa { tileAt 0 0 with seq := { (tileAt 0 0).seq with ops := [⟨0, .popNb, 3, some 3, false⟩] } }
      (hopOut { popReq with op := .popNb }) [mkHresp req9 ⟨0, 0⟩ 0 0 77])).map (fun T => (T.seq.getG 3, T.seq.ops)) = some (77, []) := by
  refine ⟨?_, by decide +kernel⟩
  intro x hx; cases hx

/-- STRM of g1 and STRMY, with g1 = a. -/
def strmW : Word := wordOf 0x38 (1 * 2 ^ 48)
def strmyW : Word := wordOf 0x39 0
def ls (w a : Word) (n : BitVec 2) : State := cs 0 w fun T => { withG T a 0 with seq := { (withG T a 0).seq with strmState := n } }

theorem test_strm : (tileAfter (.strm 0) (ls strmW 0x1000 0)).map (fun T => (T.strm.next, T.seq.wait, T.seq.st)) = some (some 0x1000, some .stream, .wait) := by decide +kernel
theorem test_strmy_state : (tileAfter (.strmy 0) (ls strmyW 0 2)).map (fun T => T.seq.fault.cause) = some .streamState := by decide +kernel
theorem test_block_last :
    (tileAfter (.streamBlockComplete 0) (fa (streaming { blk2 with reads := 0, writes := 0 } []) Frond.reset [])).map (fun T => (T.seq.strmState, T.seq.pc, T.strm.blocks)) =
      some (2, 1, []) := by decide +kernel

/-- A tile's memory with a descriptor at window offset 0x1000, and the list about to read it. -/
def atStart (l : List Word) : State :=
  fa { streaming blk2 (Mem.write [(64, 0x11), (72, 0x22)] 0x1000 (l.flatMap fun w => leBytes 8 w.toNat)) with
    strm := { Stream.reset with next := some 0x10000001000 } } Frond.reset []

/-- R135: the second element, from 72, lands packed at 260. -/
theorem test_block_start :
    (tileAfter (.streamBlockStart 0) (atStart descWords)).map (fun T => (T.mem.byte 256, T.mem.byte 260, T.mem.byte 264, T.strm.closed)) = some (0x11, 0x22, 0, true) := by decide +kernel
theorem test_block_reserved :
    (tileAfter (.streamBlockStart 0) (atStart (descWords.set 7 (2 ^ 63)))).map (fun T => (T.seq.fault.cause, T.mem.byte 256)) = some (.reservedField, 0) := by decide +kernel

/-- STRM at the first and last address of the map, and off alignment; STRMY in each STRM_STATE. -/
theorem witness_list_control :
    (∀ a ∈ [(0 : Nat), 2 ^ 44 - 64, 32], Issues (ls strmW (BitVec.ofNat 64 a) 0) 0 0x38 strmW ∧ (((ls strmW (BitVec.ofNat 64 a) 0).dev.tile 0).seq.getG (wGd strmW)).toNat = a) ∧
    (∀ n ∈ [0, 1, 2], Issues (ls strmyW 0 (BitVec.ofNat 2 n)) 0 0x39 strmyW ∧ ((ls strmyW 0 (BitVec.ofNat 2 n)).dev.tile 0).seq.strmState = BitVec.ofNat 2 n) ∧
    (∀ w ∈ [strmW, strmyW], wSat w = false ∧ wPs w = 0) ∧ fld strmW 0 48 = 0 ∧ fld strmyW 0 54 = 0 := by
  refine ⟨?_, ?_, ?_, by decide, by decide⟩
  · simp only [Issues]; decide +kernel
  · simp only [Issues]; decide +kernel
  · intro w hw; simp only [List.mem_cons, List.not_mem_nil, or_false] at hw; obtain rfl | rfl := hw <;> decide
/-- Blocks with LAST, with YIELD, with neither, and one that signals an entry to queue 3. -/
theorem witness_block_complete : ∀ b ∈ [(0x100000000000000, 0, (0 : Word)), (0x200000000000000, 0, 0), (0, 0, 0), (0x800000000000000, 0x30000, 0x4000000000000000)],
    let y := descOf (((descWords.set 4 b.1).set 5 b.2.1).set 6 b.2.2)
    (y.last = decide (b.1 = (0x100000000000000 : Word))) ∧ y.yield = decide (b.1 = (0x200000000000000 : Word)) ∧ y.sig = decide (b.1 = (0x800000000000000 : Word)) ∧ (y.sig = true → validEntry y.hval = true ∧ y.sigQ / 64 = 0) := by
  intro b hb; simp only [List.mem_cons, List.not_mem_nil, or_false] at hb; obtain rfl | rfl | rfl | rfl := hb <;> decide +kernel
theorem witness_block_start : ∀ l ∈ [descWords, descWords.set 7 (2 ^ 63)],
    let s := atStart l
    let T := s.dev.tile 0
    T.seq.wait = some .stream ∧ T.strm.closed = false ∧ T.strm.failing = none ∧ T.strm.waiting = none ∧ T.strm.blocks = [] ∧ T.strm.next = some 0x10000001000 ∧
      placeOf 0x10000001000 = .tile 0 0x1000 ∧ s.dev.tileOn 0 = true ∧ T.badWords = [] ∧ Mem.wf T.mem = true ∧ Sparse.wf Tile.reset s.dev.tiles = true ∧
      ((List.range 8).map fun i => T.mem.word (0x1000 + 8 * i)) = l ∧ descReserved descWords = false ∧ descReserved (descWords.set 7 (2 ^ 63)) = true := by
  intro l hl
  simp only [List.mem_cons, List.not_mem_nil, or_false] at hl
  obtain rfl | rfl := hl <;> decide +kernel
/-- A block that pops a handle of queue 3 first, and moves nothing; a block that signals queue 3, and one that signals queue 4, which the RUN does not own. -/
def popWords : List Word := [2 ^ 44 + 64, 2 ^ 44 + 256, 2 ^ 32 + 2 ^ 48, 0, 2 ^ 58 + 2 ^ 56, 3, 0, 0]
def sigWords (q : Nat) : List Word := [2 ^ 44 + 64, 2 ^ 44 + 256, 2 ^ 32 + 2 ^ 48, 0, 2 ^ 59 + 2 ^ 56, BitVec.ofNat 64 (q * 2 ^ 16), 2 ^ 62, 0]
def owning (s : State) : State := { s with dev := { s.dev with hqs := [(3, ⟨[], [], some (1, 7)⟩)] } }
theorem witness_wait_block :
    let s := owning (atStart popWords)
    let x := descOf popWords
    descReserved popWords = false ∧ x.wait = true ∧ x.waitUse = 0 ∧ x.slocal = true ∧ x.dlocal = true ∧ x.src < 0x100000 ∧ x.dst < 0x100000 ∧ x.ext0 = 0 ∧
      x.xform = 0 ∧ x.barrier = false ∧ x.sig = false ∧ QueueOf s 0 x.waitQ ∧ x.waitQ / 64 = 0 ∧ (s.dev.tile 0).running.any (fun r => r.spec || r.verify) = false ∧
      NextMayStart s.dev 0 ∧ (after (.streamBlockStart 0) s).map (fun d => (d.frond 0).ops.map fun o => (o.op, o.queue)) = some [(.pop, 3)] := by
  refine ⟨by decide, by decide +kernel, by decide, by decide, by decide +kernel, by decide, by decide, by decide, by decide, by decide, by decide,
    ⟨by decide, by decide +kernel, item, by decide +kernel, by decide +kernel⟩, by decide, by decide +kernel, ?_, by decide +kernel⟩
  intro b hb; cases hb
theorem witness_signal_block : ∀ q ∈ [3, 4],
    let b : StrmBlock := ⟨2, sigWords q, 0, 0, 0, false, false, false⟩
    let s := owning (fa (streaming b []) Frond.reset [])
    let y := descOf (sigWords q)
    y.sig = true ∧ y.last = true ∧ y.sigQ = q ∧ validEntry y.hval = true ∧ (s.dev.tile 0).strm.blocks = [b] ∧ (s.dev.tile 0).seq.wait = some .stream ∧
      (s.dev.tile 0).strm.failing = none ∧ (s.dev.tile 0).strm.cut = none ∧ (s.dev.tile 0).strm.first ≤ b.idx ∧ s.dev.frondOn (q / 64) = true ∧
      (tileAfter (.streamBlockComplete 0) s).map (fun T => T.seq.fault.cause) = some (if q = 3 then .none else .address) := by
  intro q hq; simp only [List.mem_cons, List.not_mem_nil, or_false] at hq; obtain rfl | rfl := hq <;> decide +kernel
theorem witness_local_copy : LocalCopy (descOf descWords) ∧ NoOverlap (descOf descWords) := by
  have h : descOf descWords = ⟨true, 64, true, 256, 2, 1, 1, 8, 0, 0, false, false, false, false, false, true, 0, 0, false, 4, 0, 0, 0, 0, 0, 0, 0⟩ := by decide
  rw [h]
  refine ⟨⟨rfl, rfl, rfl, rfl, rfl, rfl, rfl, by decide, by decide, by decide, ?_⟩, ?_⟩
  · intro i2 i1 i0 h2 h1 h0
    simp only [LocalOk, strided, packed]
    have : i2 = 0 := by simp at h2; omega
    have : i1 = 0 := by simp at h1; omega
    simp at h0
    subst_vars
    obtain rfl | rfl : i0 = 0 ∨ i0 = 1 := by omega
    · decide
    · decide
  · intro i2 i1 i0 h2 h1 h0
    simp only [strided]
    have : i2 = 0 := by simp at h2; omega
    have : i1 = 0 := by simp at h1; omega
    simp at h0
    subst_vars
    obtain rfl | rfl : i0 = 0 ∨ i0 = 1 := by omega
    · decide
    · decide

/-- The words of an item of program 2, ENTRY 5, AFFINITY all dies, STEAL; the same at home on die 0, logical frond n, slot 3. -/
def freeItem : List Word := [BitVec.ofNat 64 (2 * 2 ^ 48 + 255 * 2 ^ 40 + 2 ^ 26 + 5), BitVec.ofNat 64 (0xFFFF * 2 ^ 48 + 1), 11, 22, 0, 0, 0, 0, 0, 0, 0x8000000000100000, 0, 0, 0, 0, 0]
def homeItem (n : Nat) : List Word := freeItem.set 0 (BitVec.ofNat 64 (2 * 2 ^ 48 + 1 * 2 ^ 40 + 2 ^ 39 + n * 2 ^ 31 + 3 * 2 ^ 27 + 5))

/-- A RUN (queue 1, tag 7) of three such items. -/
def run0 : Run :=
  { q := 1, tag := 7, policy := 1, det := false, seed := 99, items := [freeItem, freeItem, freeItem], itemTimeout := 0, regions := [], queues := [3], fences := [], specAware := 0,
    seqs := [], nextSend := 0, dispatched := 0, ended := 0, itemsOk := 0, doneItems := [], fails := [], stopped := false, aborted := false, nancount := 0,
    flags := Flags.clear, ringAddr := 0x8000000000001000, ringEntries := 4, prodAddr := 0x8000000000002000, consAddr := 0x8000000000002040, prod := 0, cons := 0,
    commits := [], waitRoom := false, specEnds := [], rr := 0, slots := [] }
def item0 (n slot : Nat) : Waiting := ⟨1, 7, n, freeItem, slot, false⟩

/-- The READY device with the RUN r, frond 0 as F and program 2 resident at 100. -/
def rs (r : Run) (F : Frond) : State := st { dev0.setFrond 0 F with sched := { Sched.reset with runs := [r], programs := [⟨2, 100, 50⟩] } }

theorem test_item_send : (after (.itemSend 1 7) (rs run0 Frond.reset)).map (fun d => ((d.frond 0).items, d.sched.runs.map (·.rr))) = some ([item0 0 0], [1]) := by decide +kernel
theorem test_item_home :
    (after (.itemSend 1 7) (rs { run0 with items := [homeItem 2], rr := 9 } Frond.reset)).map (fun d => ((d.frond 2).items.map (·.slot), d.sched.runs.map (·.rr))) = some ([3], [9]) := by decide +kernel
theorem test_item_send_full :
    (after (.itemSend 1 7) (rs { run0 with items := [homeItem 0] } { Frond.reset with items := List.replicate 1024 (item0 0 0) })).map (fun d => d.sched.runs.map (·.nextSend)) = some [0] := by decide +kernel
/-- R84, R85, R162, R163: PC = base + ENTRY, PARAM 0 in g1, the literal handle in g9, the seed. -/
theorem test_dispatch :
    (after (.itemDispatch 0) (rs run0 { Frond.reset with items := [item0 0 2] })).map (fun d =>
      ((d.tile 2).seq.pc, (d.tile 2).seq.getG 1, (d.tile 2).seq.getG 9, (d.frond 0).items.length)) = some (105, 11, 0x8000000000100000, 0) := by decide +kernel

/-- Home items: logical frond 0 and, beyond the fronds of the die, 31; free items from the first frond and past the last; counts below and at the limit. -/
theorem witness_item_send_home : ∀ e ∈ [(0, 1023), (0, 1024), (31, 0)],
    let r := { run0 with items := [homeItem e.1] }
    let s := rs r { Frond.reset with items := List.replicate e.2 (item0 0 0) }
    RunIs s.dev r ∧ r.stopped = false ∧ r.items[r.nextSend]? = some (homeItem e.1) ∧ bitAt ((homeItem e.1).getD 0 0) 39 = true ∧ fld ((homeItem e.1).getD 0 0) 31 5 = e.1 ∧
      fld ((homeItem e.1).getD 0 0) 36 3 = 0 ∧ (s.dev.frond 0).items.length = e.2 ∧ (s.dev.frondsOf 0).drop e.1 ++ (s.dev.frondsOf 0).take e.1 = List.range 24 := by
  intro e he
  simp only [List.mem_cons, List.not_mem_nil, or_false] at he
  obtain rfl | rfl | rfl := he <;> (simp only [RunIs]; decide +kernel)
theorem witness_first_serving : FirstServing (rs run0 Frond.reset).dev (List.range 24) 0 ∧ InService (rs run0 Frond.reset).dev 191 :=
  ⟨⟨[], (List.range 24).tail, by decide, ⟨by decide, by decide, 0, by decide, by decide⟩, by simp⟩, by decide, by decide, 15, by decide, by decide⟩
theorem witness_item_send_free : ∀ n ∈ [0, 192],
    let r := { run0 with rr := n }
    RunIs (rs r Frond.reset).dev r ∧ bitAt (freeItem.getD 0 0) 39 = false ∧
      ((((List.range 8).filter fun k => bitAt (freeItem.getD 0 0) (40 + k)).flatMap (rs r Frond.reset).dev.frondsOf).filter fun x => decide (n ≤ x)) =
        if n = 0 then List.range 192 else [] := by
  intro n hn
  simp only [List.mem_cons, List.not_mem_nil, or_false] at hn
  obtain rfl | rfl := hn <;> (simp only [RunIs]; decide +kernel)
/-- A part whose one frond is withheld. -/
theorem witness_item_send_withheld :
    let d := { (rs run0 { Frond.reset with withheld := true }).dev with fuses := { Fuses.reset with frondEn := 1 :: List.replicate 7 0 } }
    RunIs d run0 ∧ ((List.range 8).filter fun k => bitAt (freeItem.getD 0 0) (40 + k)).flatMap d.frondsOf = [0] ∧ ¬InService d 0 ∧ (d.frond 0).withheld = true := by
  refine ⟨by simp only [RunIs]; decide +kernel, by decide +kernel, ?_, by decide⟩
  intro h; exact absurd h.1 (by decide)

theorem witness_dispatch :
    let F := { Frond.reset with items := [item0 0 2] }
    let d := (rs run0 F).dev
    Sparse.wf Tile.reset d.tiles = true ∧ Sparse.wf Frond.reset d.fronds = true ∧ F.reserved = [] ∧ F.withheld = false ∧ d.dom 0 = .run ∧ itSpecc freeItem = false ∧
      (∀ i, i < 6 → fld (freeItem.getD 1 0) (2 * i) 2 ≠ 2) ∧ d.itemReady (item0 0 2) = true ∧ d.runOf 1 7 = some run0 ∧ run0.det = false ∧
      d.sched.programs.find? (fun y => y.num.toNat == fld (freeItem.getD 0 0) 48 16) = some ⟨2, 100, 50⟩ ∧ (d.tilesOf 0)[2 % (d.tilesOf 0).length]? = some 2 ∧
      d.tileFree 2 = true := by decide +kernel

/-- An item whose second handle source is queue 3, as its RUN's items have it; the same reserved on tile 2 with its pop done. -/
def queueItem : List Word := freeItem.set 1 (BitVec.ofNat 64 (0xFFFF * 2 ^ 48 + 1 + 2 * 4)) |>.set 11 3
def withQueue (s : State) : State := { s with dev := { s.dev with hqs := [(3, ⟨[⟨77, none⟩], [], some (1, 7)⟩)] } }
def popped2 : Reservation := ⟨item0 0 2, 2, [], [(9, 0x8000000000100000), (10, 77)]⟩
theorem test_dispatch_reserves :
    (after (.itemDispatch 0) (withQueue (rs { run0 with items := [queueItem] } { Frond.reset with items := [⟨1, 7, 0, queueItem, 2, false⟩] }))).map (fun d =>
      ((d.frond 0).reserved.map (fun y => (y.tile, y.todo.map (·.1), y.done.map (·.1))), (d.frond 0).items.length)) = some ([(2, [10], [9])], 0) := by decide +kernel
theorem test_dispatch_reserved :
    (after (.itemDispatch 0) (rs run0 { Frond.reset with reserved := [popped2] })).map (fun d => ((d.tile 2).seq.getG 10, (d.frond 0).reserved)) = some (77, []) := by decide +kernel
theorem witness_dispatch_queue :
    let x : Waiting := ⟨1, 7, 0, queueItem, 2, false⟩
    let d := (withQueue (rs { run0 with items := [queueItem] } { Frond.reset with items := [x] })).dev
    (∀ i, i < 6 → sourceKind x i = if i = 1 then 2 else if i = 0 then 1 else 0) ∧ d.itemReady x = true ∧ (d.physQueue (fld (x.words.getD 11 0) 0 14)).map (· / 64) = some 0 ∧
      PlacedOn d 0 x { run0 with items := [queueItem] } 2 ∧ x ∉ ([] : List Waiting) ∧ d.overtaken x = false := by
  refine ⟨by decide, by decide +kernel, by decide +kernel, .inl ⟨by decide +kernel, by decide +kernel⟩, by simp, by decide +kernel⟩
theorem witness_dispatch_reserved :
    let d := (rs run0 { Frond.reset with reserved := [popped2] }).dev
    (d.frond 0).reserved = [] ++ ⟨item0 0 2, 2, [], [(9, 0x8000000000100000), (10, 77)]⟩ :: [] ∧ d.runOf 1 7 = some run0 ∧ d.dom 0 = .run ∧ d.overtaken (item0 0 2) = false ∧
      (popped2.done.map (·.1)).Nodup ∧ (∀ e ∈ popped2.done, 9 ≤ e.1 ∧ e.1 < 15) := by decide +kernel

/-- Tile 0 whose item has ended, with a RUN of three items. -/
def ended (e : Option EndReport) (r : Run) : State :=
  let s := rs r Frond.reset
  st { s.dev with tiles := [(0, { tileAt 5 0 with ended := e, seq := { (tileAt 5 0).seq with flags := ⟨true, false⟩ } })] }
theorem test_item_end :
    (after (.itemEnd 0) (ended (some ⟨.success, 0, false⟩) run0)).map (fun d => ((d.tile 0).running, d.sched.runs.map (fun r => (r.ended, r.itemsOk, r.flags.saturated)), (d.counter 0x10 0).value)) =
      some (none, [(1, 1, true)], 1) := by decide +kernel
/-- R169, R187: a failing item ends its RUN, which leaves no other tile running and completes. -/
theorem test_item_fails : (after (.itemEnd 0) (ended (some ⟨.tileFault, 5, true⟩) run0)).map (fun d => ((d.tile 0).seq.st, d.sched.runs.length)) = some (.idle, 0) := by decide +kernel
theorem test_item_timeout : (tileAfter (.itemTimeout 0) (ended none { run0 with itemTimeout := 9 })).map (fun T => T.ended) = some (some ⟨.timeout, 0, false⟩) := by decide +kernel
theorem witness_item_ends : ∀ e ∈ [some (⟨.success, 0, false⟩ : EndReport), some ⟨.tileFault, 5, true⟩, some ⟨.aborted, 0, false⟩, none],
    let r := { run0 with itemTimeout := 9 }
    let d := (ended e r).dev
    (d.tile 0).ended = e ∧ (d.tile 0).running = some item ∧ d.runOf 1 7 = some r ∧ r.stopped = false ∧ r.fails = [] ∧ item.spec = false ∧ item.verify = false ∧
      r.ended + 1 ≠ r.items.length ∧ r.itemTimeout ≠ 0 ∧ Sparse.wf Tile.reset d.tiles = true ∧ Sparse.wf Frond.reset d.fronds = true ∧ AtRest d 0 := by
  intro e he
  simp only [List.mem_cons, List.not_mem_nil, or_false] at he
  obtain rfl | rfl | rfl | rfl := he <;>
    refine ⟨by decide, by decide, by decide +kernel, by decide, by decide, by decide, by decide, by decide, by decide, by decide +kernel, by decide +kernel, by decide, by decide, by decide, by decide, by decide, ?_⟩ <;>
    (intro x hx; have h : ∀ e r, (((ended e r).dev.frond (0 / 16)).outst = []) := (fun _ _ => rfl); rw [h] at hx; cases hx)

/-- Four stealable items wait at frond 0; the other frond u of these tests has heard of them, and of 1 elsewhere. -/
def steal (u : Nat) (t : Thief) : State :=
  st { dev0 with
    fronds := Sparse.put Frond.reset [(0, { Frond.reset with items := [item0 0 0, item0 1 1, item0 2 2, item0 3 3], reports := [(0, 4)] })] u
      { Frond.reset with reports := if u < 24 then [(0, 4), (3, 1)] else [], thief := t }
    sched := { Sched.reset with runs := [run0], totals := if u < 24 then [] else [(8, 4)] } }
theorem test_load_report : (after (.loadReport 0) (steal 5 .none)).map (fun d => (Sparse.get 0 (d.frond 1).reports 0, Sparse.get 0 (d.frond 24).reports 0)) = some (4, 0) := by decide +kernel
theorem test_die_total : (after (.dieTotalReport 0) (steal 5 .none)).map (fun d => (Sparse.get 0 d.sched.totals 8, Sparse.get 0 d.sched.totals 0)) = some (4, 0) := by decide +kernel
theorem test_steal_mate : (after (.stealRequest 5) (steal 5 .none)).map (fun d => ((d.frond 5).thief, (d.counter 0x17 5).value)) = some (.asked 0, 1) := by decide +kernel
theorem test_steal_far : (after (.stealRequest 24) (steal 24 .backoff)).map (fun d => (d.frond 24).thief) = some (.asked 0) := by decide +kernel
theorem test_steal_answer :
    (after (.stealAnswer 24) (steal 24 (.asked 0))).map (fun d => ((d.frond 0).items, (d.frond 24).items.map (fun x => (x.index, x.stolen)), (d.counter 0x19 24).value)) =
      some ([item0 0 0, item0 1 1], [(2, true), (3, true)], 2) := by decide +kernel
/-- A thief whose mates report fewer than 2 items while the rest of the package is not READY asks nobody, and is not counted. -/
def lonely : State := { steal 24 .backoff with dev := { (steal 24 .backoff).dev with rst := { Rst.reset with st := .early } } }
theorem test_steal_nobody : (after (.stealRequest 24) lonely).map (fun d => ((d.frond 24).thief, (d.counter 0x17 24).value)) = some (.backoff, 0) := by decide +kernel
theorem witness_steal_nobody : lonely.dev.rst.st ≠ .ready ∧ lonely.dev.frondOn 24 = true ∧ lonely.dev.dom 24 = .run ∧ lonely.dev.freeTiles 24 ≠ [] ∧ (lonely.dev.frond 24).withheld = false ∧
    (∀ u ∈ (lonely.dev.frondsOf 1).filter (fun u => u != 24), Sparse.get 0 (lonely.dev.frond 24).reports u < 2) ∧ (lonely.dev.frond 24).thief = .backoff := by decide +kernel
theorem witness_stealing :
    (∀ u ∈ [5, 24], let d := (steal u .none).dev
      Sparse.wf Frond.reset d.fronds = true ∧ Sparse.wf Counter.zero d.ctrs = true ∧ Sparse.wf 0 d.sched.totals = true ∧ d.frondOn u = true ∧ d.dom u = .run ∧
        d.freeTiles u ≠ [] ∧ (d.frond u).items = [] ∧ (d.frond u).withheld = false ∧ bitAt run0.policy 0 = true ∧ run0.det = false ∧ d.rst.st = .ready) ∧
    Largest (((steal 5 .none).dev.frondsOf 0).filter fun u => u != 5 && decide (2 ≤ Sparse.get 0 ((steal 5 .none).dev.frond 5).reports u))
      (fun u => Sparse.get 0 ((steal 5 .none).dev.frond 5).reports u) 0 ∧
    Largest ((List.range 8).filter (· != 1)) (fun j => Sparse.get 0 (steal 24 .none).dev.sched.totals (8 * 1 + j)) 0 ∧
    (∀ e ∈ [([item0 0 0], 0), ([item0 0 0, item0 1 1], 1)], min (min 8 (e.1.length / 2)) (1024 - 0) = e.2) := by
  refine ⟨?_, ?_, ?_, by decide⟩
  · intro u hu; simp only [List.mem_cons, List.not_mem_nil, or_false] at hu; obtain rfl | rfl := hu <;> decide +kernel
  · simp only [Largest]; decide +kernel
  · simp only [Largest]; decide +kernel

/-- A RUN with one sequence, LEN 5 and EPOCH_C 3, and a commit. -/
def commit0 (e : BitVec 16) (a : Nat) : Commit := ⟨0, e, a, false, false, [71, 72, 73]⟩
def runC (c : Commit) (n : Nat) (w : Bool) : Run := { run0 with items := [freeItem], seqs := [⟨0x1000, 5, 3, none⟩], commits := [c], ringEntries := n, waitRoom := w }
def cmt (c : Commit) (n : Nat) (w : Bool) : State :=
  st { (rs (runC c n w) Frond.reset).dev with
    hqs := [(3, ⟨[⟨1, some (0, 4)⟩, ⟨2, some (0, 5)⟩, ⟨3, none⟩], [], some (1, 7)⟩)], cxl := { Cxl.reset with up := true, bme := true } }
theorem test_commit_stale : (after (.commitApply 1 7) (cmt (commit0 9 1) 4 false)).map (fun d => ((d.counter 0x16 0).value, d.sched.runs.map (·.commits))) = some (1, [[]]) := by decide +kernel
theorem test_commit_rejects :
    (after (.commitApply 1 7) (cmt (commit0 4 0) 4 false)).map (fun d => ((d.hq 3).entries, d.sched.runs.map (fun r => r.seqs.map (fun z => (z.len, z.epochC))))) = some ([⟨3, none⟩], [[(5, 12)]]) := by decide +kernel
theorem test_commit_applies :
    (after (.commitApply 1 7) (cmt (commit0 4 2) 4 false)).map (fun d =>
      (d.hostMem.num 0x1000 4, d.hostMem.num 0x100E 2, d.hostMem.num 0x2000 4, (d.hq 3).entries)) =
      some (71, 6, 2, [⟨1, none⟩, ⟨3, none⟩]) := by decide +kernel
theorem test_commit_waits : (after (.commitApply 1 7) (cmt (commit0 4 3) 2 false)).map (fun d => d.sched.runs.map (·.waitRoom)) = some [true] := by decide +kernel
theorem test_cons_recheck : (after (.consRecheck 1 7) (cmt (commit0 4 2) 4 true)).map (fun d => d.sched.runs.map (·.prod)) = some [2] := by decide +kernel
/-- Stale commits of no sequence and of another epoch; a rejection; one that just fits the ring, one that does not; one that waited. -/
theorem witness_commits : ∀ e ∈ [({ commit0 4 1 with seq := 1 }, 4, false), (commit0 5 1, 4, false), (commit0 4 0, 4, false), (commit0 4 3, 3, false), (commit0 4 3, 2, false), (commit0 4 2, 4, true)],
    let r := runC e.1 e.2.1 e.2.2
    let d := (cmt e.1 e.2.1 e.2.2).dev
    RunIs d r ∧ d.sched.runs = [r] ∧ r.stopped = false ∧ r.commits = [e.1] ∧ r.ended < r.items.length ∧ Sparse.wf HQueue.reset d.hqs = true ∧ Sparse.wf Counter.zero d.ctrs = true ∧
      Mem.wf d.hostMem = true ∧ (d.fronds.all fun x => x.2.items.isEmpty) = true ∧ (∀ k ∈ r.queues, (d.hq k).parked = []) ∧ r.queues.Nodup ∧
      r.seqs[e.1.seq.toNat]? = (if e.1.seq = 0 then some ⟨0x1000, 5, 3, none⟩ else none) ∧ isHost r.ringAddr = true ∧ isHost r.prodAddr = true ∧
      (d.readCons r).1 = some 0 ∧ (d.readCons r).2 = d := by
  intro e he
  simp only [List.mem_cons, List.not_mem_nil, or_false] at he
  obtain rfl | rfl | rfl | rfl | rfl | rfl := he <;> (simp only [RunIs]; decide +kernel)

/-- A command of queue 1, tag 7, that has been fetched. -/
def cmd (op : Byte) (p : List Word) : Cmd := { q := 1, tag := 7, op := op, order := false, noint := false, p := p, st := .queued, discard := false, held := none, counts := (0, 0) }

/-- An active queue whose completion ring lies in host memory at 0x10000. -/
def queue1 : HostQueue := { HostQueue.reset with cqBase := 0x8000000000010000, sqBase := 0x8000000000008000, enable := true, st := .active, cqPhase := true, cqSize := 15, sqSize := 15 }

/-- Device d with the command c in flight and the host link up. -/
def withCmd (d : Device) (c : Cmd) : Device :=
  { d with host := { d.host with queues := [(1, queue1)], inflight := [c] }, cxl := { d.cxl with up := true, bme := true, mse := true, msixEn := true } }
def hc (c : Cmd) : State := st (withCmd dev0 c)

/-- The completion posted: status, DETAIL, RESULT0. -/
def posted (d : Device) : Nat × Nat × Nat := (d.hostMem.num 0x10002 1, d.hostMem.num 0x10006 2, d.hostMem.num 0x10008 8)
def answer (i : Instr) (s : State) : Option (Nat × Nat × Nat) := (after i s).map posted

/-- A command starts, and sets no bit beyond its masks. -/
def startsB (d : Device) (op : Nat) (c : Cmd) (masks : List Word) : Bool :=
  decide (c.q < 64) && decide (d.cmdOf c.q c.tag.toNat = some c) && decide (c.op.toNat = op) && decide (c.st = .queued) && !c.order && opServed d.rst.st op &&
    (List.range 7).all fun i => c.pw (i + 1) &&& ~~~(masks.getD i 0) == 0
theorem starts_of {d : Device} {op : Nat} {c : Cmd} {masks : List Word} (h : startsB d op c masks = true) : Starts d op c ∧ Plain c masks := by
  simp only [startsB, Bool.and_eq_true, decide_eq_true_eq, Bool.not_eq_true', List.all_eq_true, List.mem_range, beq_iff_eq] at h
  obtain ⟨⟨⟨⟨⟨⟨h1, h2⟩, h3⟩, h4⟩, h5⟩, h6⟩, h7⟩ := h
  exact ⟨⟨h1, h2, h3, h4, fun h => absurd h (by simp [h5]), h6⟩, fun i hi => h7 i hi⟩

theorem test_nop : answer (.nop 1 7) (hc (cmd 0x00 [])) = some (0, 0, 0) := by decide +kernel
/-- R197, R200: a bit in P2, unused, is INVALID_PARAM with DETAIL 16, where P2 lies. -/
theorem test_nop_reserved : answer (.nop 1 7) (hc (cmd 0x00 [0, 0x10000])) = some (0x11, 16, 0) := by decide +kernel
/-- R206: P lies at byte 32; an address beyond the DRAM names P1. -/
theorem test_identify_dram : leAt dev0.identify 32 8 = 0xC00000000 := by decide +kernel
theorem test_identify_address : answer (.identify 1 7) (hc (cmd 0x01 [0xC00000000])) = some (0x11, 8, 0) := by decide +kernel
theorem test_get_status : answer (.getStatus 1 7) (st { hc (cmd 0x02 []) |>.dev with rst := { Rst.reset with st := .diagHold, holdTiles := 5, fatal := true } }) = some (0, 0, 0x50104) := by decide +kernel
/-- R205: W of 1,025 names P2; T_DRY below T_DAMP names P1. -/
theorem test_power_policy_w : answer (.setPowerPolicy 1 7) (hc (cmd 0x03 [0, 0x8000000000000401, 0])) = some (0x11, 16, 0) := by decide +kernel
theorem test_power_policy :
    (after (.setPowerPolicy 1 7) (hc (cmd 0x03 [0x8000000900000008, 0, 0x8000000000000190]))).map (fun d => (d.pwr.tDamp, d.pwr.tDry, d.pwr.cap, d.pwr.lead)) = some (8, 9, 400, true) := by decide +kernel
theorem test_queue_create :
    (after (.setQueueCreate 1 7) (hc (cmd 0x05 [0x0200, 0x8000000000001000, 0x1000, 0x000F000F]))).map (fun d => ((d.queue 2).st, (d.queue 2).cqBase, (posted d).1)) =
      some (.active, 0x1000, 0) := by decide +kernel
theorem test_queue_delete : (after (.setQueueDelete 1 7) (hc (cmd 0x05 [0x0101]))).map (fun d => (posted d).1) = some 0x13 := by decide +kernel
theorem test_queue_weights : (after (.setQueueWeights 1 7) (hc (cmd 0x05 [0x0002, 0x030201]))).map (fun d => (d.host.wh, d.host.wm, d.host.wl)) = some (1, 2, 3) := by decide +kernel
/-- COMMANDS of queue 1 itself, and ERRORS: counter 0 and 1 of SCOPE 2. -/
def withCtr (c : Cmd) : State := st { withCmd dev0 c with ctrs := [(1, ⟨5, false⟩), (65537, ⟨3, false⟩)] }
def ctrP3 : Word := 0x00010002
theorem test_get_counters :
    (after (.getCounters 1 7) (withCtr (cmd 0x06 [0x8000000000100000, 0x20000, ctrP3]))).map (fun d => (d.hostMem.num 0x100000 8, d.hostMem.num 0x100008 8)) = some (5, 3) := by decide +kernel
theorem test_clear_counters : (after (.clearCounters 1 7) (withCtr (cmd 0x07 [0, 0x10001, ctrP3]))).map (fun d => ((d.counter 0 1).value, (d.counter 1 1).value)) = some (6, 0) := by decide +kernel
theorem test_availability_address : (answer (.getAvailability 1 7) (hc (cmd 0x08 [0xC00000000]))).map (·.1) = some 0x11 := by decide +kernel
/-- R222: the bits of codes 0x08, 0x1A and 0x28 stay 1. -/
theorem test_event_mask : (after (.setEventMask 1 7) (hc (cmd 0x09 [2]))).map (fun d => d.host.mask) = some 0x10004000102 := by decide +kernel
theorem test_query_run_done : answer (.queryRun 1 7) (hc (cmd 0x23 [0x00090001])) = some (2, 0, 0) := by decide +kernel
/-- R210: a RUN whose completion is held, with 5 items dispatched and 6 ended, is COMPLETING and shows its counts. -/
def heldRun : State :=
  let d := withCmd dev0 (cmd 0x23 [0x00090001])
  st { d with host := { d.host with inflight := [{ cmd 0x21 [] with tag := 9, st := .completing, counts := (5, 6) }, cmd 0x23 [0x00090001]] } }
theorem test_query_run_completing :
    (after (.queryRun 1 7) heldRun).map (fun d => (posted d, d.hostMem.num 0x10010 4, d.hostMem.num 0x10014 4)) = some ((0, 0, 2), 5, 6) := by decide +kernel
theorem test_sched_policy : (after (.setSchedPolicy 1 7) (hc (cmd 0x24 [3]))).map (fun d => (d.sched.policy, posted d)) = some (3, (0, 0, 1)) := by decide +kernel

theorem witness_command_checks :
    (let d := (hc (cmd 0x00 [])).dev
     hostRow (.nop 1 7) = some (1, 7, 0x00, none) ∧ d.cmdOf 1 8 = none ∧ d.cmdOf 1 7 = some (cmd 0x00 []) ∧ (cmd 0x00 []).op.toNat ≠ 0x01) ∧
    (let d := (hc (cmd 0x05 [2])).dev
     hostRow (.setQueueCreate 1 7) = some (1, 7, 0x05, some (1, 0, 2, 0)) ∧ d.cmdOf 1 7 = some (cmd 0x05 [2]) ∧ ¬opFits (cmd 0x05 [2]) (some (1, 0, 2, 0))) ∧
    (let c := { cmd 0x21 [] with order := true }
     let d := { dev0 with host := { dev0.host with inflight := [{ c with tag := 6 }, c] } }
     d.cmdOf 1 7 = some c ∧ c.order = true ∧ d.earlierDone c = false) ∧
    ({ cmd 0x21 [] with st := .running } : Cmd).st ≠ .queued ∧
    notServed 0x03 1 ∧ notServed 0x24 4 ∧ notServed 0x43 2 ∧ notServed 0x55 0 := by
  refine ⟨⟨rfl, by decide, by decide, by decide⟩, ⟨rfl, by decide, ?_⟩, by decide, by decide, ?_, ?_, ?_, ?_⟩
  · simp only [opFits]; decide
  all_goals simp [notServed]
/-- The first and the last of the unused words of NOP. -/
theorem witness_nop_reserved : ∀ e ∈ [(0, [(1 : Word)]), (6, [0, 0, 0, 0, 0, 0, 0x8000000000000000])],
    Starts (hc (cmd 0x00 e.2)).dev 0x00 (cmd 0x00 e.2) ∧ (∀ j, j < e.1 → (cmd 0x00 e.2).pw (j + 1) = 0) ∧ (cmd 0x00 e.2).pw (e.1 + 1) ≠ 0 := by
  intro e he
  simp only [List.mem_cons, List.not_mem_nil, or_false] at he
  obtain rfl | rfl := he <;> exact ⟨(starts_of (masks := List.replicate 7 0xFFFFFFFFFFFFFFFF) (by decide)).1, by decide, by decide⟩
theorem witness_information : ∀ e ∈ [((0x00 : Byte), ([] : List Word), ([] : List Word)), (0x01, [0x8000000000100000], [addrMask 0x8000000000100000]), (0x01, [0x1000], [addrMask 0x1000]), (0x02, [], []),
      (0x08, [0x8000000000100000], [addrMask 0x8000000000100000]), (0x23, [0x00090001], [0xFFFF003F]), (0x23, [0x00070001], [0xFFFF003F]), (0x09, [2], [0xFFFFFFFFFFFFFFFF]), (0x24, [3], [3])],
    Starts (hc (cmd e.1 e.2.1)).dev e.1.toNat (cmd e.1 e.2.1) ∧ Plain (cmd e.1 e.2.1) e.2.2 := by
  intro e he
  simp only [List.mem_cons, List.not_mem_nil, or_false] at he
  obtain rfl | rfl | rfl | rfl | rfl | rfl | rfl | rfl | rfl := he <;> exact starts_of (by decide)
/-- SET_POWER_POLICY: T_DRY just below and at T_DAMP; W of 1,024 and 1,025; CAP of 399, 400, 2,400 and 2,401 W; no V bit. -/
theorem witness_power_policy : ∀ p ∈ [[0x8000000700000008, 0, (0 : Word)], [0x8000000800000008, 0, 0], [0, 0x8000000000000400, 0], [0, 0x8000000000000401, 0], [0, 0, 0x800000000000018F],
      [0, 0, 0x8000000000000190], [0, 0, 0x8000000000000960], [0, 0, 0x8000000000000961], [5, 0x7FF, 1]],
    Starts (hc (cmd 0x03 p)).dev 0x03 (cmd 0x03 p) ∧ Plain (cmd 0x03 p) [0x80FFFFFF00FFFFFF, 0x8000000000000FFF, 0x800000000000FFFF] := by
  intro p hp
  simp only [List.mem_cons, List.not_mem_nil, or_false] at hp
  obtain rfl | rfl | rfl | rfl | rfl | rfl | rfl | rfl | rfl := hp <;> exact starts_of (by decide)
theorem witness_power_limit : dev0.variant.power = 2400 := by decide
/-- SET_QUEUE create: queue 0, an active queue, each bad base, a bad Q_CFG, and a good one; delete and weights. -/
theorem witness_set_queue : ∀ p ∈ [[0x0000, 0, 0, (0 : Word)], [0x0100, 0, 0, 0], [0x0200, 0x8000000000001001, 0x1000, 0xF000F], [0x0200, 0x1000, 0xC000000000, 0xF000F],
      [0x0200, 0x1000, 0x2000, 0xF0000], [0x0200, 0x1000, 0x2000, 0x030000000F000F], [0x0200, 0x8000000000001000, 0x1000, 0x000F000F], [0x3F00, 0x8000000000001000, 0x1000, 0x0200020010FFF0FFF - 0x200000000000]],
    Starts (hc (cmd 0x05 p)).dev 0x05 (cmd 0x05 p) ∧ Plain (cmd 0x05 p) [0x3F03, 0xFFFFFFFFFFFFFFFF, 0xFFFFFFFFFFFFFFFF, 0xFFFFFFFFFFFFFFFF] ∧ fld ((cmd 0x05 p).pw 1) 0 2 = 0 := by
  intro p hp
  simp only [List.mem_cons, List.not_mem_nil, or_false] at hp
  obtain rfl | rfl | rfl | rfl | rfl | rfl | rfl | rfl := hp <;> exact and_assoc.mp ⟨starts_of (by decide), by decide⟩
theorem witness_queue_forms : ¬GoodBase dev0 0x8000000000001001 ∧ GoodBase dev0 0x8000000000001000 ∧ GoodBase dev0 0xBFFFFF000 ∧ ¬GoodBase dev0 0xC00000000 ∧ GoodCfg 0xF000F ∧ ¬GoodCfg 0xF0000 ∧
    ¬GoodCfg 0x200000F000F ∧ GoodCfg 0x100000F000F := by
  simp only [GoodBase, GoodCfg]; decide +kernel
theorem witness_queue_delete_weights : ∀ p ∈ [[0x0001], [0x0101], [0x0201], [0x0102, 0x010101], [0x0002, (0x010100 : Word)], [0x0002, 0x000101], [0x0002, 0xFFFFFF]],
    Starts (hc (cmd 0x05 p)).dev 0x05 (cmd 0x05 p) ∧ Plain (cmd 0x05 p) [0x3F03, 0xFFFFFF] := by
  intro p hp
  simp only [List.mem_cons, List.not_mem_nil, or_false] at hp
  obtain rfl | rfl | rfl | rfl | rfl | rfl | rfl := hp <;> exact starts_of (by decide)
/-- GET_COUNTERS and CLEAR_COUNTERS: K of 1, of 512 and of 513; the last counter. -/
theorem witness_counters : ∀ e ∈ [(0x06, (0x8000000000100000 : Word), (0x20000 : Word)), (0x06, 0x1000, 0x02000E00), (0x06, 0x1000, 0x02010000), (0x07, 0, 0x00010FFF), (0x07, 0, 0x00020FFF)],
    let c := cmd e.1 [e.2.1, e.2.2, ctrP3]
    Starts (hc c).dev e.1.toNat c ∧ Plain c [if e.1 = 0x06 then addrMask (c.pw 1) else 0, 0x0FFF0FFF, 0xFFFF0003] ∧
      (ctrBad (fld e.2.2 0 12) (fld e.2.2 16 12) 2 1).isSome = decide (e.2.2 = 0x02010000 ∨ e.2.2 = 0x00020FFF) := by
  intro e he
  simp only [List.mem_cons, List.not_mem_nil, or_false] at he
  obtain rfl | rfl | rfl | rfl | rfl := he <;> exact ⟨(starts_of (masks := [0xFFFFFFFFFFFFFFFF, 0x0FFF0FFF, 0xFFFF0003]) (by decide)).1, by simp only [Plain]; decide, by decide⟩

/-- Completions: of a disabled queue, over a lost link, with bus mastering off, posted at the last entry of its ring with and without a signal. -/
theorem witness_completion :
    (let d := (hc (cmd 0x00 [])).dev
     d.cmdOf 1 7 = some (cmd 0x00 []) ∧ Sparse.wf HostQueue.reset d.host.queues = true ∧ Sparse.wf Counter.zero d.ctrs = true ∧ bitAt (d.queue 1).cqBase 63 = true ∧ d.cxl.up = true ∧ d.cxl.bme = true) ∧
    (let d := withCmd dev0 { cmd 0x00 [] with discard := true }
     d.cmdOf 1 7 = some { cmd 0x00 [] with discard := true }) ∧
    (let d := { withCmd dev0 (cmd 0x00 []) with cxl := Cxl.reset }
     d.cxl.up = false ∧ d.cmdOf 1 7 = some (cmd 0x00 [])) ∧
    (let d := { withCmd dev0 (cmd 0x00 []) with cxl := { Cxl.reset with up := true } }
     d.cxl.bme = false ∧ d.cxl.up = true ∧ d.cmdOf 1 7 = some (cmd 0x00 [])) ∧
    (let d := { withCmd dev0 (cmd 0x00 []) with cxl := { (withCmd dev0 (cmd 0x00 [])).cxl with d3 := true } }
     d.cxl.d3 = true ∧ d.cxl.up = true ∧ d.cmdOf 1 7 = some (cmd 0x00 [])) := by decide
def last1 (ien : Bool) : Device :=
  { withCmd dev0 (cmd 0x00 []) with host := { (withCmd dev0 (cmd 0x00 [])).host with queues := [(1, { queue1 with cqTail := 15, ien := ien, coalCount := 2, coalTime := 1, coalPosted := 1 })], msix := { Msix.reset with unmasked := 1 } } }
theorem test_completion_wraps :
    (let d := (last1 true).finish (cmd 0x00 []) (cpl .success 0 0 0)
     ((d.queue 1).cqTail, (d.queue 1).cqPhase, d.hostMem.num 0x101E0 2, d.host.msix.sent.length, (d.counter 0 1).value)) = (0, false, 7, 1, 1) := by decide +kernel

/-- The READY device with controller 0 in service (DRAM 0 to 511 lies there), DRAM contents m and host memory h. -/
def memDev (m h : Mem) : Device := { dev0 with mcs := [(0, { MemCtl.reset with st := .run, trained := 15 })], dram := m, hostMem := h }
def hm (m h : Mem) (c : Cmd) : State := st (withCmd (memDev m h) c)

def hostA (a : Nat) : Word := BitVec.ofNat 64 (2 ^ 63 + a)

/-- R209: 64 bytes from host memory to DRAM, from DRAM to host memory, and within DRAM. -/
theorem test_copy_in : (after (.copy 1 7) (hm [] [(0x40, 5)] (cmd 0x10 [hostA 0x40, 0x80, 64]))).map (fun d => (d.dram.byte 0x80, posted d)) = some (5, (0, 0, 64)) := by decide +kernel
theorem test_copy_out : (after (.copy 1 7) (hm [(0x80, 6)] [] (cmd 0x10 [0x80, hostA 0x40, 64]))).map (fun d => d.hostMem.byte 0x40) = some 6 := by decide +kernel
theorem test_copy_host_host : answer (.copy 1 7) (hm [] [] (cmd 0x10 [hostA 0, hostA 0x40, 64])) = some (0x11, 16, 0) := by decide +kernel
theorem test_fill_command : (after (.fill 1 7) (hm [] [] (cmd 0x11 [0x40, 64, 0x0807060504030201]))).map (fun d => (d.dram.byte 0x4A, posted d)) = some (3, (0, 0, 64)) := by decide +kernel
theorem test_bias : (after (.biasSet 1 7) (hm [] [] (cmd 0x12 [0x1000, 0x2000, 1]))).map (fun d => (d.cxl.devBias, (posted d).1)) = some ([1, 2], 0) := by decide +kernel
/-- R390: with a host that may hold copies BIAS_SET to device bias first asks for the lines, and waits; settling a device that touched a line not owned. -/
def caches (c : Cmd) : State := let d := withCmd (memDev [] []) c; st { d with cxl := { d.cxl with cxlMode := true, hdm := true } }
theorem test_bias_asks : (after (.biasSet 1 7) (caches (cmd 0x12 [0x1000, 0x2000, 1]))).map (fun d => (d.cxl.devBias, d.cxl.biasJobs.map (fun j => (j.line, j.stop)), d.host.inflight.map (·.st))) =
    some ([], [(64, 192)], [.running]) := by decide +kernel
theorem witness_settle : let d := (caches (cmd 0 [])).dev
    d.hostCaches = true ∧ ({ d with cxl := { d.cxl with touched := [5], owned := [5] } } : Device).cxl.touched ≠ [] ∧ 5 ∉ d.cxl.owned ∧
      (d.settled { d with cxl := { d.cxl with touched := [5] } }).cxl.asked = [5] ∧ Starts d 0 (cmd 0 []) := by
  refine ⟨by decide +kernel, by decide, by decide, by decide +kernel, (starts_of (masks := []) (by decide)).1⟩
/-- R148: an installed line of the range goes, one outside stays, and the command waits for a fill. -/
def cached (l : List WcFill) (c : Cmd) : State := st ((withCmd dev0 c).setFrond 0 { Frond.reset with wcLines := [⟨1, []⟩, ⟨2, []⟩], wcFills := l })
theorem test_invalidate : (after (.cacheInvalidate 1 7) (cached [] (cmd 0x13 [512, 512, 1]))).map (fun d => ((d.frond 0).wcLines.map (·.line), (posted d).1)) = some ([2], 0) := by decide +kernel
theorem test_invalidate_waits :
    (after (.cacheInvalidate 1 7) (cached [⟨1, [], true⟩] (cmd 0x13 [512, 512, 1]))).map (fun d => ((d.frond 0).wcFills.map (·.install), d.host.inflight.map (·.st))) = some ([false], [.running]) := by decide +kernel

theorem served_hm (m h : Mem) (c : Cmd) : Served (hm m h c).dev 0x80 64 := by
  refine ⟨rfl, ?_⟩
  intro x h1 h2
  obtain rfl : x = 2 := by omega
  have e : ((hm m h c).dev.cwLoc 2).mc = 0 := by
    show (placeDram (dev0.mcsOf 0) 128).mc = 0
    decide +kernel
  exact ⟨by simp only [Device.cwServed, e]; rfl, by rw [e]; show McState.run ≠ McState.frozen; decide⟩
/-- COPY: each bad parameter, into and out of DRAM, one byte beyond alignment; FILL the same. -/
theorem witness_copy : ∀ p ∈ [[hostA 1, 0x80, 64], [hostA 0, 0x81, 64], [hostA 0, hostA 64, (64 : Word)], [hostA 0, 0x80, 0], [hostA 0, 0x80, 63], [hostA 0, 0x80, 64], [0x80, hostA 0, 64]],
    Starts (hm [] [] (cmd 0x10 p)).dev 0x10 (cmd 0x10 p) ∧ Plain (cmd 0x10 p) [addrMask ((cmd 0x10 p).pw 1), addrMask ((cmd 0x10 p).pw 2), 0x000000FFFFFFFFFF] := by
  intro p hp
  simp only [List.mem_cons, List.not_mem_nil, or_false] at hp
  obtain rfl | rfl | rfl | rfl | rfl | rfl | rfl := hp <;> exact starts_of (by decide)
theorem witness_copy_memory (c : Cmd) : Readable (hm [] [] c).dev (hostA 0) 64 ∧ Writable (hm [] [] c).dev 0x80 64 ∧ Writable (hm [] [] c).dev (hostA 0) 64 ∧
    (hm [] [] c).dev.farRange (hostA 0) 64 = false ∧ MemTables (hm [] [] c).dev := by
  refine ⟨?_, ?_, ?_, ?_, ?_⟩
  · show if bitAt (hostA 0) 63 then _ else _
    rw [if_pos (by decide)]; exact ⟨rfl, by decide⟩
  · show if bitAt (0x80 : Word) 63 then _ else _
    rw [if_neg (by decide)]; exact served_hm [] [] c
  · show if bitAt (hostA 0) 63 then _ else _
    rw [if_pos (by decide)]; exact ⟨rfl, by decide⟩
  · rfl
  · refine ⟨rfl, rfl, rfl, rfl, fun m => ⟨?_, ?_⟩⟩
    · by_cases h : m = 0
      · subst h; rfl
      · have : (hm [] [] c).dev.mc m = MemCtl.reset := by simp [Device.mc, hm, st, withCmd, memDev, Sparse.get]; omega
        rw [this]; rfl
    · have : ((hm [] [] c).dev.mc m).ch = [] := by
        by_cases h : m = 0
        · subst h; rfl
        · have : (hm [] [] c).dev.mc m = MemCtl.reset := by simp [Device.mc, hm, st, withCmd, memDev, Sparse.get]; omega
          rw [this]; rfl
      intro ci e he
      simp [MemCtl.chan, this, Sparse.get, Channel.reset] at he
theorem witness_fill_command : ∀ p ∈ [[0x81, 64, 1], [0x80, 0, 1], [0x80, 65, 1], [0x80, 64, (1 : Word)]],
    Starts (hm [] [] (cmd 0x11 p)).dev 0x11 (cmd 0x11 p) ∧ Plain (cmd 0x11 p) [0x00000FFFFFFFFFFF, 0x000000FFFFFFFFFF, 0xFFFFFFFFFFFFFFFF] := by
  intro p hp
  simp only [List.mem_cons, List.not_mem_nil, or_false] at hp
  obtain rfl | rfl | rfl | rfl := hp <;> exact starts_of (by decide)
/-- BIAS_SET: a bad address, an empty range, the last page of die 0, a page beyond it, and a good one; CACHE_INVALIDATE: each bad parameter, all lines, and a range. -/
theorem witness_bias : ∀ p ∈ [[0x1001, 0x1000, 1], [0xC00000000, 0x1000, 1], [0x1000, 0, 1], [0xBFFFFF000, 0x1000, 0], [0xBFFFFF000, 0x2000, 0], [0x1000, 0x2000, (1 : Word)]],
    Starts (hm [] [] (cmd 0x12 p)).dev 0x12 (cmd 0x12 p) ∧ Plain (cmd 0x12 p) [0x00000FFFFFFFFFFF, 0x000000FFFFFFFFFF, 1] := by
  intro p hp
  simp only [List.mem_cons, List.not_mem_nil, or_false] at hp
  obtain rfl | rfl | rfl | rfl | rfl | rfl := hp <;> exact starts_of (by decide)
theorem witness_invalidate : ∀ p ∈ [[513, 512, 1], [512, 511, 1], [512, 512, 0], [512, 512, 1], [0, 0, (0xFF : Word)]], ∀ l ∈ [[], [(⟨1, [], true⟩ : WcFill)]],
    Starts (cached l (cmd 0x13 p)).dev 0x13 (cmd 0x13 p) ∧ Plain (cmd 0x13 p) [0x00000FFFFFFFFFFF, 0x000000FFFFFFFFFF, 0xFF] := by
  intro p hp l hl
  simp only [List.mem_cons, List.not_mem_nil, or_false] at hp hl
  obtain rfl | rfl | rfl | rfl | rfl := hp <;> obtain rfl | rfl := hl <;> exact starts_of (by decide)
theorem witness_invalidate_fronds : Sparse.wf Frond.reset (cached [⟨1, [], true⟩] (cmd 0x13 [])).dev.fronds = true ∧ ((cached [] (cmd 0x13 [])).dev.frond 0).invals = [] := by decide +kernel

/-- A work list at 0: one item at 0x40, one queue at 0xC0 (logical queue 3); DRAM that holds it, with program 2 resident. -/
def workList : Mem := Mem.write [] 0 (([1, 0x40, 0, 0x1000000000C0, 0, 0, 0, 0] ++ freeItem ++ [3]).flatMap fun (w : Word) => leBytes 8 w.toNat)
def runCmd0 : Cmd := cmd 0x21 [0, 0, 99]
def rn (c : Cmd) : State := st { withCmd (memDev workList []) c with sched := { Sched.reset with programs := [⟨2, 100, 50⟩] } }
theorem test_run : (after (.run 1 7) (rn runCmd0)).map (fun d => (d.sched.runs.map (fun r => (r.seed, r.queues)), (d.hq 3).owner, d.host.inflight.map (·.st))) =
    some ([(99, [3])], some (1, 7), [.running]) := by decide +kernel
/-- R212: a work list off its alignment is INVALID_PARAM with DETAIL 8 and FAIL_ITEM all ones. -/
theorem test_run_misaligned : answer (.run 1 7) (rn (cmd 0x21 [8])) = some (0x11, 8, 0xFFFFFFFF00000000) := by decide +kernel
theorem witness_run : ∀ p ∈ [[0, 0, (99 : Word)], [8, 0, 0], [32, 0, 0]],
    Starts (rn (cmd 0x21 p)).dev 0x21 (cmd 0x21 p) ∧
    Plain (cmd 0x21 p) [0x00000FFFFFFFFFFF, 0xF, 0xFFFFFFFFFFFFFFFF, addrMask ((cmd 0x21 p).pw 4), 0x1FFFFFF, addrMask ((cmd 0x21 p).pw 6), addrMask ((cmd 0x21 p).pw 7)] := by
  intro p hp
  simp only [List.mem_cons, List.not_mem_nil, or_false] at hp
  obtain rfl | rfl | rfl := hp <;> exact starts_of (by decide)
def accepted (x : Except Cpl Run × Device) : Bool := match x.1 with
  | .ok _ => true
  | .error _ => false
theorem witness_run_validates : accepted ((rn runCmd0).dev.validate runCmd0) = true ∧ accepted ((rn runCmd0).dev.validate (cmd 0x21 [8])) = false ∧ (rn runCmd0).dev.activeRunCount = 0 := by
  decide +kernel
theorem witness_run_ring : RingOk runCmd0 ∧ ¬RingOk (cmd 0x21 [0, 0, 0, 0, 100]) ∧ Starts (rn (cmd 0x21 [0, 0, 0, 0, 100])).dev 0x21 (cmd 0x21 [0, 0, 0, 0, 100]) ∧
    Sparse.wf HQueue.reset (rn runCmd0).dev.hqs = true := by
  refine ⟨?_, ?_, (starts_of (masks := List.replicate 7 0xFFFFFFFFFFFFFFFF) (by decide)).1, by decide +kernel⟩
  · exact ⟨by decide +kernel, by decide +kernel, by decide +kernel, fun h => absurd (by decide +kernel) h, by decide +kernel, by decide +kernel⟩
  · intro h
    exact absurd (h.2.2.2.1 (by decide +kernel)).1 (by decide +kernel)
/-- The 64 RUNs at which a further one waits. -/
theorem witness_run_limit : let d := { dev0 with sched := { dev0.sched with runs := (List.range 64).map fun n => { run0 with tag := n } } }
    d.activeRunCount = 64 := by decide +kernel

/-- LOAD_PROGRAM: one broadcast runs; fiddlehead service with another die; an image shorter than its header. -/
def lp (sp : Option Spore) (r : DevState) (p : List Word) : State :=
  let d := withCmd (memDev [] []) (cmd 0x20 p)
  st { d with sched := { d.sched with spore := sp }, rst := { d.rst with st := r } }
def spore0 : Spore := { cmd := none, image := 0, base := 0, body := [0], dies := 1, prog := 0, hdr := [], setupDone := true, queue := [], asked := [], missing := [], sent := false, tiles := [], loaded := 0, excluded := 0 }
theorem test_load_short : answer (.loadProgram 1 7) (lp none .ready [0, 255, 0x100000000]) = some (0x11, 0x8007, 0) := by decide +kernel
theorem witness_load : ∀ e ∈ [(some spore0, DevState.ready, [0, 256, (0x100000000 : Word)]), (none, .fiddlehead, [0, 256, 0x300000000]), (none, .ready, [0, 255, 0x100000000])],
    Starts (lp e.1 e.2.1 e.2.2).dev 0x20 (cmd 0x20 e.2.2) ∧ Plain (cmd 0x20 e.2.2) [0x00000FFFFFFFFFFF, 0xFFFFFFFF, 0xFF3FFFFFFF] := by
  intro e he
  simp only [List.mem_cons, List.not_mem_nil, or_false] at he
  obtain rfl | rfl | rfl := he <;> exact starts_of (by decide)
/-- A program image of no instruction at 0, in DRAM of three controllers, with an owner record in the flash and no OWNER_HASH. -/
def imageDev : Device :=
  { dev0 with
    mcs := (List.range 3).map fun n => (n, { MemCtl.reset with st := .run, trained := 15 })
    dram := [(0, 0xDE), (1, 0xC0), (2, 0x17), (3, 0xAE), (4, 1), (6, 1), (0x1D, 1), (0x100, 0x3A)]
    flash := [(0x20000, 1), (0x20001, 7)] }
theorem image_passes {d : Device} {keys : List (List Byte)} {a : Word} {n : Nat} (d1 : Device) (h : List Byte) (h1 : 256 ≤ n) (h2 : ∀ k, d.farRange a k = false)
    (h3 : d.addrRead (!d.sec.recovery) a 256 = (.success, h, d1)) (h2' : ∀ k, d1.farRange a k = false) (h4 : imgForm false h n = true)
    (h5 : (d1.addrRead (!d1.sec.recovery) a (imgSig h + 1280)).1 = .success)
    (h6 : imgFault keys (d1.addrRead (!d1.sec.recovery) a (imgSig h + 1280)).2.2.svc (d1.addrRead (!d1.sec.recovery) a (imgSig h + 1280)).2.1 = none) :
    ∃ img d', d.readImage false keys a n = (.ok img, d') := by
  unfold Device.readImage
  rw [if_neg (by omega)]
  rcases e2 : d1.addrRead (!d1.sec.recovery) a (imgSig h + 1280) with ⟨st, img, d2⟩
  rw [e2] at h5 h6
  simp only at h5 h6
  subst h5
  exact ⟨img, d2, by simp [h2, h2', h3, h4, e2, h6]⟩
/-- Whatever the standards the spec names do (log entry 3): if this signature verifies and this digest matches, the image passes. -/
theorem witness_load_image (hk : ∀ k m x, Config.falconVerify k m x = true) (hd : Config.shake256 [] 64 = List.replicate 64 0) :
    ∃ img d', imageDev.readImage false imageDev.contentKeys 0 0x600 = (.ok img, d') := by
  have hb : imgSig (imageDev.addrRead (!imageDev.sec.recovery) 0 256).2.1 + 1280 = 1536 := by decide +kernel
  refine image_passes (imageDev.addrRead (!imageDev.sec.recovery) 0 256).2.2 (imageDev.addrRead (!imageDev.sec.recovery) 0 256).2.1 (by decide) (fun k => rfl)
    (Prod.ext (by decide +kernel) rfl) (fun k => rfl) (by decide +kernel) (by rw [hb]; decide +kernel) ?_
  rw [hb]
  generalize hd1 : (imageDev.addrRead (!imageDev.sec.recovery) 0 256).2.2 = d1
  generalize he : (d1.addrRead (!d1.sec.recovery) 0 1536).2.1 = img
  have h1 : (img.take 256 |> imgSig) = 256 := by subst hd1 he; decide +kernel
  have h2 : ((img.drop 256).take 1280).length = 1280 ∧ ((img.drop 256).take 1280).headD 0 = 0x3A := by subst hd1 he; decide +kernel
  have h3 : imgBody (img.take 256) = 0 ∧ imgVersion (img.take 256) = 0 ∧ imgDigest (img.take 256) = List.replicate 64 0 := by subst hd1 he; decide +kernel
  have h4 : imageDev.contentKeys ≠ [] := by decide +kernel
  have h5 : (d1.addrRead (!d1.sec.recovery) 0 1536).2.2.svc = 0 := by subst hd1; decide +kernel
  unfold imgFault
  obtain ⟨k, l, hc⟩ := List.exists_cons_of_ne_nil h4
  simp only [h1, h3, h5, hc, sigOk, hk, h2, hd, List.take_zero]
  simp

/-- ABORT: of a command that is done, of no RUN, of one that completes, waits and runs. -/
def ab (x : Cmd) : State := st { withCmd dev0 (cmd 0x22 [0x00090001]) with host := { (withCmd dev0 (cmd 0x22 [0x00090001])).host with inflight := [{ x with tag := 9 }, cmd 0x22 [0x00090001]] } }
theorem test_abort_queued : (after (.abort 1 7) (ab (cmd 0x21 []))).map (fun d => (d.host.inflight.length, d.hostMem.num 0x10002 1, d.hostMem.num 0x10022 1)) = some (0, 3, 0) := by decide +kernel
theorem test_abort_done : answer (.abort 1 7) (hc (cmd 0x22 [0x00090001])) = some (2, 0, 0) := by decide +kernel
theorem witness_abort : ∀ x ∈ [cmd 0x00 [], { cmd 0x21 [] with st := .completing }, cmd 0x21 [], { cmd 0x21 [] with st := .running }],
    Starts (ab x).dev 0x22 (cmd 0x22 [0x00090001]) ∧ Plain (cmd 0x22 [0x00090001]) [0xFFFF003F] ∧ (ab x).dev.cmdOf 1 9 = some { x with tag := 9 } := by
  intro x hx
  simp only [List.mem_cons, List.not_mem_nil, or_false] at hx
  obtain rfl | rfl | rfl | rfl := hx <;> exact and_assoc.mp ⟨starts_of (by decide), by decide⟩

/-- A fabric image at 0 for die 0 (KIND 0) or patch 0 (KIND 1): header, signature bytes at 0x200, one section of one record at 0x700. -/
def fabImage (kind : List Host.Cell) (start : List Host.Cell) : Mem :=
  [(0, 0xB0), (1, 0xF1), (2, 0x17), (3, 0xAE), (4, 1)] ++ kind ++ [(0x25, 2), (0x41, 7), (0x44, 0x20), (0x45, 2), (0x48, 0x80), (0x200, 0x3A),
    (0x700, 0x0F), (0x701, 0x5C), (0x702, 0x17), (0x703, 0xAE)] ++ start
/-- The die's section starts its static region; the patch's starts patch 0. -/
def fullImage : Mem := fabImage [] [(0x706, 0x80), (0x707, 7), (0x708, 1), (0x70E, 1)]
def patchImage : Mem := fabImage [(6, 1)] [(0x708, 1), (0x70C, 1)]

/-- A READY device with controllers 0 to 4 in service, those contents, an owner record in the flash and no OWNER_HASH. -/
def fabDev (m : Mem) : Device :=
  { dev0 with mcs := (List.range 5).map fun n => (n, { MemCtl.reset with st := .run, trained := 15 }), dram := m, flash := [(0x20000, 1), (0x20001, 7)] }

/-- The header, the section's start and the signature, read one after the other from an unencrypted image at a, are what checkImage asks for, but that the
signature is one (12 R307-R309); e1, e2, e3 are the devices after the three reads. -/
structure Passing (d e1 e2 e3 : Device) (kind target a len k i : Nat) (h l sg : List Byte) : Prop where
  header : d.srcRead false a 0x200 = (.success, h, e1)
  long : 0x200 ≤ len
  form : imageForm kind h len = true ∧ (kind = 1 → (secValids h).length = 1) ∧ hdrEnc h = false
  entry : (secValids h).find? (fun j => secDie h j == k) = some i
  start : e1.srcRead false (a + secOffset h i) 20 = (.success, l, e2)
  fits : e2.secStart k target (hdrEnc h) (secLen h i) l = true
  signed : e2.srcRead false (a + hdrSig h) 1280 = (.success, sg, e3)
  version : ¬leAt h 8 8 < e3.svc

theorem check_passes {d e1 e2 e3 : Device} {kind target a len k i : Nat} {h l sg : List Byte} (p : Passing d e1 e2 e3 kind target a len k i h l sg)
    (key : e3.contentKeys.any (fun y => sigOk y lblImg h sg) = true) : ∃ x d', d.checkImage kind false a len [k] target = (.ok x, d') := by
  refine ⟨(h, [(k, i)]), e3, ?_⟩
  have one : (kind == 1 && (secValids h).length != 1) = false := by
    by_cases hk : kind = 1
    · simp [p.form.2.1 hk]
    · simp [hk]
  have sections : Device.checkSections false a target h [k] e1 = (.ok [(k, i)], e2) := by
    simp only [Device.checkSections, p.entry, p.start, p.fits, if_true]
  unfold Device.checkImage
  rw [if_neg (Nat.not_lt.mpr p.long), p.header]
  simp only [p.form.1, one, sections, p.form.2.2, p.signed, key, p.version, Bool.not_true, Bool.false_and, Bool.or_false, Bool.false_eq_true, if_false]

/-- The device, the header, the section's start and the signature that the three reads of an image at 0 give. -/
def afterHeader (d : Device) : List Byte × Device := (d.srcRead false 0 0x200).2
def afterStart (d : Device) : List Byte × Device := ((afterHeader d).2.srcRead false (0 + secOffset (afterHeader d).1 0) 20).2
def afterSig (d : Device) : List Byte × Device := ((afterStart d).2.srcRead false (0 + hdrSig (afterHeader d).1) 1280).2

theorem passing (kind target : Nat) (m : Mem) (h : (kind, target, m) = (0, 15, fullImage) ∨ (kind, target, m) = (1, 0, patchImage)) :
    Passing (fabDev m) (afterHeader (fabDev m)).2 (afterStart (fabDev m)).2 (afterSig (fabDev m)).2 kind target 0 0x920 0 0
      (afterHeader (fabDev m)).1 (afterStart (fabDev m)).1 (afterSig (fabDev m)).1 := by
  obtain h | h := h <;> cases h <;>
    exact ⟨Prod.ext (by decide +kernel) rfl, by decide, by decide +kernel, by decide +kernel, Prod.ext (by decide +kernel) rfl, by decide +kernel,
      Prod.ext (by decide +kernel) rfl, by decide +kernel⟩

/-- Whatever the standard's signatures do (log entry 3): if this one verifies, the image passes; FABRIC_LOAD's and PATCH_LOAD's. -/
theorem witness_check_image (hk : ∀ k m x, Config.falconVerify k m x = true) :
    (∃ x d', (fabDev fullImage).checkImage 0 false 0 0x920 [0] 15 = (.ok x, d')) ∧
    ∃ x d', (fabDev patchImage).checkImage 1 false 0 0x920 [0] 0 = (.ok x, d') := by
  constructor
  · refine check_passes (passing 0 15 _ (.inl rfl)) ?_
    rw [List.any_eq_true]
    simp only [sigOk, hk, Bool.and_true]
    exact List.any_eq_true.mp (by decide +kernel)
  · refine check_passes (passing 1 0 _ (.inr rfl)) ?_
    rw [List.any_eq_true]
    simp only [sigOk, hk, Bool.and_true]
    exact List.any_eq_true.mp (by decide +kernel)

/-- A command of the fabric on the device d. -/
def fc (d : Device) (c : Cmd) : State := st (withCmd d c)
theorem test_fabric_load_short : answer (.fabricLoad 1 7) (fc dev0 (cmd 0x30 [0, 0x1FF, 1])) = some (0x11, 0x8007, 0) := by decide +kernel
theorem test_patch_load_address : answer (.patchLoad 1 7) (fc dev0 (cmd 0x31 [1, 0, 0])) = some (0x11, 8, 0) := by decide +kernel
def load0 : Load :=
  { cmd := some (2, 5), kind := .patch 0, die := 0, flash := false, sect := 0, len := 544, hdr := [], entry := 0, phase := .clearing, taken := [], steps := [], started := [], failing := none }
def busyDev : Device := { dev0 with fab := { dev0.fab with loads := [load0] } }
/-- R200: REGION_BUSY carries the tag of the command whose load it is. -/
theorem test_patch_clear_busy : answer (.patchClear 1 7) (fc busyDev (cmd 0x32 [])) = some (0x33, 5, 0) := by decide +kernel
theorem test_patch_clear : (after (.patchClear 1 7) (fc dev0 (cmd 0x32 [0, 0, 1]))).map (fun d => ((d.region 1).st, (d.region 1).isolated, d.fab.loads.length)) = some (.clearing, true, 1) := by decide +kernel
/-- Region 1 is ACTIVE; encrypted or not. -/
def actDev (enc : Bool) : Device := { dev0 with pwr := { dev0.pwr with time := [(0, 77)] } }.setRegion 1 { Region.reset with st := .active, enc := enc, passes := 3, lock := true, isolated := false }
theorem test_capture_denied : answer (.capture 1 7) (fc (actDev true) (cmd 0x33 [0, 0, 1])) = some (0x11, 24, 0) := by decide +kernel
theorem test_capture_blank : answer (.capture 1 7) (fc dev0 (cmd 0x33 [0, 0, 1])) = some (0x12, 0, 0) := by decide +kernel
theorem test_readback_range : answer (.readback 1 7) (fc dev0 (cmd 0x34 [0x8000000000100000, 31 + 2 * 2 ^ 27, 2])) = some (0x11, 24, 0) := by decide +kernel
theorem test_scrub_period : answer (.scrubSetPeriod 1 7) (fc (actDev false) (cmd 0x35 [0, 9, 1])) = some (0x11, 16, 3) := by decide +kernel
theorem test_scrub_period_set : (after (.scrubSetPeriod 1 7) (fc (actDev false) (cmd 0x35 [0, 10000, 1]))).map (fun d => ((d.region 1).period, posted d)) = some (10000, (0, 0, 3)) := by decide +kernel
theorem test_scrub_pause : (after (.scrubPause 1 7) (fc (actDev false) (cmd 0x35 [1, 0, 1]))).map (fun d => (d.region 1).paused) = some true := by decide +kernel
theorem test_scrub_resume : (after (.scrubResume 1 7) (fc (actDev false) (cmd 0x35 [2, 0, 1]))).map (fun d => (d.region 1).paused) = some false := by decide +kernel
theorem test_scrub_rebuild_blank : (answer (.scrubRebuild 1 7) (fc dev0 (cmd 0x35 [3, 0, 1]))).map (·.1) = some 0x11 := by decide +kernel
theorem test_gpio_release :
    (after (.gpioReleaseKeepers 1 7) (st { withCmd dev0 (cmd 0x36 [1, 1]) with fab := { dev0.fab with keepers := [(0, (true, true, padDefault)), (1, (true, true, padDefault))] } })).map (fun d => d.fab.keepers) =
      some [(1, (true, true, padDefault))] := by decide +kernel
/-- A reserved bit of P3. -/
theorem test_gpio_read_reserved : answer (.gpioRead 1 7) (fc dev0 (cmd 0x36 [0, 0, 1])) = some (0x11, 24, 0) := by decide +kernel

theorem witness_fabric_starts : ∀ e ∈ [(0x30, [1, 0, (1 : Word)], [0x00000FFFFFFFFFFF, 0xFFFFFFFF, 0xFF]), (0x30, [0, 0x1FF, 1], [0x00000FFFFFFFFFFF, 0xFFFFFFFF, 0xFF]),
      (0x31, [1, 0, 0], [0x00000FFFFFFFFFFF, 0xFFFFFFFF, 0x3FF]), (0x31, [0, 0x1FF, 0], [0x00000FFFFFFFFFFF, 0xFFFFFFFF, 0x3FF]), (0x32, [0, 0, 0], [0, 0, 0x3FF]), (0x32, [0, 0, 63], [0, 0, 0x3FF]),
      (0x33, [0, 0, 1], [0, 0, 0x3FF]), (0x33, [0, 0, 0x3C0], [0, 0, (0x3FF : Word)])], ∀ d ∈ [dev0, busyDev, actDev true, actDev false],
    Starts (fc d (cmd e.1 e.2.1)).dev e.1.toNat (cmd e.1 e.2.1) ∧ Plain (cmd e.1 e.2.1) e.2.2 := by
  intro e he d hd
  simp only [List.mem_cons, List.not_mem_nil, or_false] at he hd
  obtain rfl | rfl | rfl | rfl | rfl | rfl | rfl | rfl := he <;> obtain rfl | rfl | rfl | rfl := hd <;> exact starts_of (by decide +kernel)
def failsWith (x : Except Cpl (List Byte × List (Nat × Nat))) : Bool :=
  match x with
  | .ok _ => false
  | .error p => p == cplStruct 7 0
theorem witness_fabric_checks : failsWith (dev0.checkImage 0 false 0 0x1FF [0] 15).1 = true ∧ failsWith (dev0.checkImage 1 false 0 0x1FF [0] 0).1 = true ∧
    Sparse.wf Region.reset (actDev true).fab.regions = true ∧ Mem.wf dev0.fab.cfg = true ∧ (∀ l ∈ dev0.fab.loads, l.die ∉ [0]) ∧ KeepersOk dev0 := by
  refine ⟨by decide +kernel, by decide +kernel, by decide +kernel, by decide, by decide, by simp [KeepersOk, dev0, Device.reset, Fabric.reset]⟩
theorem witness_names : Names dev0 false 0 0 ∧ Names dev0 false 63 70 ∧ Names dev0 true 0x3C0 71 ∧ Unused dev0 0 ∧ Uses busyDev 0 5 ∧ Unused busyDev 1 := by
  refine ⟨.inl ⟨by decide, by decide, by decide, by decide⟩, .inl ⟨by decide, by decide, by decide, by decide⟩, .inr ⟨by decide, by decide, rfl, by decide⟩, ⟨?_, ?_⟩,
    .inl ⟨[], load0, [], rfl, by decide, .inr (by decide), by simp, rfl⟩, ⟨?_, ?_⟩⟩
  · intro l hl; exact absurd hl (by simp [dev0, Device.reset, Fabric.reset])
  · intro l hl; exact absurd hl (by simp [dev0, Device.reset, Fabric.reset])
  · intro l hl; simp [busyDev] at hl; subst hl; decide
  · intro l hl; exact absurd hl (by simp [busyDev, dev0, Device.reset, Fabric.reset])
/-- A whole-die load works on every region of the die; a CAPTURE that waits for its patch to wake holds its region. -/
theorem witness_uses_full : Uses { dev0 with fab := { dev0.fab with loads := [{ load0 with kind := .full }] } } 8 5 ∧
    Uses { dev0 with fab := { dev0.fab with captures := [(1, 9, 3)] } } 3 9 :=
  ⟨.inl ⟨[], { load0 with kind := .full }, [], rfl, by decide, .inl rfl, by simp, rfl⟩,
    .inr ⟨(by intro l hl; cases hl), [], (1, 9, 3), [], rfl, rfl, by simp, rfl⟩⟩
theorem test_capture_busy : answer (.scrubPause 1 7) (fc { dev0 with fab := { dev0.fab with captures := [(1, 9, 1)] } } (cmd 0x35 [1, 0, 1])) = some (0x33, 9, 0) := by decide +kernel
/-- The regions a capture finds: not ACTIVE, denied, allowed; and SCRUB_CTL's periods at 9, 10, 10,000 and 10,001 with each OP. -/
theorem witness_capture : (dev0.region 1).st ≠ .active ∧ ((actDev true).region 1).st = .active ∧ ((actDev true).region 1).enc = true ∧ ((actDev true).region 1).captureOk = false ∧
    (actDev true).sec.session = 0 ∧ ((actDev false).region 1).enc = false ∧ (actDev false).dom (domPatch (regionPatch 1)) = .run := by decide
theorem witness_scrub_ctl : ∀ p ∈ [[0, 9, 1], [0, 10, 1], [0, 10000, 1], [0, 10001, (1 : Word)], [1, 0, 1], [2, 0, 1], [3, 0, 1]],
    Starts (fc (actDev false) (cmd 0x35 p)).dev 0x35 (cmd 0x35 p) ∧ Plain (cmd 0x35 p) [3, 0x3FFF, 0x3FF] := by
  intro p hp
  simp only [List.mem_cons, List.not_mem_nil, or_false] at hp
  obtain rfl | rfl | rfl | rfl | rfl | rfl | rfl := hp <;> exact starts_of (by decide +kernel)
/-- SCRUB rebuilds: a section in the flash whose CRC matches and one whose CRC does not. -/
theorem witness_rebuild :
    let d := { (dev0.setRegion 1 { Region.reset with st := .active, source := some (true, 0, 8) }) with flash := [(0, 0), (1, 0), (2, 0), (3, 0), (4, 0xC7), (5, 0x4B), (6, 0x67), (7, 0x48)] }
    (d.region 1).source = some (true, 0, 8) ∧ d.srcRead true 0 8 = (.success, d.flashRead 0 8, d) ∧ (crc32c ((d.flashRead 0 8).take 4)).toNat = leAt (d.flashRead 0 8) 4 4 ∧
      (let e := { d with flash := [(0, 0), (1, 0), (2, 0), (3, 0), (4, 0)] }
      (crc32c ((e.flashRead 0 8).take 4)).toNat ≠ leAt (e.flashRead 0 8) 4 4) := by
  refine ⟨by decide +kernel, rfl, by decide +kernel, by decide +kernel⟩
/-- READBACK: the last capture frame of a patch, and one beyond it; a configuration frame; GPIO_CTL. -/
theorem witness_readback : ∀ p ∈ [[0x8000000000100000, 0x1000001F, (1 : Word)], [0x8000000000100000, 0x1000001F, 2], [0x8000000000100000, 5007, 1]],
    (Starts (fc dev0 (cmd 0x34 p)).dev 0x34 (cmd 0x34 p) ∧ Plain (cmd 0x34 p) [addrMask ((cmd 0x34 p).pw 1), 0xFFFFFFFF, 0x7FFFFF]) ∧
      faRegion (fld ((cmd 0x34 p).pw 2) 0 32) = some 0 ∧ dev0.regionOn 0 = true ∧ faOk (fld ((cmd 0x34 p).pw 2) 0 32) = true := by
  intro p hp
  simp only [List.mem_cons, List.not_mem_nil, or_false] at hp
  obtain rfl | rfl | rfl := hp <;> exact ⟨starts_of (by decide +kernel), by decide +kernel⟩
theorem witness_gpio : ∀ p ∈ [[0, 0], [(1 : Word), 1]], Starts (fc dev0 (cmd 0x36 p)).dev 0x36 (cmd 0x36 p) ∧ Plain (cmd 0x36 p) [0xFFFFFFFFFFFFFFFF, 1] := by
  intro p hp
  simp only [List.mem_cons, List.not_mem_nil, or_false] at hp
  obtain rfl | rfl := hp <;> exact starts_of (by decide)

/-- Region 0 as x, the loads l, and the flash f. -/
def ld (x : Region) (l : List Load) (f : Mem) : State := st { dev0.setRegion 0 x with fab := { (dev0.setRegion 0 x).fab with loads := l, cfg := [(3, 9), (512 * 2 ^ 23, 8)] }, flash := f }

/-- The first five words of a section for patch 0: two records, FCLK 1 for region 0. -/
def sec0 : List Byte := leBytes 4 0xAE175C0F ++ leBytes 4 0 ++ leBytes 4 2 ++ leBytes 4 1 ++ leBytes 4 0
def load1 (ph : LoadPhase) (taken : List Byte) : Load := { load0 with flash := true, phase := ph, len := 0x1000, taken := taken, hdr := List.replicate 512 0 }

/-- R313: the clear of patch 0 ends: its frames are zero, those of patch 1 stand, and the writing pass begins. -/
theorem test_clear_done :
    (after (.configClearDone 0) (ld { Region.reset with st := .clearing } [load0] [])).map (fun d => (d.fab.cfg, (d.region 0).st, d.fab.loads.map (·.phase))) =
      some ([(512 * 2 ^ 23, 8)], .writing, [.writing]) := by decide +kernel
/-- A record whose frame address is all ones is out of its region: the verification pass ends and nothing is touched. -/
theorem test_frame_bad :
    (after (.configFrame 0) (ld Region.reset [{ load1 .verifying sec0 with cmd := none }] [])).map (fun d => (d.fab.loads, d.fab.cfg.length)) = some ([], 2) := by decide +kernel
def starting (s : List Nat) : Load := { load1 .starting [] with steps := s, started := [0], cmd := none }
theorem test_startup_step :
    (after (.startupStep 0) (ld { Region.reset with st := .starting, lock := true } [starting [2, 1, 3]] [])).map (fun d => ((d.region 0).gsr, (d.region 0).isolated, d.fab.loads.map (·.steps))) =
      some (false, true, [[1, 3]]) := by decide +kernel
theorem test_startup_waits : (after (.startupStep 0) (ld { Region.reset with st := .starting } [starting [2, 1, 3]] [])).map (fun d => d.fab.loads.map (·.steps)) = some [[2, 1, 3]] := by decide +kernel
theorem test_lock_timeout :
    (after (.dllLockTimeout 0) (ld { Region.reset with st := .starting } [starting [2, 1, 3]] [])).map (fun d => ((d.region 0).st, d.fab.loads.map (·.failing))) = some (.clearing, [some .notReady]) := by decide +kernel

theorem witness_load_events :
    (let d := (ld { Region.reset with st := .clearing } [load0] []).dev
     LoadIs d 0 (fun p => decide (p = .clearing)) load0 ∧ load0.region = some 0 ∧ d.regionOn 0 = true ∧ load0.kind = .patch 0 ∧ load0.failing = none ∧
       Sparse.wf Region.reset d.fab.regions = true ∧ d.fab.cfg.wf = true) ∧
    (let l := { load0 with failing := some .notReady, cmd := none }
     LoadIs (ld { Region.reset with st := .clearing } [l] []).dev 0 (fun p => decide (p = .clearing)) l ∧ l.region = some 0) ∧
    (∀ l ∈ [{ load0 with kind := .clear 0 }, { load0 with kind := .full, failing := some .invalidParam }],
     LoadIs (ld { Region.reset with st := .clearing } [l] []).dev 0 (fun p => decide (p = .clearing)) l) := by
  refine ⟨⟨⟨[], [], rfl, by decide, by decide, by simp⟩, by decide, by decide, by decide, by decide, by decide +kernel, by decide⟩, ⟨⟨[], [], rfl, by decide, by decide, by simp⟩, by decide⟩, ?_⟩
  intro l hl
  simp only [List.mem_cons, List.not_mem_nil, or_false] at hl
  obtain rfl | rfl := hl <;> exact ⟨[], [], rfl, by decide, by decide, by simp⟩
/-- CONFIG_FRAME: a word of the section's start, a good record in each pass, and a record that is out of its place. -/
theorem witness_config_frame : ∀ e ∈ [(LoadPhase.verifying, ([] : List Byte), ([] : Mem)), (.writing, sec0, [(20, 0), (21, 0), (22, 0), (23, 0)]), (.verifying, sec0, [(20, 0), (21, 0), (22, 0), (23, 0)]), (.verifying, sec0, [])],
    let l := load1 e.1 e.2.1
    let d := (ld Region.reset [l] e.2.2).dev
    LoadIs d 0 (fun p => decide (p = .verifying) || decide (p = .writing)) l ∧
      d.srcRead l.flash (l.sect + l.taken.length) l.unit = (.success, d.flashRead (l.sect + l.taken.length) l.unit, d) ∧
      l.unit = (if e.2.1 = [] then 4 else 516) ∧
      (e.2.2 ≠ [] → recordFault l.die (secWord l.taken 3) 0 (leAt (d.flashRead 20 516) 0 4) none = none ∧ 0 + 1 < secWord l.taken 2) ∧
      (e.2.2 = [] → e.2.1 ≠ [] → faOk (leAt (d.flashRead 20 516) 0 4) = false) := by
  intro e he
  simp only [List.mem_cons, List.not_mem_nil, or_false] at he
  obtain rfl | rfl | rfl | rfl := he <;> exact ⟨⟨[], [], rfl, by decide, by decide, by simp⟩, rfl, by decide +kernel, by decide +kernel, by decide +kernel⟩
/-- STARTUP_STEP: each step with others to come, and the last one; the lock time-out with and without lock. -/
theorem witness_startup : ∀ s ∈ [[1, 2, 3], [2, 1, 3], [3, 2, 1], [3]], ∀ b ∈ [true, false],
    let d := (ld { Region.reset with st := .starting, lock := b } [starting s] []).dev
    LoadIs d 0 (fun p => decide (p = .starting)) (starting s) ∧ (∀ g ∈ (starting s).started, (d.region g).lock = b) ∧ (starting s).steps = s ∧ 0 ∈ (starting s).started := by
  intro s hs b hb
  simp only [List.mem_cons, List.not_mem_nil, or_false] at hs hb
  obtain rfl | rfl | rfl | rfl := hs <;> obtain rfl | rfl := hb <;>
    exact ⟨⟨[], [], rfl, by decide, by decide, by simp⟩, by decide +kernel, by decide, by decide⟩

/-- Region 0 in service, as scrubbing finds it. -/
def scrub (x : Region) : State := st (dev0.setRegion 0 { x with st := .active, lock := true, isolated := false })
theorem test_dll_lock : (after (.dllLock 0) (st (dev0.setRegion 0 { Region.reset with st := .starting }))).map (fun d => (d.region 0).lock) = some true := by decide +kernel
theorem test_lock_loss : (after (.dllLockLoss 0) (scrub Region.reset)).map (fun d => ((d.region 0).isolated, (d.fport (fportKey 0 0)).lockLoss.value, (d.fport (fportKey 0 2)).lockLoss.value)) = some (true, 1, 0) := by decide +kernel
theorem test_pass_start : (after (.scrubPassStart 0) (scrub { Region.reset with frame := 7, nextPeriod := 10 })).map (fun d => ((d.region 0).passing, (d.region 0).frame, (d.region 0).period)) = some (true, 0, 10) := by decide +kernel
theorem test_frame_uncorrectable : (after (.scrubFrameRead 0 [] .uncorrectable) (scrub { Region.reset with passing := true })).map (fun d => (d.region 0).unverified) = some true := by decide +kernel
/-- A frame of zeros under a golden signature of 0: read again. -/
theorem test_frame_wrong : (after (.scrubFrameRead 0 [] .clean) (scrub { Region.reset with passing := true })).map (fun d => ((d.region 0).reread, (d.region 0).frame)) = some (true, 0) := by decide +kernel
theorem test_watchdog : (after (.scrubWatchdog 0) (scrub { Region.reset with passes := 4, seenPasses := 4 })).map (fun d => (d.fab.stalled, d.rst.fatal)) = some ([0], true) := by decide +kernel

theorem witness_lock_and_scrub : ∀ g ∈ [0, 8, 71],
    let d := dev0.setRegion g { Region.reset with st := .active, lock := true, passing := true }
    Sparse.wf Region.reset d.fab.regions = true ∧ Sparse.wf FPort.reset d.fab.ports = true ∧ Sparse.wf Counter.zero d.ctrs = true ∧ d.fab.cfg.wf = true ∧ (d.region g).lock = true ∧
      Checked (d.region g) ∧ (d.region g).passing = true ∧ d.regionOn g = true ∧ (d.region g).passes = (d.region g).seenPasses := by
  intro g hg
  simp only [List.mem_cons, List.not_mem_nil, or_false] at hg
  obtain rfl | rfl | rfl := hg <;> (simp only [Checked]; decide +kernel)
/-- A frame that is right, and one that is wrong, read once and twice, without a source and with one in the flash whose record is right. -/
def goldenOf : BitVec 16 := Region.reset.signature 0 0 ((dev0.flashRead 24 512))
theorem witness_scrub_frame :
    (let x := { Region.reset with golden := [(0, Region.reset.signature 0 0 (dev0.frame 0))] }
     x.signature 0 x.frame (upsetBits (dev0.frame 0) []) = Sparse.get 0 x.golden x.frame) ∧
    (Region.reset.signature 0 0 (upsetBits (dev0.frame 0) [(4095, true)]) ≠ 0) ∧
    (let x := { Region.reset with reread := true, source := some (true, 0, 536), golden := [(0, goldenOf)] }
     x.source = some (true, 0, 536) ∧ x.reread = true ∧
       x.signature 0 x.frame (plainFrame [] x.iv x.enc (x.first + x.frame) (dev0.flashRead (0 + 24 + 516 * (x.first + x.frame)) 512)) = Sparse.get 0 x.golden x.frame) := by
  refine ⟨rfl, by decide +kernel, rfl, rfl, rfl⟩
theorem witness_watchdog :
    let d := dev0.setRegion 0 { Region.reset with st := .active, passes := 4, seenPasses := 3 }
    (d.region 0).passes ≠ (d.region 0).seenPasses ∧ (d.region 1).st = .blank ∧ Checked (d.region 0) := by
  refine ⟨by decide, by decide, ?_⟩; simp only [Checked]; decide

/-- Port A of patch 0, live. -/
def fpR : Nat := patchRouter 0 false
def fpN : Nat := 2 * fpR + 1
def fp (x : FPort) : State := st ((dev0.setRegion 0 { Region.reset with st := .active, lock := true, isolated := false }).setFport fpN x)
def beat (op a : Nat) : IqBeat := ⟨BitVec.ofNat 2 op, 9, BitVec.ofNat 44 a, 0, 7, 1, true, 1, 3, 0, 0, 0, 0, false⟩
def outOf (d : Device) : List (Option Nat × Nat) := (Sparse.get [] (d.router fpR).outbox 1).map fun e => (e.1, e.2.type)
theorem test_iq_read : (after (.iqRequest fpR 1 ⟨(beat 0 0x40), ⟨0, 0⟩⟩) (fp FPort.reset)).map (fun d => ((d.fport fpN).iq.length, outOf d)) = some (1, [(some 0x40, 1)]) := by decide +kernel
theorem test_iq_misaligned : (after (.iqRequest fpR 1 ⟨(beat 0 0x41), ⟨0, 0⟩⟩) (fp FPort.reset)).map (fun d => (d.fport fpN).irOut) = some [.done 9 0x11] := by decide +kernel
theorem test_iq_hop : (after (.iqRequest fpR 1 ⟨(beat 3 0), ⟨0, 0⟩⟩) (fp FPort.reset)).map outOf = some [(none, 6)] := by decide +kernel
/-- A target READ of 64 bytes from router 0, port 1, under TTAG 5. -/
def treq : TReq := ⟨5, mkRead false ⟨0, 1⟩ 3 0x20000000000 64, [], 1, none⟩
theorem test_tr_response : (after (.trResponse fpR 1 ⟨⟨5, 0, 7, true⟩, ⟨0, 0⟩⟩) (fp { FPort.reset with tq := [treq] })).map (fun d => ((d.fport fpN).tq, outOf d)) = some ([], [(none, 4)]) := by decide +kernel
theorem test_tr_late : (after (.trResponse fpR 1 ⟨⟨4, 0, 7, true⟩, ⟨0, 0⟩⟩) (fp { FPort.reset with tq := [treq] })).map (fun d => (d.fport fpN).late.value) = some 1 := by decide +kernel
theorem test_tgt_timeout : (after (.tgtTimeout fpR 1 ⟨5, ⟨0, 0⟩⟩) (fp { FPort.reset with tq := [treq] })).map (fun d => ((d.fport fpN).tq, (d.fport fpN).timeouts.value)) = some ([], 1) := by decide +kernel
theorem test_sleep_ok : (after (.sleepOkChange 0 true) (fp FPort.reset)).map (fun d => (d.region 0).sleepOk) = some true := by decide +kernel
theorem test_patch_wake :
    (after (.patchWake 3) (st ((dev0.setRegion 8 { Region.reset with st := .active, lock := true, isolated := false }).setDom (domPatch 3) .damp))).map (fun d => d.dom (domPatch 3)) = some (.waking false) := by decide +kernel

theorem witness_fabric_ports : FabricPort fpR 1 0 ∧ FabricPort (patchRouter 63 true) 1 70 ∧ FabricPort (staticRouter 7 true) 1 71 ∧ unitAt fpR 1 = .patch 0 false ∧
    (let d := (fp { FPort.reset with tq := [treq] }).dev
     Live d 0 ∧ d.dom (domPatch 0) = .run ∧ Sparse.wf Region.reset d.fab.regions = true ∧ Sparse.wf FPort.reset d.fab.ports = true ∧ Sparse.wf Router.reset d.routers = true ∧
       (d.fport fpN).iq = [] ∧ (d.fport fpN).partial_ = [] ∧ (d.fport fpN).tq = [treq] ∧ treq.beats.length + 1 = treq.need ∧ treq.bad = none ∧ treq.pkt.type = 1) := by
  refine ⟨⟨by decide, .inl ⟨0, false, by decide, by decide⟩⟩, ⟨by decide, .inl ⟨63, true, by decide, by decide⟩⟩, ⟨by decide, .inr ⟨7, true, by decide, by decide⟩⟩, by decide, ?_⟩
  simp only [Live]; decide +kernel
/-- Requests that keep their shape at the end of a 512-byte line, and one that does not. -/
theorem witness_iq : ∀ a ∈ [0, 448, 0xFFFFFFFFFC0], (beat 0 a).addr.toNat = a ∧ a % 64 = 0 ∧ a / 512 = (a + 64 - 1) / 512 := by decide
theorem witness_iq_write : (beat 1 0x80).len = 0 ∧ (beat 1 0x80).last = true ∧ (beat 1 0x80).addr.toNat % 128 = 0 ∧ 0x80 / 512 = (0x80 + 128 - 1) / 512 ∧ ({ beat 1 0 with last := false } : IqBeat).last = false ∧ (beat 3 0).op = 3 := by decide
/-- R293: with the last beat of its answer accepted a request is over; a WRITE finds a SUB free, and waits where 64 of the port's are in the network. -/
theorem test_ir_accepted : (after (.iqRequest fpR 1 ⟨(beat 0 0x40), ⟨0, 1⟩⟩) (fp { FPort.reset with iq := [⟨9, beat 0 0x41, none, [], true, true⟩], irOut := [.done 9 0x11] })).map
    (fun d => ((d.fport fpN).iq.map (·.num), (d.fport fpN).irOut, (d.fport fpN).irTaken)) = some ([some 9], [], [.done 9 0x11]) := by decide +kernel
def busySubs : FPort := { FPort.reset with iq := (List.range 64).map fun k => ⟨BitVec.ofNat 8 (100 + k), beat 1 0, some (BitVec.ofNat 16 k), [], true, false⟩ }
theorem witness_subs : (∀ j, j < 64 → SubUsed busySubs j) ∧ ¬SubUsed FPort.reset 0 ∧ (∀ z ∈ busySubs.iq, ¬Unsent z) ∧ (∀ z ∈ busySubs.iq, z.live = true → z.tag ≠ 9) := by
  refine ⟨?_, ?_, ?_, by decide +kernel⟩
  · intro j hj
    exact ⟨⟨BitVec.ofNat 8 (100 + j), beat 1 0, some (BitVec.ofNat 16 j), [], true, false⟩, List.mem_map.mpr ⟨j, List.mem_range.mpr hj, rfl⟩, .inl rfl, rfl⟩
  · rintro ⟨e, he, _⟩; cases he
  · intro z hz h
    obtain ⟨k, _, rfl⟩ := List.mem_map.mp hz
    exact absurd h.2.2.2 (by simp)
theorem test_write_waits : (after (.iqRequest fpR 1 ⟨(beat 1 0x80), ⟨0, 0⟩⟩) (fp busySubs)).map (fun d => ((d.fport fpN).iq.map (·.num)).getLast?) = some (some none) := by decide +kernel
theorem witness_takes : TakesBeats FPort.reset (FPort.reset.accept ⟨0, 0⟩) ⟨0, 0⟩ := ⟨rfl, fun _ => rfl, by intro b r h; cases h⟩
theorem witness_wake : (let d := (dev0.setRegion 8 { Region.reset with lock := true, isolated := false }).setDom (domPatch 3) .damp
    Live d (9 * (3 / 8) + 8) ∧ d.dom (domPatch 3) = .damp) := by simp only [Live]; decide +kernel

/-- The READY device with port 0 as x, and the command c in flight. -/
def linkDev (x : Link) : Device := { dev0 with bad := { Badosa.reset with links := [(0, x)] } }
def lks (x : Link) : State := st (linkDev x)
def lc (x : Link) (c : Cmd) : State := st (withCmd (linkDev x) c)
def runLink : Link := { Link.reset with st := .run }
/-- Module 0 of a ring of two; the other one is 0x4000. -/
def torus (x : Link) : State := let d := linkDev x; st { d with bad := { d.bad with shape := some (1, 0, 0, 0), addr := some 0 } }
def pst (i : Instr) (s : State) : Option (Train × Nat) := (after i s).map fun d => ((d.link 0).st, (posted d).1)
/-- A frame of its fields, with its code. -/
def frameOf (lane rdy rtap rop preset rcnt : Nat) : BitVec 128 :=
  let v := pack [(lane, 26), (rdy, 25), (rtap, 22), (rop, 20), (preset, 17), (rcnt, 13)]
  let b : BitVec 128 := BitVec.ofNat 128 (0x7E8118E7 * 2 ^ 96 + v.toNat * 2 ^ 64)
  b ||| BitVec.ofNat 128 ((leBytes 14 (fld b 16 112)).reverse.foldl sigByte 0xFFFF)

theorem test_link_disable : pst (.linkDisable 1 7) (lc runLink (cmd 0x40 [1, 0])) = some (.disabled, 0) := by decide +kernel
theorem test_link_enable : pst (.linkEnableTrain 1 7) (lc Link.reset (cmd 0x40 [1, 1])) = some (.detect, 0) := by decide +kernel
theorem test_link_retrain : pst (.linkRetrain 1 7) (lc { Link.reset with st := .align } (cmd 0x40 [1, 2])) = some (.detect, 0) := by decide +kernel
theorem test_link_low_power : (after (.linkAllowLowPower 1 7) (lc runLink (cmd 0x40 [1, 3]))).map (fun d => (d.link 0).allowed) = some true := by decide +kernel
/-- R215: a DISABLED port cannot be allowed low power: LINK_DOWN. -/
theorem test_link_down : answer (.linkAllowLowPower 1 7) (lc Link.reset (cmd 0x40 [1, 3])) = some (Status.linkDown.code, 0, 0) := by decide +kernel
theorem test_link_hold : pst (.linkHoldRun 1 7) (lc { runLink with txPow := .dry, rxPow := .dry, allowed := true } (cmd 0x40 [1, 4])) = some (.acquire, 0) := by decide +kernel
theorem test_link_status : (answer (.linkStatus 1 7) (lc { runLink with lanes := 0xFF, partner := 5 } (cmd 0x41 [0]))).map (fun e => (e.1, e.2.2)) = some (0, 0x50000FF06) := by decide +kernel
/-- A shape of two by one by one by one, at host address 0x100000; the own address 0x4000 has W = 1. -/
def shaped (b : List (Nat × Byte)) (c : Cmd) : State := let d := withCmd dev0 c; st { d with hostMem := b }
theorem test_route_set :
    (after (.routeSet 1 7) (shaped [(0x100000, 1), (0x100007, 1)] (cmd 0x42 [0x8000000000100000, 0x100004000]))).map (fun d => (d.bad.shape, d.bad.addr)) = some (some (1, 0, 0, 0), some 0x4000) := by decide +kernel
theorem test_route_set_count : (answer (.routeSet 1 7) (hc (cmd 0x42 [0x8000000000100000, 0x200004000]))).map (·.1) = some 0x11 := by decide +kernel
/-- A SEND of two members, 0 and 0x4000, whose window has one slot of 512 bytes; this device is member 0, and port 0 leads to the other. -/
def sendDesc (kind : Byte) : Mem := [(0x100000, kind), (0x100003, 2), (0x100011, 2), (0x100021, 2), (0x100028, 0x40)]
def collDev (kind : Byte) (c : Cmd) : State :=
  let d := withCmd (torus runLink).dev c
  st { d with mcs := [(0, { MemCtl.reset with st := .run, trained := 15 })], dram := [(0x45, 0x40)], hostMem := sendDesc kind }
def collCmd : Cmd := cmd 0x43 [0x8000000000100000, 5]
theorem test_collective_setup :
    (after (.collectiveSetup 1 7) (collDev 1 collCmd)).map (fun d => (d.coll 5).map (fun x => (x.kind, x.members, x.port, x.seg))) = some (some (1, [0, 0x4000], 0, 512)) := by decide +kernel
theorem test_collective_form : (answer (.collectiveSetup 1 7) (collDev 4 collCmd)).map (·.1) = some 0x11 := by decide +kernel
theorem test_collective_number : answer (.collectiveSetup 1 7) (hc (cmd 0x43 [0x8000000000100000, 64])) = some (0x11, 16, 0) := by decide +kernel
theorem test_collective_remove : answer (.collectiveSetup 1 7) (hc (cmd 0x43 [0x8000000000100000, 63])) = some (0, 0, 0) := by decide +kernel

/-- R406: a frame of lane 7 without RDY. -/
theorem test_training_frame : (after (.trainingFrame 0 7 0x7e8118e71c000000000000000000d88a 0) (lks { Link.reset with st := .detect })).map (fun d => (d.link 0).lanes) = some 0x80 := by decide +kernel
/-- R407: INC of the main tap, 48 to 49: the magnitudes sum to 65, so it is at the limit. -/
theorem test_training_limit :
    (after (.trainingFrame 0 0 0x7e8118e74290200000000000000090d6 0) (lks { Link.reset with st := .equalize })).map (fun d => ((d.link 0).taps, (d.link 0).astat)) = some ([0, -8, 48, -8, 0], 2) := by decide +kernel
theorem test_dwell : (after (.detectDwell 0) (lks { Link.reset with st := .detect, lanes := 0xFF })).map (fun d => (d.link 0).st) = some .acquire := by decide +kernel
theorem test_state_timeout : (after (.linkStateTimeout 0) (lks { Link.reset with st := .param })).map (fun d => (d.link 0).st) = some .detect := by decide +kernel
/-- The markers of the eight lanes with the number q. -/
def marksOf (q : BitVec 32) : List (BitVec 512) := (List.range 8).map fun m => BitVec.ofNat 512 (leNat (markerBytes m q))
/-- R401: the second marker is out of sequence: the count starts again; a damaged one in one lane ends it. -/
theorem test_marker_damaged : (after (.linkMarker 0 ((marksOf 8).set 5 0) ⟨0, 0⟩) (lks { Link.reset with st := .align, markers := 3, markerSeq := 7 })).map (fun d => (d.link 0).markers) = some 0 := by decide +kernel
theorem test_marker : (after (.linkMarker 0 (marksOf 9) ⟨0, 0⟩) (lks { Link.reset with st := .align, markers := 3, markerSeq := 7 })).map (fun d => (d.link 0).markers) = some 1 := by decide +kernel
theorem test_param : (after (.linkParam 0 0 false 1) (lks { Link.reset with st := .param })).map (fun d => ((d.link 0).st, (d.link 0).miscabled)) = some (.run, false) := by decide +kernel
/-- R408: port 0 of module 0 must face direction 1 of module 0x4000. -/
theorem test_param_miscabled :
    (after (.linkParam 0 0x4000 true 0) (torus { Link.reset with st := .param })).map (fun d => ((d.link 0).st, (d.link 0).miscabled)) = some (.admitted, true) := by decide +kernel

theorem witness_link_ctl : ∀ e ∈ [(0, Link.reset), (0, runLink), (1, Link.reset), (2, Link.reset), (3, runLink), (4, { runLink with txPow := .dry }), (4, runLink)],
    let c := cmd 0x40 [1, BitVec.ofNat 64 e.1]
    let d := (lc e.2 c).dev
    (Starts d 0x40 c ∧ Plain c [0xFFFF, 7]) ∧ (∀ n, n < 16 → d.linkOn n = true) ∧ fld (c.pw 2) 0 3 = e.1 ∧ fld (c.pw 1) 0 16 = 2 ^ 0 ∧
      d.link 0 = e.2 ∧ Sparse.wf Link.reset d.bad.links = decide (e.2 ≠ Link.reset) := by
  intro e he
  simp only [List.mem_cons, List.not_mem_nil, or_false] at he
  obtain rfl | rfl | rfl | rfl | rfl | rfl | rfl := he <;> exact ⟨starts_of (by decide), by decide, by decide, by decide, by decide, by decide⟩
theorem witness_link_drained : Drained runLink ∧ Link.reset.live = false ∧ ({ runLink with txPow := .dry } : Link).st = .run := by simp only [Drained]; decide
/-- A port that the module does not have. -/
theorem witness_link_off : (let c := cmd 0x40 [0x8000, 0]; let d := { withCmd dev0 c with fuses := { dev0.fuses with linkEn := 0x7FFF } }
    (Starts d 0x40 c ∧ Plain c [0xFFFF, 7]) ∧ bitAt (c.pw 1) 15 = true ∧ d.linkOn 15 = false) := ⟨starts_of (by decide), by decide, by decide⟩
theorem witness_link_commands : ∀ e ∈ [((0x41 : Byte), (15 : Word), (0 : Word), ([0xF] : List Word)), (0x42, 0x8000000000100000, 0x100004000, [addrMask 0x8000000000100000, 0x0000FFFF0003FFFF]),
      (0x42, 0x1000, 0x200000000, [addrMask 0x1000, 0x0000FFFF0003FFFF]), (0x43, 0x8000000000100000, 63, [addrMask 0x8000000000100000, 0xFF]), (0x43, 0x1000, 64, [addrMask 0x1000, 0xFF])],
    let c := cmd e.1 [e.2.1, e.2.2.1]
    Starts (hc c).dev e.1.toNat c ∧ Plain c e.2.2.2 := by
  intro e he
  simp only [List.mem_cons, List.not_mem_nil, or_false] at he
  obtain rfl | rfl | rfl | rfl | rfl := he <;> exact starts_of (by decide)
/-- ROUTE_SET: a good entry, a reserved bit, a reserved version, and an own address outside the shape. -/
theorem witness_route_set : ∀ e ∈ [([(0x100000, (1 : Byte)), (0x100007, 1)], true, true), ([(0x100000, 1), (0x100002, 4), (0x100007, 1)], false, true), ([(0x100000, 1), (0x100007, 2)], false, true),
      ([(0x100007, 1)], true, false)],
    let d := (shaped e.1 (cmd 0x42 [0x8000000000100000, 0x100004000])).dev
    let l := (d.addrRead true 0x8000000000100000 8).2.1
    (d.addrRead true 0x8000000000100000 8).1 = .success ∧ d.bad.colls = [] ∧
      (let w : Word := BitVec.ofNat 64 (leNat l)
       (decide (fld w 56 8 = 1) && decide (fld w 18 38 = 0)) = e.2.1 ∧ inShape (fld w 0 4, fld w 4 4, fld w 8 5, fld w 13 5) 0x4000 = e.2.2) := by decide +kernel

/-- COLLECTIVE_SETUP: a good descriptor, and one that is ill-formed. -/
theorem witness_collective_setup :
    (let d := (collDev 1 collCmd).dev
     let l := (d.addrRead true 0x8000000000100000 64).2.1
     (d.addrRead true 0x8000000000100000 64).1 = .success ∧ collForm l = true ∧ d.collPlaces l = some (0, 0, 0) ∧ leAt l 3 1 = 2) ∧
    (let d := (collDev 1 collCmd).dev
     let m := d.dramRead 0x40 8
     m.1 = .success ∧ membersOf m.2.1 2 = .ok [0, 0x4000] ∧ m.2.2.collPort 0x4000 = .ok 0 ∧ m.2.2.collsAt 5 0 < 16) ∧
    collForm ((collDev 4 collCmd).dev.addrRead true 0x8000000000100000 64).2.1 = false := by
  refine ⟨by decide +kernel, ⟨by decide +kernel, by rfl, by rfl, by decide +kernel⟩, by decide +kernel⟩

theorem witness_training :
    (∀ lane ∈ [0, 7], ∀ rop ∈ [0, 1, 3], let f := frameOf lane 1 2 rop 0 1
      frameOk f = true ∧ fld f 90 3 = lane ∧ bitAt f 89 = true ∧ fld f 84 2 = rop ∧ fld f 77 4 = 1) ∧
    Sparse.wf Link.reset [(0, { Link.reset with st := .equalize })] = true ∧ Sparse.wf Counter.zero (lks runLink).dev.ctrs = true ∧ (lks runLink).dev.linkOn 15 = true := by decide +kernel
theorem witness_align : (let l := { Link.reset with st := .align, markers := 14, markerSeq := 6, codewords := 4094 }
    l.markers < 15 ∧ (7 : BitVec 32) = l.markerSeq + 1 ∧ l.codewords < 4095) ∧ tapsOk [0, -8, 48, -8, 0] = true ∧
    (∀ m, m < 8 → leBytes 64 ((marksOf 7).getD m 0).toNat = markerBytes m 7) := by decide +kernel
/-- R401 to R403: at reset transmitter and receiver are in step, far from a marker; one symbol short of it, it is due inside the next codeword; where a filler block
is due as well, behind 4 of the block's symbols. -/
theorem witness_in_step : InStep LineTx.reset LineRx.reset ∧ MarkerDue LineTx.reset LineRx.reset ∧
    MarkerDue { LineTx.reset with place := 81400 } { LineRx.reset with split := some 264 } ∧
    MarkerDue { LineTx.reset with place := 81660, extra := true } { LineRx.reset with split := some 4 } ∧ runLink.rx.rest.length < 1184 ∧ runLink.st = .run := by
  refine ⟨⟨rfl, rfl, rfl, rfl, rfl, ?_, ?_, by decide⟩, ⟨?_, ?_⟩, ⟨?_, ?_⟩, ⟨?_, ?_⟩, by decide, by decide⟩ <;> decide
/-- R402, R403: 24 equal symbols are followed by a stuff symbol, which goes; a block of 320 - 2 symbols behind a lane's two stuff symbols goes by its head. -/
theorem test_unstuff : (LineRx.reset.clean 0 (List.replicate 24 2 ++ [0, 1]), ({ LineRx.reset with runs := [(2, 23)] }).clean 0 [2, 0, 2]) =
    (List.replicate 24 2 ++ [1], [2, 2]) := by decide +kernel
theorem test_filler : (({ LineRx.reset with extra := true, stuffed := [2] }).data [fillerBlock 2 ++ (List.range 340).map (· % 4)]).headD [] = (List.range 340).map (· % 4) := by decide +kernel
theorem test_marker_dropped : (({ LineRx.reset with split := some 3 }).data [stuff (0, 0) ([1, 2, 3] ++ markerSymbols 0 7 ++ (List.range 337).map (· % 4))]).headD [] =
    [1, 2, 3] ++ (List.range 337).map (· % 4) := by
  decide +kernel
/-- R406: what the receiver asks next: nothing new while unanswered, INC of tap 2, HOLD. -/
theorem witness_ask_next : AskNext { Link.reset with answered := false, rcnt := 1 } 0 0 { Link.reset with answered := false, rcnt := 1 } ∧
    AskNext { Link.reset with answered := true } 0 0x09 { { Link.reset with answered := true } with answered := false, ask := 0x09, rcnt := Link.reset.rcnt + 1 } ∧
    AskNext { Link.reset with answered := true } 0 0 { { Link.reset with answered := true } with answered := true, ask := 0 } := by
  refine ⟨⟨fun _ => rfl, ?_, ?_⟩, ⟨?_, ?_, fun _ _ => rfl⟩, ⟨?_, fun _ _ => rfl, ?_⟩⟩ <;> intro h <;> first | (intro g; revert h g; decide) | (revert h; decide)
/-- LINK_PARAM with and without a shape, cabled right and wrong. -/
theorem witness_param :
    (let d := (torus { Link.reset with st := .param }).dev
     (d.link 0).st = .param ∧ d.bad.addr = some 0 ∧ d.bad.shape = some (1, 0, 0, 0) ∧ (∀ i, i < 4 → coord 0x4000 i = neighbourCoord (1, 0, 0, 0) 0 0 i) ∧ (1 : BitVec 3).toNat = 0 + 1) ∧
    (lks { Link.reset with st := .param }).dev.bad.shape = none := by decide

/-- A CDATA packet of collective 5 from module 0x4000, tag 9, offset 0, and its flit with sequence number 3. -/
def lpkt (kind off : Nat) (pay : BitVec 1024) : LPkt := mkLPkt kind 0 0x4000 9 5 off [pay]
def flit3 : BitVec 1184 := mkLinkFlit 1 3 none (0, 0) (lpkt 3 0 7).hdr 7
def lt (x : Link) : State := torus x
/-- The same port with that flit taken out of its codewords, damaged or not. -/
def got (x : Link) (damaged : Bool) : Link := { x with rx := { x.rx with flits := [(flit3, damaged)] } }

/-- R412: sequence number 3 where 3 is expected, where 4 is, and damaged. -/
theorem test_flit_in_order : (after (.linkDataFlit 0 flit3 false) (lt (got { runLink with rxSeq := 3 } false))).map (fun d => ((d.link 0).rxSeq, (d.link 0).rxq)) = some (4, [(true, lpkt 3 0 7)]) := by decide +kernel
theorem test_flit_out_of_order : (after (.linkDataFlit 0 flit3 false) (lt (got { runLink with rxSeq := 4 } false))).map (fun d => ((d.link 0).sent, (d.link 0).nakSent, (d.link 0).rxq)) = some ([.nak 4], true, []) := by decide +kernel
theorem test_flit_damaged : (after (.linkDataFlit 0 flit3 true) (lt (got { runLink with rxSeq := 3 } true))).map (fun d => ((d.link 0).rxSeq, (d.link 0).sent, (d.link 0).rx.flits)) = some (3, [.nak 3], []) := by decide +kernel
theorem test_nak_resends : (after (.linkNak 0 3) (lt { runLink with retry := [flit3] })).map (fun d => ((d.link 0).sent, (d.link 0).resent, (d.counter 0x52 0).value)) = some ([.flit flit3], 1, 1) := by decide +kernel
theorem test_nak_sixteenth : (after (.linkNak 0 3) (lt { runLink with retry := [flit3], resent := 15 })).map (fun d => ((d.link 0).st, (d.link 0).retrain)) = some (.acquire, true) := by decide +kernel
theorem test_marker_loss : (after (.linkMarkerLoss 0) (lt { runLink with txSeq := 5 })).map (fun d => ((d.link 0).st, (d.link 0).lastDown, (d.link 0).txSeq)) = some (.detect, 1, 0) := by decide +kernel
theorem test_down_notice : (after (.linkDownNotice 0) (lt runLink)).map (fun d => ((d.link 0).st, (d.link 0).lastDown)) = some (.detect, 3) := by decide +kernel
theorem test_idle_lanes : (after (.linkElectricalIdle 0) (lt { runLink with rxPow := .damp })).map (fun d => (d.link 0).st) = some .run := by decide +kernel
theorem test_idle_timeout : (after (.linkIdleTimeout 0 true) (lt { runLink with allowed := true })).map (fun d => ((d.link 0).txPow, (d.link 0).sent)) = some (.damp, [.damp]) := by decide +kernel
theorem test_dry_timeout : (after (.linkDryTimeout 0 true) (lt { runLink with allowed := true, txPow := .damp, rxPow := .damp })).map (fun d => (d.link 0).rxPow) = some .dry := by decide +kernel
theorem test_link_wake : (after (.linkWake 0 true true) (lt { runLink with txPow := .dry, rxPow := .dry })).map (fun d => ((d.link 0).st, (d.link 0).fromDry, (d.link 0).sent)) = some (.acquire, true, [.wake]) := by decide +kernel

/-- R415: engine 0 asks engine 2 for a slot under TXID 5, is granted slot 1, and sends. -/
def ctl (k : Nat) (p : Packet) : Link := { runLink with ctrl := [(k, p)] }
def ask : Packet := mkTransit false 0 (linkPort 2) (linkPort 0) (5 <<< 16) (BitVec.ofNat 1024 (fld (lpkt 3 0 7).hdr 0 89))
def grant : Packet := mkTransit false 1 (linkPort 2) (linkPort 0) ((5 <<< 16) + (1 <<< 6)) 0
def tdat : Packet := mkTransit false 2 (linkPort 2) (linkPort 0) (1 <<< 22) 7
def outs (d : Device) : List (Nat × Nat × Nat × Nat) := (Sparse.get [] (d.router (linkPort 0).r).outbox (linkPort 0).lp).map fun e => (fld e.2.hdr 32 3, fld e.2.hdr 16 16, fld e.2.hdr 6 10, fld e.2.hdr 22 10)
def ask0 : Link := { ctl 0 ask with slots := [⟨0, 0, []⟩] }
def tx5 : Link := { ctl 1 grant with transit := [(5, lpkt 3 0 7, 2, false)] }
def slot1 : Link := { ctl 2 tdat with slots := [⟨1, (lpkt 3 0 7).hdr, []⟩] }
theorem test_treq : (after (.treq 0) (lt ask0)).map (fun d => ((d.link 0).slots.map (·.slot), outs d)) = some ([0, 1], [(1, 5, 1, 0)]) := by decide +kernel
theorem test_tgrant : (after (.tgrant 0) (lt tx5)).map (fun d => ((d.link 0).transit.length, outs d)) = some (0, [(2, 64, 0, 1)]) := by decide +kernel
theorem test_tdata : (after (.tdata 0) (lt slot1)).map (fun d => ((d.link 0).slots.length, (d.link 0).txq)) = some (0, [lpkt 3 0 7]) := by decide +kernel

/-- Collective 5 as x on port 0 with the packets p waiting there. -/
def recv : Coll :=
  { kind := 1, fmt := 0, op := 0, n := 2, pos := 1, window := 0, wlen := 0x400, seg := 0x200, srcq := 1, dstq := 2, freeq := 3, members := [0x4000, 0], port := 0, failed := false
    entry := none, credit := false, pushed := false, slot := 0, sentTo := 0, got := [], unacked := [], resend := [], nextTag := 0, out := [] }
def ring : Coll := { recv with kind := 2, fmt := 3, pos := 0, seg := 128, entry := some 0xC000000000040000, sentTo := 128 }
def cl (x : Coll) (q : List (Bool × LPkt)) (h : List (Nat × HQueue)) : State :=
  let d := (torus { runLink with rxq := q }).dev
  st { d with bad := { d.bad with colls := [(5, x)] }, hqs := h, mcs := [(0, { MemCtl.reset with st := .run, trained := 15 })] }
def q5 (w : Word) : HQueue := ⟨[⟨w, none⟩], [], none⟩
/-- The RACKs that port 0 is to send: their kind, tag, collective and status. -/
def racks (d : Device) : List (Nat × Nat × Nat × Nat) := (d.link 0).txq.map fun p => (p.kind, p.tag.toNat, p.coll, p.offset)

theorem test_rwrite : (after (.rwrite 0) (cl recv [(false, lpkt 0 2 7)] [])).map (fun d => (d.dram.byte 0x100, racks d)) = some (7, [(2, 9, 5, 0)]) := by decide +kernel
theorem test_rwrite_window : (after (.rwrite 0) (cl recv [(false, lpkt 0 8 7)] [])).map racks = some [(2, 9, 5, 0x11)] := by decide +kernel
theorem test_rpush : (after (.rpush 0) (cl recv [(false, lpkt 1 0 0x4000000000000009)] [])).map (fun d => ((d.hq 2).entries.map (·.value), racks d)) = some ([0x4000000000000009], [(2, 9, 5, 0)]) := by decide +kernel
/-- R419: INT32 sums: 7 + 0x7FFFFFFF saturates. The buffer is at DRAM 0, of two segments; segment 0 comes in the first step. -/
theorem test_cdata :
    (let s := cl ring [(false, lpkt 3 0 7)] []
     (after (.cdata 0) (st { s.dev with dram := [(0, 0xFF), (1, 0xFF), (2, 0xFF), (3, 0x7F)] })).map (fun d => (d.dram.num 0 4, racks d))) = some (0x7FFFFFFF, [(2, 9, 5, 0)]) := by decide +kernel
def waiting : Coll := { recv with pos := 0, members := [0, 0x4000], unacked := [(9, lpkt 0 0 7)] }
theorem test_rack : (after (.rack 0) (cl waiting [(false, lpkt 2 0 0)] [])).map (fun d => (d.coll 5).map (fun x => x.unacked)) = some (some []) := by decide +kernel
theorem test_rack_not_ready : (after (.rack 0) (cl waiting [(false, lpkt 2 0x12 0)] [])).map (fun d => (d.coll 5).map (fun x => (x.unacked, x.resend))) = some (some ([], [lpkt 0 0 7])) := by decide +kernel
theorem test_resend_timer : (after (.rackResendTimer 5) (cl { waiting with unacked := [], resend := [mkLPkt 0 0x4000 0 9 5 0 [7]] } [] [])).map (fun d => (d.link 0).txq.length) = some 1 := by decide +kernel
theorem test_rack_timeout : (after (.collectiveRackTimeout 5) (cl waiting [] [])).map (fun d => ((d.hq 2).entries.map (·.value), (d.coll 5).map (fun x => x.failed))) = some ([0x4000000080000061], some true) := by decide +kernel
/-- R418: a token of SRCQ needs no slot: its RPUSH goes at once. -/
theorem test_src_pop :
    (after (.collectiveSrcPop 5) (cl { waiting with unacked := [] } [] [(1, q5 0x4000000000000009)])).map (fun d => ((d.hq 1).entries.length, (d.link 0).txq.map (fun p => (p.kind, p.dest)))) = some (0, [(1, 0x4000)]) := by decide +kernel

theorem witness_traffic :
    (WholeFlit flit3 ∧ fld flit3 124 4 = 1 ∧ fld flit3 112 12 = ({ runLink with rxSeq := 3 } : Link).rxSeq.toNat ∧ fld flit3 81 2 = 0 ∧
      some (BitVec.ofNat 18 (fld flit3 60 18)) = (lt runLink).dev.bad.addr ∧ (lt runLink).dev.bad.shape ≠ none ∧ fld flit3 78 3 ≤ 3) ∧
    ¬WholeFlit (flit3 ^^^ 1) ∧ seqDone (BitVec.ofNat 12 (fld flit3 112 12)) 3 = true ∧ seqDone (BitVec.ofNat 12 (fld flit3 112 12)) 4 = false ∧ Drained runLink ∧
    Sparse.wf Link.reset (lt runLink).dev.bad.links = true ∧ ({ runLink with allowed := true, txPow := .damp, rxPow := .damp } : Link).quietTx = true := by
  simp only [WholeFlit, Drained]; decide +kernel
theorem witness_transit :
    CtrlIs ask0 0 ask [] ∧ (∀ x ∈ ask0.slots, x.slot ≠ 1) ∧ (∀ j, j < 1 → ∃ x ∈ ask0.slots, x.slot = j) ∧
    (let l := { ask0 with slots := (List.range 768).map fun i => ⟨i, 0, []⟩ }; CtrlIs l 0 ask [] ∧ ∀ i, i < 768 → ∃ x ∈ l.slots, x.slot = i) ∧
    CtrlIs tx5 1 grant [] ∧ tx5.transit = [] ++ (5, lpkt 3 0 7, 2, false) :: [] ∧ (5 : BitVec 16).toNat = fld grant.hdr 16 16 ∧
    CtrlIs slot1 2 tdat [] ∧ slot1.slots = [] ++ ⟨1, (lpkt 3 0 7).hdr, []⟩ :: [] ∧ 1 = fld tdat.hdr 22 10 ∧ (lpkt 3 0 7).flits ≤ 1 ∧ slot1.live = true := by
  refine ⟨⟨[], [], rfl, rfl, by simp⟩, by decide, by decide, ⟨⟨[], [], rfl, rfl, by simp⟩, fun i h => ⟨⟨i, 0, []⟩, by simpa using h, rfl⟩⟩, ⟨[], [], rfl, rfl, by simp⟩, rfl, by decide +kernel,
    ⟨[], [], rfl, rfl, by simp⟩, rfl, by decide +kernel, by decide +kernel, by decide⟩
/-- A slot that still waits for a payload. -/
theorem witness_tdata_waits : (let k : LPkt := mkLPkt 3 0 0x4000 9 5 0 [7, 8]; (Sparse.ins ([] : Sparse (BitVec 1024)) 0 7).length < k.flits) := by decide
theorem witness_packets : ∀ kind ∈ [0, 1, 3], PacketIs { runLink with rxq := [(true, lpkt 2 0 0), (false, lpkt kind 0 7)] } false (lpkt kind 0 7) [(true, lpkt 2 0 0)] ∧ (lpkt kind 0 7).kind = kind := by
  intro k h
  simp only [List.mem_cons, List.not_mem_nil, or_false] at h
  obtain rfl | rfl | rfl := h <;> exact ⟨⟨[(true, lpkt 2 0 0)], [], rfl, rfl, by decide, by decide⟩, by decide⟩
theorem witness_collective :
    (cl recv [] []).dev.coll 5 = some recv ∧ (cl recv [] []).dev.coll 4 = none ∧ recv.failed = false ∧ recv.kind = 1 ∧ recv.pos = 1 ∧ 128 * (lpkt 0 7 0).offset + 128 * (lpkt 0 7 0).flits ≤ recv.wlen ∧
      ¬ 128 * (lpkt 0 8 0).offset + 128 * (lpkt 0 8 0).flits ≤ recv.wlen ∧ fld (0x4000000000000009 : Word) 62 2 = 1 ∧ fld (0x4000000000000009 : Word) 32 30 = 0 ∧ ((cl recv [] []).dev.hq 2).entries.length < 256 := by decide
theorem witness_ring : (let p := lpkt 3 0 7
    let seg := 128 * p.offset / ring.seg
    ring.entry = some 0xC000000000040000 ∧ fld (0xC000000000040000 : Word) 62 2 = 3 ∧ seg < ring.n ∧ ring.stepOf seg ≠ 0 ∧ 128 * p.offset % ring.seg + 128 * p.flits ≤ ring.seg) ∧
    ((cl ring [] []).dev.dramRead 0 128).1 = .success := by
  refine ⟨by decide, by decide +kernel⟩
theorem witness_racks : waiting.unacked = [] ++ ((lpkt 2 0 0).tag, lpkt 0 0 7) :: [] ∧ fld (lpkt 2 0x12 0).hdr 0 8 = 0x12 ∧ fld (lpkt 2 0x40 0).hdr 0 8 = 0x40 ∧ waiting.out = [] ∧
    (cl waiting [] []).dev.wayOf (mkLPkt 0 0x4000 0 9 5 0 [7]) = .port 0 := by decide +kernel
theorem witness_src_pop : ∀ e ∈ [((1 : Nat), (0x4000000000000009 : Word)), (2, 0xC000000000020000), (1, 0xC000000000080000)],
    let x := { waiting with kind := e.1, unacked := [] }
    ¬(x.kind = 1 ∧ x.pos = 1) ∧ x.entry = none ∧ ((cl x [] [(1, q5 e.2), (3, q5 5)]).dev.popNow 1).map (·.1) = some e.2 ∧ (fld e.2 62 2 = 1 ∨ (handleBuf e.2).2 ≤ x.seg) := by decide +kernel

/-- The READY device with queue q as x and the host link up. -/
def qDev (q : Nat) (x : HostQueue) : Device :=
  { dev0 with host := { dev0.host with queues := [(q, x)] }, cxl := { dev0.cxl with up := true, bme := true, mse := true, msixEn := true } }
def qq (q : Nat) (x : HostQueue) : State := st (qDev q x)
def cfg0 : Word := 0x8002000000030003
def queue0 : HostQueue := { HostQueue.reset with sqBase := 0x8000000000008000, cqBase := 0x8000000000010000 }
def live0 : HostQueue := { queue0 with enable := true, st := .active, cqPhase := true, sqSize := 3, cqSize := 17, ien := true }
def qst (d : Device) : QState × Nat := ((d.queue 0).st, (d.queue 0).error.toNat)

theorem test_enable : (after (.qEnable cfg0) (qq 0 queue0)).map (fun d => (qst d, (d.queue 0).cqSize.toNat, (d.queue 0).ien)) = some ((.active, 0), 3, true) := by decide +kernel
theorem test_enable_size : (after (.qEnable 0x8002000000030000) (qq 0 queue0)).map qst = some (.disabled, 0x11) := by decide +kernel
theorem test_disable :
    (after (.qDisable 0) (st { qDev 0 live0 with host := { (qDev 0 live0).host with inflight := [{ cmd 0 [] with q := 0 }, cmd 0 []] } })).map (fun d => (qst d, d.host.inflight.map (·.discard))) =
      some ((.disabled, 0), [true, false]) := by decide +kernel
theorem test_sq_doorbell : (after (.sqTailDoorbell 1 2) (qq 1 queue1)).map (fun d => (d.queue 1).sqTail) = some 2 := by decide +kernel
/-- R194, R222: 16 is beyond SQ_SIZE 15: counted, and event 0x03 names queue 1 and the value. -/
theorem test_sq_doorbell_bad : (after (.sqTailDoorbell 1 16) (qq 1 queue1)).map (fun d => ((d.queue 1).sqTail, (d.counter 2 1).value, d.host.events.map (fun e => (e.code, e.r0)))) = some (0, 1, [(3, 0x100001)]) := by decide +kernel
/-- CQ_HEAD 3 of 18 entries consumes the event records in slots 1 and 2, not the one in slot 5. -/
def slots0 : State := st { qDev 0 { live0 with cqTail := 7 } with host := { (qDev 0 { live0 with cqTail := 7 }).host with evSlots := [1, 2, 5] } }
theorem test_cq_doorbell : (after (.cqHeadDoorbell 0 3) slots0).map (fun d => (d.host.evSlots, (d.queue 0).cqHead)) = some ([5], 3) := by decide +kernel
theorem test_mask : (after (.msixMaskWrite 63 false) (qq 0 live0)).map (fun d => d.host.msix.unmasked) = some 0x8000000000000000 := by decide +kernel
theorem test_register_half : (after (.registerWrite 0x10004 4 0x80000000) (qq 0 HostQueue.reset)).map (fun d => (d.queue 0).sqBase) = some 0x8000000000000000 := by decide +kernel
theorem test_register_doorbells : (after (.registerWrite 0x101000 8 0x400000003) (qq 1 queue1)).map (fun d => ((d.queue 1).sqTail, (d.queue 1).cqHead)) = some (3, 4) := by decide +kernel

/-- Queue 1 holds one entry, at host address 0x8000, of the given bytes. -/
def entry (l : List (Nat × Byte)) : State := st { qDev 1 { queue1 with sqTail := 1 } with hostMem := l }
/-- NOP with ORDER and TAG 0x0102; an administrative opcode; a reserved flag; a RUN with one. -/
theorem test_fetch : (after .commandFetch (entry [(0x8001, 1), (0x8002, 2), (0x8003, 1)])).map (fun d => (d.host.inflight.map (fun c => (c.op, c.order, c.tag)), (d.queue 1).sqHead)) = some ([(0, true, 0x102)], 1) := by decide +kernel
theorem test_fetch_opcode : (after .commandFetch (entry [(0x8000, 3)])).map posted = some (0x10, 0, 0) := by decide +kernel
theorem test_fetch_flag : (after .commandFetch (entry [(0x8000, 0x21), (0x8001, 4)])).map posted = some (0x11, 1, 0xFFFFFFFF00000000) := by decide +kernel
/-- A record of code 0x20 fills slot 0 of queue 0's ring, and its signal is pending, masked. -/
def evs (x : HostQueue) : State := st { qDev 0 x with host := { (qDev 0 x).host with events := [⟨0x20, 5, 6, 0⟩] } }
theorem test_event_post :
    (after .eventPost (evs live0)).map (fun d => (d.hostMem.num 0x10003 1, d.hostMem.num 0x10006 2, d.host.events.length, d.host.msix.pba)) = some (3, 0x20, 0, 1) := by decide +kernel
theorem test_event_waits : (after .eventPost (evs { live0 with cqSize := 1, cqTail := 1 })).map (fun d => d.host.events.length) = some 1 := by decide +kernel
theorem test_coal : (after (.coalTimer 1) (qq 1 { queue1 with coalTime := 1, coalPosted := 2, ien := true })).map (fun d => ((d.queue 1).coalPosted, d.host.msix.pba)) = some (0, 1) := by decide +kernel

theorem witness_registers : ∀ x ∈ [queue0, live0],
    let d := qDev 0 x
    (d.cxl.up = true ∧ d.cxl.mse = true ∧ d.cxl.d3 = false ∧ d.rst.st ≠ .reset) ∧ GoodBase d x.sqBase ∧ GoodBase d x.cqBase ∧ GoodCfg cfg0 ∧ ¬GoodCfg 0x8002000000030000 ∧
      x.enable = decide (x.st = .active) ∧ bitAt cfg0 63 = true ∧ Sparse.wf HostQueue.reset d.host.queues = true ∧ fld (3 : BitVec 32) 0 12 ≤ live0.sqSize.toNat ∧ live0.sqSize.toNat < fld (4 : BitVec 32) 0 12 := by
  intro x hx
  simp only [List.mem_cons, List.not_mem_nil, or_false] at hx
  obtain rfl | rfl := hx <;> (simp only [GoodBase, GoodCfg]; decide)
/-- The host link has been lost before, and a device that serves no register. -/
theorem witness_registers_off : ({ qDev 0 queue0 with cxl := { (qDev 0 queue0).cxl with lost := true } } : Device).cxl.lost = true ∧ dev0.cxl.up = false ∧
    (let m := { Msix.reset with pba := 0x8000000000000000 }; bitAt m.pba 63 = true ∧ bitAt m.pba 62 = false) := by decide
theorem witness_fetch_open : (let d := (entry []).dev
    d.host.fetchStopped = false ∧ d.cxl.up = true ∧ d.cxl.bme = true ∧ d.cxl.d3 = false ∧ d.rst.st ≠ .reset) ∧ ¬(dev0.cxl.up = true) := by decide
theorem witness_grant_same : Granted (entry []).dev 1 0 16 := by
  refine .same (by decide) ⟨1, by decide, by decide, by decide, ?_, ?_⟩
  · simp only [Grantable]; decide
  · intro j hj
    obtain rfl : j = 0 := by omega
    simp only [Grantable]; decide
/-- Only queue 1 is ever grantable, and it may be of class 1, or 2, or 0 at the end of its turn: the other ways the turn passes. -/
def turn (cls : BitVec 2) (left : Nat) : Device := { qDev 1 { queue1 with sqTail := 1, cls := cls } with host := { (qDev 1 { queue1 with sqTail := 1, cls := cls }).host with arb := ⟨0, left, 63, 63, 63⟩ } }
theorem turn_none (cls : BitVec 2) (left c : Nat) (h : cls.toNat ≠ c) : NoneOf (turn cls left) c := by
  intro q _ ⟨h1, h2⟩
  by_cases hq : q = 1
  · subst hq; exact h h1
  · have e : (turn cls left).queue q = HostQueue.reset := by
      show Sparse.get HostQueue.reset [(1, _)] q = _
      simp [Sparse.get, Ne.symm hq]
    rw [Grantable, e] at h2
    exact absurd h2.1 (by decide)
theorem turn_first (cls : BitVec 2) (left c : Nat) (hc : c < 3) (h : cls.toNat = c) : FirstQueueOf (turn cls left) c 1 := by
  have e : (turn cls left).host.arb.lastOf c = 63 := by
    obtain rfl | rfl | rfl : c = 0 ∨ c = 1 ∨ c = 2 := by omega
    all_goals rfl
  refine ⟨1, by decide, by rw [e], h, ⟨rfl, by show (0 : BitVec 12) ≠ 1; decide, by show 0 < 2048; decide, fun h => absurd h (by decide), fun _ => ⟨by show 0 < 15; decide, by show 0 < 2016; decide⟩⟩, ?_⟩
  intro j hj ⟨h1, h2⟩
  obtain rfl : j = 0 := by omega
  rw [e] at h2
  exact absurd h2.1 (show QState.disabled ≠ .active by decide)
theorem witness_grant_turns : Granted (turn 1 16) 1 1 4 ∧ Granted (turn 2 0) 1 2 1 ∧ Granted (turn 0 0) 1 0 16 :=
  ⟨.second 1 rfl (.inr (turn_none _ _ _ (by decide))) (by decide) (turn_first _ _ _ (by decide) (by decide)),
   .third 1 2 rfl rfl (.inl rfl) (.inr (turn_none _ _ _ (by decide))) (by decide) (turn_first _ _ _ (by decide) (by decide)),
   .again 1 2 0 rfl rfl rfl rfl (.inr (turn_none _ _ _ (by decide))) (.inr (turn_none _ _ _ (by decide))) (by decide) (turn_first _ _ _ (by decide) (by decide))⟩
/-- The entries COMMAND_FETCH may meet: read, and what it spells. -/
theorem witness_spelt : ∀ l ∈ [[], [(0x8000, (3 : Byte))], [(0x8001, 4)], [(0x8000, 0x40), (0x8010, 5)]],
    let d := (entry l).dev
    let r := d.ringRead ((d.queue 1).sqBase + BitVec.ofNat 64 (64 * (d.queue 1).sqHead.toNat)) 64
    r.1 = .success ∧ Spelt (parseCmd 1 r.2.1) 1 r.2.1 ∧ d.cmdOf 1 (parseCmd 1 r.2.1).tag.toNat = none := by
  intro l hl
  simp only [List.mem_cons, List.not_mem_nil, or_false] at hl
  obtain rfl | rfl | rfl | rfl := hl <;> exact ⟨by decide +kernel, ⟨by decide, rfl, rfl, rfl, by decide +kernel, by decide +kernel, rfl, rfl, rfl, rfl, rfl⟩, by decide +kernel⟩
theorem witness_spelt_kinds : Permitted 0x40 1 ∧ ¬Permitted 3 1 ∧ fld (4 : Byte) 2 6 ≠ 0 ∧ NoForm (cmd 0x40 [1, 5]) 16 ∧ NoForm (cmd 0x05 [3]) 8 ∧ (∀ off, ¬NoForm (cmd 0x40 [1, 4]) off) := by
  simp only [Permitted, NoForm]
  refine ⟨by decide, by decide, by decide, by decide, by decide, fun off => by simp [cmd, Cmd.pw, fld]⟩
/-- A submission ring beyond the DRAM cannot be read. -/
theorem witness_fetch_fails : (((entry []).dev.ringRead 0xFFFFFFFF000 64).1) ≠ .success := by decide
theorem witness_events :
    (let d := (evs live0).dev
     let x := d.queue 0
     d.host.events = [⟨0x20, 5, 6, 0⟩] ∧ x.st = .active ∧ d.host.evSlots.length < 16 ∧ bitAt x.cqBase 63 = true ∧ d.cxl.up = true ∧ d.cxl.bme = true ∧ d.cxl.d3 = false ∧
       (d.host.inflight.filter fun c => c.q == 0).length < (x.cqHead.toNat + (x.cqSize.toNat + 1) - x.cqTail.toNat - 1) % (x.cqSize.toNat + 1)) ∧
    (let x := { live0 with cqSize := 1, cqTail := 1 }; ¬(0 < (x.cqHead.toNat + (x.cqSize.toNat + 1) - x.cqTail.toNat - 1) % (x.cqSize.toNat + 1))) ∧
    (let d := { (evs live0).dev with cxl := { Cxl.reset with lost := true } }; bitAt (d.queue 0).cqBase 63 = true ∧ d.cxl.lost = true ∧ d.cxl.up = false) := by decide
/-- R225: unmasking vector 63, pending, sends its message; with MSI-X off it stays pending. -/
def pending63 (en : Bool) : State := st { qDev 0 live0 with host := { (qDev 0 live0).host with msix := { Msix.reset with pba := 0x8000000000000000 } }, cxl := { (qDev 0 live0).cxl with msixEn := en } }
theorem test_unmask_sends : (after (.msixMaskWrite 63 false) (pending63 true)).map (fun d => (d.host.msix.sent.map (·.1), d.host.msix.pba)) = some ([63], 0) := by decide +kernel
theorem witness_may_interrupt : MayInterrupt (pending63 true).dev ∧ ¬MayInterrupt (pending63 false).dev ∧ bitAt (pending63 true).dev.host.msix.pba 63 = true := by
  simp only [MayInterrupt]; decide
theorem witness_signals : (let m := { Msix.reset with unmasked := 1 }; bitAt m.unmasked live0.vector.toNat = true) ∧ ({ queue1 with coalTime := 1, coalPosted := 2 } : HostQueue).coalTime ≠ 0 := by decide

/-- The device with security state x and the command c in flight. -/
def secDev (x : Sec) (c : Cmd) : Device := let d := withCmd dev0 c; { d with sec := x }
def sc' (x : Sec) (c : Cmd) : State := st (secDev x c)
def sev (x : Sec) : State := st { dev0 with sec := x }
def A0 : Word := 0x8000000000100000

theorem test_attest_refused : answer (.attest 1 7) (hc (cmd 0x50 [A0])) = some (0x50, 0, 0) := by decide +kernel
/-- R436: the second of two entries, one of them retained. -/
def meas2 : Sec := { Sec.reset with log := [[1, 2], [3, 4]], count := 5 }
theorem test_measurements : (after (.getMeasurements 1 7) (sc' meas2 (cmd 0x51 [A0, 0x00070001]))).map (fun d => (d.hostMem.num 0x100000 2, posted d)) = some (0x403, 0, 0, 1) := by decide +kernel
theorem test_cert_short : answer (.getCert 1 7) (hc (cmd 0x52 [A0, 0x00030004])) = some (0, 0, 0) := by decide +kernel
theorem test_cert_number : answer (.getCert 1 7) (hc (cmd 0x52 [A0, 0x00040005])) = some (0x11, 16, 0) := by decide +kernel
theorem test_stage_busy : answer (.fwStage 1 7) (sc' { Sec.reset with fwOk := [0], slotB := [0] } (cmd 0x53 [A0, 0x1000, 1])) = some (0x13, 0, 0) := by decide +kernel
theorem test_activate_empty : answer (.fwActivate 1 7) (hc (cmd 0x54 [0])) = some (0x11, 0x8007, 0) := by decide +kernel
theorem test_challenge_held : (after (.debugChallenge 1 7) (sc' { Sec.reset with delay := true } (cmd 0x55 [0]))).map (fun d => (d.sec.heldReq, d.host.inflight.map (·.st))) = some (some (1, 7), [.running]) := by decide +kernel
theorem test_response_length : answer (.debugResponse 1 7) (hc (cmd 0x55 [1, A0, 1343])) = some (0x11, 24, 0) := by decide +kernel
theorem test_response_fails : (after (.debugResponse 1 7) (sc' { Sec.reset with challenge := some [] } (cmd 0x55 [1, A0, 1344]))).map (fun d => ((posted d).1, d.sec.challenge, d.sec.failures, d.sec.delay)) = some (0x50, none, 1, true) := by decide +kernel

def meas1 : Meas := { kind := 5, die := 0, flags := 0, version := 1, build := 2, detail := 3, digest := List.replicate 64 0, cause := none, andThen := none }
theorem test_append : (after .measurementAppend (sev { Sec.reset with inbox := [meas1], count := 4 })).map (fun d => (d.sec.count, (d.sec.log.getD 0 []).take 17, d.sec.inbox)) =
    some (5, [4, 0, 0, 0, 5, 0, 0, 0, 1, 0, 0, 0, 0, 0, 0, 0, 2], []) := by decide
theorem test_svc : (after (.svcFuseBlow true) (sev { Sec.reset with blowing := true, fuseSvn := 2 })).map (fun d => (d.fuses.svcBits, d.sec.blowing)) = some (1, true) := by decide +kernel
theorem test_lapse : (after .challengeLapse (sev { Sec.reset with challenge := some [] })).map (fun d => d.sec.challenge) = some none := by decide +kernel
theorem test_delay_ends : (after .challengeDelayExpiry (sev { Sec.reset with delay := true })).map (fun d => d.sec.delay) = some false := by decide +kernel
theorem test_jtag : (after (.jtagRequest (.read 0x30000000000)) (sev { Sec.reset with session := 1 })).map (fun d => d.sec.jtag) = some (some (.success, dev0.ctlRead 0 0)) := by decide +kernel
theorem test_jtag_fuse : (after (.jtagRequest (.fuseOwnerHash (List.replicate 32 1))) (sev { Sec.reset with session := 2 })).map (fun d => d.fuses.ownerHash.length) = some 32 := by decide +kernel
theorem test_jtag_debug_only : (after (.jtagRequest (.fuseOwnerHash (List.replicate 32 1))) (sev { Sec.reset with session := 1 })).map (fun d => d.fuses.ownerHash.length) = some 0 := by decide +kernel

theorem test_diag_alignment : answer (.diagRead 1 7) (hc (cmd 0x60 [0x30000000004, 8, A0])) = some (0x11, 8, 0) := by decide +kernel
theorem test_diag_length : answer (.diagRead 1 7) (hc (cmd 0x60 [0x30000000000, 4104, A0])) = some (0x11, 16, 0) := by decide +kernel
theorem test_diag_read : answer (.diagRead 1 7) (hc (cmd 0x60 [0x30000000000, 8, A0])) = some (0, 0, 8) := by decide +kernel
/-- Controller 3, frozen by a write of codeword 9 that it lost. -/
def frozen3 : Device := { withCmd dev0 (cmd 0x61 [3]) with mcs := [(3, { MemCtl.reset with st := .frozen, frzCause := 1, frzAddr := 576, trained := 15 })] }
theorem test_thaw : (after (.mcThaw 1 7) (st frozen3)).map (fun d => ((d.mc 3).st, d.cwPoison 9, posted d)) = some (.run, true, 0, 0, 1) := by decide +kernel
theorem test_trace_start : (after (.traceStart 1 7) (hc (cmd 0x62 [1, 0x1000, 64, 3]))).map (fun d => (d.host.traceOn, d.host.traceLen, d.host.traceMask)) = some (true, 64, 3) := by decide +kernel
theorem test_trace_stop : answer (.traceStop 1 7) (hc (cmd 0x62 [0])) = some (0, 0, 0) := by decide +kernel
/-- Region unit 64 is the static region of die 0; it fails, and patch 1 does not. -/
theorem test_bist : (after (.bistRun 1 7 [64]) (hc (cmd 0x63 [2, 64]))).map (fun d => (posted d, d.hostMem.num 0x10010 8)) = some ((0, 0, 1), 1) := by decide +kernel
theorem test_bist_busy : answer (.bistRun 1 7 []) (st { withCmd (devWith (tileAt 0 0)) (cmd 0x63 [0, 0]) with rst := dev0.rst }) = some (0x13, 7, 0) := by decide +kernel

theorem witness_security : ∀ e ∈ [((0x50 : Byte), ([A0, 1, 2, 3, 4] : List Word), ([addrMask A0, 0xFFFFFFFFFFFFFFFF, 0xFFFFFFFFFFFFFFFF, 0xFFFFFFFFFFFFFFFF, 0xFFFFFFFFFFFFFFFF] : List Word)),
      (0x51, [A0, 0x00070001], [addrMask A0, 0xFFFFFFFF]), (0x52, [A0, 0x00030004], [addrMask A0, 0xFFFF000F]), (0x52, [A0, 0x00040004], [addrMask A0, 0xFFFF000F]), (0x52, [A0, 0x00040005], [addrMask A0, 0xFFFF000F]),
      (0x53, [A0, 0x1000, 1], [addrMask A0, 0xFFFFFFFF, 1]), (0x54, [0x101], [0x101]), (0x55, [0], [1]), (0x55, [1, A0, 1344], [1, addrMask A0, 0xFFFF]), (0x55, [1, A0, 1343], [1, addrMask A0, 0xFFFF])],
    Starts (hc (cmd e.1 e.2.1)).dev e.1.toNat (cmd e.1 e.2.1) ∧ Plain (cmd e.1 e.2.1) e.2.2 := by
  intro e he
  simp only [List.mem_cons, List.not_mem_nil, or_false] at he
  obtain rfl | rfl | rfl | rfl | rfl | rfl | rfl | rfl | rfl | rfl := he <;> exact starts_of (by decide)
theorem witness_security_states :
    (secDev Sec.reset (cmd 0x50 [])).sec.identity = false ∧ (secDev { Sec.reset with identity := true } (cmd 0x50 [])).sec.identity = true ∧
    (let x := { Sec.reset with fwOk := [0], slotB := [0] }; 0 ∈ x.fwOk ∧ (0 ∈ x.slotB ↔ true = true)) ∧ (0 ∉ Sec.reset.fwOk) ∧ dev0.farRange A0 1344 = false ∧
    ((hc (cmd 0x55 [1, A0, 1344])).dev.addrRead true A0 1344).1 = .success := by decide +kernel
theorem witness_no_image : (hc (cmd 0x54 [0])).dev.slotImage false = .error .invalidParam := by
  unfold Device.slotImage
  rw [if_pos (by decide +kernel)]
/-- A slot without accepted certificates, and a good header: SIGNATURE_INVALID. -/
theorem witness_no_key {d : Device} {b : Bool} (h1 : imgForm true (d.flashRead (slotBase b + fwOffset) 256) 0x600000 = true) (h2 : d.fuses.rootHash = []) : d.slotImage b = .error .signatureInvalid := by
  have h3 : d.slotKey b 3 = [] := by simp [Device.slotKey, certAccepted, h2]
  simp [Device.slotImage, h1, h3, imgFault]

/-- Slot A with certificates 0 and 3 and an image of no body. -/
def zrun (a n : Nat) : Mem := (List.range n).map fun i => (a + i, 0)
def certBytes (a : Nat) (role : Byte) : Mem := [(a, 0x27), (a + 1, 0xCE), (a + 2, 0x17), (a + 3, 0xAE), (a + 4, 1), (a + 5, 0), (a + 6, role), (a + 0x30, 1), (a + 0x31, 7), (a + 0x780, 0x3A)]
def imgBytes (a : Nat) : Mem :=
  [(a, 0xDE), (a + 1, 0xC0), (a + 2, 0x17), (a + 3, 0xAE), (a + 4, 1), (a + 5, 0), (a + 6, 0), (a + 7, 0)] ++ zrun (a + 0x18) 5 ++ [(a + 0x1D, 1), (a + 0x1E, 0), (a + 0x1F, 0)] ++ zrun (a + 0x2C) 20 ++ zrun (a + 0x80) 128 ++ [(a + 0x100, 0x3A)]
def slotDev (d : Device) : Device :=
  { d with flash := certBytes 0x100000 0 ++ certBytes 0x101000 3 ++ imgBytes 0x103000, fuses := { d.fuses with rootHash := List.replicate 32 0xFF } }
theorem witness_good_header : imgForm true ((slotDev dev0).flashRead (slotBase false + fwOffset) 256) 0x600000 = true := by decide +kernel
theorem flash_length (d : Device) (a n : Nat) : (d.flashRead a n).length = n := by simp [Device.flashRead, upFrom]
theorem flash_drop (d : Device) (a n k : Nat) : (d.flashRead a n).drop k = d.flashRead (a + k) (n - k) := by
  apply List.ext_getElem
  · simp [flash_length]
  · intro i h1 h2; simp [Device.flashRead, upFrom, Nat.add_assoc]
theorem flash_take (d : Device) (a n k : Nat) (h : k ≤ n) : (d.flashRead a n).take k = d.flashRead a k := by
  apply List.ext_getElem
  · simp [flash_length, h]
  · intro i h1 h2; simp [Device.flashRead, upFrom]
/-- Whatever the standards the spec names do (log entry 3): if these signatures verify and these digests match, the slot's image passes. -/
theorem witness_slot_image (hk : ∀ k m x, Config.falconVerify k m x = true) (hs : ∀ l n, Config.shake256 l n = List.replicate n 0xFF) :
    ∃ img, (slotDev dev0).slotImage false = .ok img := by
  have hc : certAccepted (List.replicate 32 0xFF) ((slotDev dev0).flashRead 0x100000 3200) 3 ((slotDev dev0).flashRead 0x101000 3200) = true := by
    have h1 : certForm 0 ((slotDev dev0).flashRead 0x100000 3200) = true := by simp only [certForm, flash_length]; decide +kernel
    have h2 : certForm 3 ((slotDev dev0).flashRead 0x101000 3200) = true := by simp only [certForm, flash_length]; decide +kernel
    have h3 : (slotDev dev0).flashRead 0x101010 32 = List.replicate 32 0xFF := by decide +kernel
    have h4 : ((slotDev dev0).flashRead 0x101780 1280).headD 0 = 0x3A := by decide +kernel
    simp only [certAccepted, h1, h2, hs, sigOk, hk, flash_drop, flash_length,
      flash_take _ _ _ _ (show 32 ≤ 3200 - 0x10 by decide), h3, h4]
    decide
  have hkey : (slotDev dev0).slotKey false 3 = [certKey ((slotDev dev0).slotCert false 3)] := by
    simp only [Device.slotKey]
    exact if_pos hc
  have e : imgSig ((slotDev dev0).flashRead 0x103000 256) = 256 := by decide +kernel
  have h2 : ((slotDev dev0).flashRead 0x103100 1280).headD 0 = 0x3A := by decide +kernel
  have h3 : imgDigest ((slotDev dev0).flashRead 0x103000 256) = List.replicate 64 0xFF ∧ imgVersion ((slotDev dev0).flashRead 0x103000 256) = 2 ^ 64 - 1 := by decide +kernel
  have h4 : (slotDev dev0).svc = 0 := by decide
  refine ⟨(slotDev dev0).flashRead 0x103000 1536, ?_⟩
  have h5 : imgFault [certKey ((slotDev dev0).slotCert false 3)] (slotDev dev0).svc ((slotDev dev0).flashRead 0x103000 1536) = none := by
    unfold imgFault
    simp only [flash_take _ _ _ _ (show 256 ≤ 1536 by decide), e, flash_drop, flash_take _ _ _ _ (show 1280 ≤ 1536 - 256 by decide), flash_length, h2, h3, h4, sigOk, hk, hs]
    simp
  unfold Device.slotImage
  have h0 : slotBase false + fwOffset = 0x103000 := rfl
  have h6 := witness_good_header
  rw [h0] at h6
  simp only [h0, h6, e, hkey, h5]
  simp
/-- A token that answers the challenge under the owner key, if its signature verifies (log entry 3). -/
theorem witness_token (hk : ∀ k m x, Config.falconVerify k m x = true) (t : List Byte) (h1 : t.length = 1344) (h2 : leAt t 0x10 8 = 0) (h3 : leAt t 0x18 1 = 1) (h4 : ∀ i, i < 39 → t.getD (0x19 + i) 0 = 0)
    (h5 : (t.drop 64).headD 0 = 0x3A) :
    GoodToken { imageDev with sec := { imageDev.sec with challenge := some (t.take 16) } } t := by
  have hn : imageDev.ownerKey ≠ [] := by decide +kernel
  obtain ⟨k, l, e⟩ := List.exists_cons_of_ne_nil hn
  refine ⟨rfl, by rw [h2]; rfl, h4, k, ?_, .inl ⟨h3, by show imageDev.ownerKey ≠ []; exact hn, by show k ∈ imageDev.ownerKey; rw [e]; simp⟩⟩
  simp only [sigOk, hk, List.length_drop, h1, h5]; rfl
theorem witness_security_events :
    (sev { Sec.reset with inbox := [{ meas1 with cause := some (1, 7), andThen := some (cplOf .success) }] }).dev.sec.inbox ≠ [] ∧
    (let d := (sev { Sec.reset with blowing := true, fuseSvn := 2 }).dev; d.sec.blowing = true ∧ d.svc < min d.sec.fuseSvn.toNat 64 ∧ d.fuses.svcBits.toNat = 2 ^ d.svc - 1) ∧
    (let d := (sev { Sec.reset with blowing := true }).dev; min d.sec.fuseSvn.toNat 64 ≤ d.svc) ∧ (sev Sec.reset).dev.sec.blowing = false ∧
    (sev { Sec.reset with delay := true, heldReq := some (1, 7) }).dev.sec.heldReq = some (1, 7) ∧ (List.replicate 32 (1 : Byte)).length = 32 ∧ dev0.fuses.ownerHash = [] ∧ dev0.fuses.ownerAes = [] ∧
    0x30000000000 ≤ (0x3007FFFFFF8 : BitVec 44).toNat ∧ (0x3007FFFFFF8 : BitVec 44).toNat < 0x30080000000 := by decide
theorem witness_diagnostics : ∀ e ∈ [((0x60 : Byte), ([0x30000000001, 8, A0] : List Word), ([0x00000FFFFFFFFFFF, 0x1FFF, addrMask A0] : List Word)), (0x60, [0x30000000000, 4104, A0], [0x00000FFFFFFFFFFF, 0x1FFF, addrMask A0]),
      (0x60, [0x30000000000, 4096, A0], [0x00000FFFFFFFFFFF, 0x1FFF, addrMask A0]), (0x60, [0x3000FFFFFF8, 16, A0], [0x00000FFFFFFFFFFF, 0x1FFF, addrMask A0]), (0x61, [191], [0xFF]), (0x61, [192], [0xFF]),
      (0x62, [1, 0x1000, 64, 3], [1, 0x00000FFFFFFFFFFF, 0x000000FFFFFFFFFF, 0xFFFFFFFFFFFFFFFF]), (0x62, [0, 0, 0, 0], [1, 0x00000FFFFFFFFFFF, 0x000000FFFFFFFFFF, 0xFFFFFFFFFFFFFFFF]),
      (0x63, [3, 0xFFFF], [3, 0xFFFF]), (0x63, [1, 0xFFFF], [3, 0xFFFF]), (0x63, [2, 71], [3, 0xFFFF]), (0x63, [2, 72], [3, 0xFFFF])],
    Starts (hc (cmd e.1 e.2.1)).dev e.1.toNat (cmd e.1 e.2.1) ∧ Plain (cmd e.1 e.2.1) e.2.2 := by
  intro e he
  simp only [List.mem_cons, List.not_mem_nil, or_false] at he
  obtain rfl | rfl | rfl | rfl | rfl | rfl | rfl | rfl | rfl | rfl | rfl | rfl := he <;> exact starts_of (by decide)
theorem witness_diagnostic_states :
    Sparse.wf MemCtl.reset frozen3.mcs = true ∧ (frozen3.mc 3).st = .frozen ∧ frozen3.side.wf = true ∧ frozen3.dram.wf = true ∧ (frozen3.mc 4).st ≠ .frozen ∧
    dev0.farRange 0x1000 64 = false ∧ dev0.dramRange 0x1000 64 = true ∧ dev0.dramRange 0xC00000000 64 = false ∧ 71 ∈ dev0.bistUnits 2 ∧ 72 ∉ dev0.bistUnits 2 ∧ dev0.bistHolder 2 71 = none ∧
    (devWith (tileAt 0 0)).bistHolder 0 0 = some 7 := by decide +kernel

/-- A domain in a state, under a horizon. -/
def domDev (i : DomainId) (x : Dom) (h : Option Nat) : Device :=
  { dev0 with pwr := { Power.reset with doms := Sparse.put .run [] (domKey i) x }, host := { dev0.host with horizon := h } }
def ds (i : DomainId) (x : Dom) (h : Option Nat) : State := st (domDev i x h)
def domOf (i : DomainId) (d : Device) : Dom := d.dom (domKey i)

theorem test_horizon_none : (after .horizonUpdate (ds (.frond 0) .run (some 5))).map (fun d => d.host.horizon) = some none := by decide +kernel
/-- R341: queue 1 is empty and its HINT of 1 µs has 100 ticks left. -/
theorem test_horizon_hint : (after .horizonUpdate (st { dev0 with host := { dev0.host with queues := [(1, { queue1 with hint := 1 })] } })).map (fun d => d.host.horizon) = some (some 100) := by decide +kernel
/-- R340: T_DAMP is 4 µs, T_DRY 400 µs. -/
theorem test_frond_damp : (after (.domainEval (.frond 3)) (ds (.frond 3) .run (some 400))).map (domOf (.frond 3)) = some .enterDamp := by decide +kernel
theorem test_router_never_dry : (after (.domainEval (.routerGroup 1 2)) (ds (.routerGroup 1 2) .run none)).map (domOf (.routerGroup 1 2)) = some .enterDamp := by decide +kernel
theorem test_mc_no_damp : (after (.domainEval (.mcGroup 0 1)) (ds (.mcGroup 0 1) .run (some 400))).map (domOf (.mcGroup 0 1)) = some .run := by decide +kernel
theorem test_due : (after (.domainEval (.frond 3)) (ds (.frond 3) .dry (some 2000))).map (domOf (.frond 3)) = some (.waking true) := by decide +kernel
theorem test_entry : (after (.domainEntryDone (.mcGroup 0 1)) (st { domDev (.mcGroup 0 1) (.enterDry false) none with mcs := [(8, { MemCtl.reset with st := .run })] })).map (fun d => (domOf (.mcGroup 0 1) d, (d.mc 8).st)) = some (.dry, .selfRefresh) := by decide +kernel
theorem test_wake_done : (after (.domainWakeDone (.mcGroup 0 1)) (st { domDev (.mcGroup 0 1) (.waking true) none with mcs := [(8, { MemCtl.reset with st := .selfRefresh })] })).map (fun d => (domOf (.mcGroup 0 1) d, (d.mc 8).st)) = some (.run, .run) := by decide +kernel
/-- A module whose die managers run. -/
def managed (p : Power) : Device := { dev0 with pwr := p, boot := { Boot.reset with dms := List.range 8 } }
/-- R344, R345: above the cap the divider rises; die 2 at 105 °C warns and its heat demand rises too. -/
theorem test_window_power : (after (.powerWindow 2401 (List.replicate 8 [50])) (st (managed Power.reset))).map (fun d => (d.pwr.div, d.host.events.map (fun e => (e.code, e.r0, e.r1)), (d.counter 0x60 0).value)) = some (3, [(0x11, 3, 2401)], 1) := by decide +kernel
theorem test_window_heat : (after (.powerWindow 0 [[50], [50], [60, 105], [50], [50], [50], [50], [50]]) (st (managed Power.reset))).map (fun d => ((d.pwr.hDemand, d.pwr.warn, d.pwr.warned) = (3, [2], [(2, 1)]) : Bool) && (d.host.events.map (fun e => (e.code, e.r0)) = [(0x10, 0x6902), (0x11, 3)] : Bool)) = some true := by decide +kernel
/-- R345: junction 0 of die 2 reaches 100 while junction 1, warned of, stays above 95; junction 1 warns no second time. -/
theorem test_window_junctions : (after (.powerWindow 0 [[50], [50], [100, 96], [50], [50], [50], [50], [50]]) (st (managed { Power.reset with warned := [(2, 1)], warn := [2] }))).map (fun d => d.host.events.map (fun e => (e.code, e.r0))) = some [(0x10, 0x6402)] := by decide +kernel
theorem test_window_fall : (after (.powerWindow 100 (List.replicate 8 [50])) (st (managed { Power.reset with pDemand := 3, pCool := 9, hDemand := 2, div := 3 }))).map (fun d => (d.pwr.pDemand, d.pwr.div)) = some (2, 2) := by decide +kernel

theorem witness_domains : ∀ i ∈ [DomainId.frond 191, .mcGroup 7 2, .patch 63, .routerGroup 7 7],
    let d := domDev i .damp (some 10)
    domThere i = true ∧ Sparse.wf Dom.run d.pwr.doms = true ∧ d.domOff i = false ∧ d.domBusy i = false ∧ d.dom (domKey i) = .damp := by
  intro i hi
  simp only [List.mem_cons, List.not_mem_nil, or_false] at hi
  obtain rfl | rfl | rfl | rfl := hi <;> decide +kernel
/-- Horizons just beyond and just below each limit, and no limit. -/
theorem witness_horizons : HorizonFrom (domDev (.frond 0) .run (some 11)) 11 ∧ ¬HorizonFrom (domDev (.frond 0) .run (some 10)) 11 ∧ HorizonFrom (domDev (.frond 0) .run none) 40000 ∧
    HorizonFrom (domDev (.frond 0) .run (some 40000)) (100 * Power.reset.tDry.toNat) ∧ ¬HorizonFrom (domDev (.frond 0) .run (some 399)) (100 * Power.reset.tDamp.toNat) := by
  refine ⟨?_, ?_, ?_, ?_, ?_⟩
  · intro h e; obtain rfl : (11 : Nat) = h := (by simpa [domDev] using e); decide
  · intro h; exact absurd (h 10 rfl) (by decide)
  · intro h e; simp [domDev] at e
  · intro h e; obtain rfl : (40000 : Nat) = h := (by simpa [domDev] using e); decide
  · intro h; exact absurd (h 399 rfl) (by decide)
theorem witness_domain_states :
    (let d := devWith (tileAt 0 0); d.domBusy (.frond 0) = true ∧ (d.tile 0).running ≠ none) ∧ (domDev (.patch 0) .dry none).domBusy (.patch 0) = false ∧
    (dev0.region 0).st ≠ .active ∧ ({ MemCtl.reset with st := .selfRefresh } : MemCtl).st = .selfRefresh ∧ QueueHorizon (qDev 1 { queue1 with hint := 1 }) 1 100 := by
  simp only [QueueHorizon]; decide +kernel
/-- A busy frond in DAMP or going down; a patch of started logic in DRY, or going to DRY from DAMP; a controller group that a packet waits for. -/
theorem witness_busy : ∀ x ∈ [Dom.damp, .enterDamp, .dry, .enterDry true, .waking true],
    let d := { devWith (tileAt 0 0) with pwr := { Power.reset with doms := Sparse.put .run [] (domKey (.frond 0)) x } }
    d.rst.st = .ready ∧ d.domOff (.frond 0) = false ∧ d.domBusy (.frond 0) = true ∧ d.dom (domKey (.frond 0)) = x := by
  intro x hx
  simp only [List.mem_cons, List.not_mem_nil, or_false] at hx
  obtain rfl | rfl | rfl | rfl | rfl := hx <;> decide +kernel
theorem witness_patch_on : ∀ x ∈ [Dom.damp, .dry, .run],
    let d := { domDev (.patch 63) x none with fab := { dev0.fab with regions := [(70, { Region.reset with st := .active, sleepOk := true })] } }
    (d.region (9 * (63 / 8) + 63 % 8)).st = .active ∧ d.domOff (.patch 63) = false ∧ d.domBusy (.patch 63) = false ∧ d.dom (domKey (.patch 63)) = x := by
  intro x hx
  simp only [List.mem_cons, List.not_mem_nil, or_false] at hx
  obtain rfl | rfl | rfl := hx <;> decide +kernel
/-- 0 to 2 below the warning level and above it, on both junctions of a die that was warned of. -/
theorem witness_junctions : (let tj : List (List Nat) := [[50], [50], [100, 96], [95, 99], [50], [50], [50], [50]]
    tj.length = 8 ∧ Sparse.wf 0 (managed Power.reset).pwr.tj = true ∧ (tj.getD 2 [])[0]? = some 100 ∧ (tj.getD 3 [])[1]? = some 99 ∧
      (managed Power.reset).enabled 0x10 = true ∧ (managed Power.reset).host.events.length + tj.flatten.length ≤ 256) := by decide +kernel
theorem witness_window : (managed Power.reset).mod.powered = true ∧ 0 ∈ (managed Power.reset).boot.dms ∧ (List.replicate 8 [50]).length = 8 ∧ ¬(0 ∈ dev0.boot.dms) ∧
    100 * 100 * 3 ≤ 95 * 2400 * 2 ∧ (managed Power.reset).variant.power = 2400 := by decide

/-- The READY device with the module's standby side as m. -/
def ms (m : Module) : State := st { dev0 with mod := m, cxl := { dev0.cxl with up := true, cxlMode := true }, pwr := { dev0.pwr with pll := [0] }, boot := { Boot.reset with dms := [0] } }
def mr : Module := Module.reset
def how (d : Device) : ResetClass × ResetCause × DevState := (d.rst.cls, d.rst.cause, d.rst.st)
theorem test_reset_warm_key : answer (.resetWarm 1 7) (hc (cmd 0x04 [0x57525355])) = some (0x11, 8, 0) := by decide +kernel
theorem test_reset_warm : (after (.resetWarm 1 7) (hc (cmd 0x04 [0x57525354]))).map (fun d => (how d, posted d)) = some ((.warm, .swWarm, .reset), 0, 0, 0) := by decide +kernel
theorem test_mod_rst : (after .modRstAssert (ms mr)).map (fun d => (how d, d.rst.held)) = some ((.warm, .modulePin, .reset), true) := by decide +kernel
theorem test_mod_rst_trip : (after .modRstAssert (ms { mr with powered := false, trip := true, lid := 89 })).map (fun d => d.mod.trip) = some false := by decide +kernel
theorem test_mod_rst_release : (after .modRstRelease (st { dev0 with mod := { mr with modRst := true, perst := true }, rst := { dev0.rst with held := true } })).map (fun d => (d.mod.modRst, d.rst.held)) = some (false, true) := by decide +kernel
theorem test_perst : (after .perstAssert (ms mr)).map (fun d => (how d, d.cxl.up)) = some ((.warm, .cxlPerst, .reset), false) := by decide +kernel
theorem test_perst_release : (after .perstRelease (st { dev0 with mod := { mr with perst := true }, rst := { dev0.rst with held := true } })).map (fun d => d.rst.held) = some false := by decide +kernel
theorem test_hot_reset : (after .cxlHotReset (ms mr)).map how = some (.warm, .cxlHotReset, .reset) := by decide +kernel
theorem test_cxl_reset : (after .cxlReset (ms mr)).map (fun d => (how d, d.cxl.up, d.cxl.resetDone)) = some ((.warm, .cxlReset, .reset), true, true) := by decide +kernel
theorem test_flr : (after .flr (hc (cmd 0x00 []))).map (fun d => (how d, (d.queue 1).st, d.host.inflight, d.cxl.bme)) = some ((.function, .flr, .ready), .disabled, [], false) := by decide +kernel
theorem test_watchdog_cold : (after (.dmWatchdog 0) (st { dev0 with boot := { Boot.reset with dms := [0] }, rst := { dev0.rst with st := .early } })).map how = some (.cold, .watchdog, .reset) := by decide +kernel
theorem test_pll_loss : (after (.pllLockLoss 0) (ms mr)).map (fun d => (how d, d.pwr.pll)) = some ((.warm, .watchdog, .reset), []) := by decide +kernel
theorem test_pll_relock : (after (.pllRelock 1) (st { dev0 with boot := { Boot.reset with warm := true }, pwr := { dev0.pwr with pll := [] }, mcs := [(24, { MemCtl.reset with st := .run, store := true })] })).map (fun d => (d.pwr.pll, (d.mc 24).st)) = some ([1], .selfRefresh) := by decide +kernel
theorem test_glitch : (after (.glitchDetect 3) (ms mr)).map how = some (.cold, .security, .reset) := by decide +kernel
theorem test_thermtrip : (after (.thermtrip 7) (ms mr)).map (fun d => (d.mod.powered, d.mod.trip, d.mod.nextCause)) = some (false, true, .thermalTrip) := by decide +kernel
theorem test_lid : (after (.lidSensorRead 70) (ms mr)).map (fun d => d.mod.lid) = some 70 := by decide +kernel
theorem test_brownout : (after .brownout (ms mr)).map (fun d => (d.mod.powered, d.mod.nextCause)) = some (false, .brownout) := by decide +kernel
theorem test_en_break : (after .enBreak (ms mr)).map (fun d => (d.mod.powered, d.mod.en)) = some (false, false) := by decide +kernel
theorem test_input_up : (after .inputUp (ms { mr with powered := false, ocLatch := true, en := false })).map (fun d => (d.mod.ocLatch, d.mod.en)) = some (false, true) := by decide +kernel
theorem test_power_good : (after (.powerGood) (ms { mr with powered := false, nextCause := .thermalTrip })).map (fun d => (how d, d.mod.powered)) = some ((.cold, .thermalTrip, .reset), true) := by decide +kernel
/-- R448: two switch openings within the 60 s before this one latch it; one older than that does not count. -/
theorem test_overcurrent_latch : (after .overcurrent (ms { mr with ticks := 6000000000, ocTimes := [5, 0] })).map (fun d => (d.mod.ocLatch, d.mod.ocRetry)) = some (true, false) := by decide +kernel
theorem test_overcurrent : (after .overcurrent (ms { mr with ticks := 6000000001, ocTimes := [5, 0] })).map (fun d => (d.mod.ocLatch, d.mod.ocRetry)) = some (false, true) := by decide +kernel
theorem test_overcurrent_retry : (after .overcurrentRetry (ms { mr with ocRetry := true })).map (fun d => d.mod.ocRetry) = some false := by decide +kernel

theorem witness_resets :
    (∀ m ∈ [mr, { mr with powered := false, trip := true, lid := 89 }, { mr with powered := false, trip := true, lid := 90 }], m.modRst = false ∧ m.perst = false ∧ m.en = true) ∧
    (ms mr).dev.cxl.up = true ∧ (ms mr).dev.cxl.cxlMode = true ∧ dev0.cxl.up = false ∧ (ms mr).dev.sched.runs = [] ∧ 0 ∈ (ms mr).dev.boot.dms ∧ 1 ∉ (ms mr).dev.boot.dms ∧ 0 ∈ (ms mr).dev.pwr.pll ∧
    1 ∉ (ms mr).dev.pwr.pll ∧ Sparse.wf MemCtl.reset (ms mr).dev.mcs = true ∧ (let m := { mr with powered := false }; m.input = true ∧ m.en = true ∧ m.trip = false ∧ m.ocLatch = false ∧ m.ocRetry = false) := by decide +kernel
theorem witness_reset_warm : ∀ v ∈ [0x57525354, (0x57525355 : Word)],
    Starts (hc (cmd 0x04 [v])).dev 0x04 (cmd 0x04 [v]) ∧ Plain (cmd 0x04 [v]) [0xFFFFFFFF] ∧ (∀ e ∈ (hc (cmd 0x04 [v])).dev.host.inflight, e.op ≠ 0x21 ∧ (e.q, e.tag) = ((cmd 0x04 [v]).q, (cmd 0x04 [v]).tag)) := by
  intro v hv
  simp only [List.mem_cons, List.not_mem_nil, or_false] at hv
  obtain rfl | rfl := hv <;> exact and_assoc.mp ⟨starts_of (by decide), by simp [hc, st, withCmd, cmd]⟩
theorem witness_reset_waits : (let d := { dev0 with host := { dev0.host with inflight := [cmd 0x04 [0x57525354], { cmd 0x00 [] with tag := 8 }] } }
    ∃ e ∈ d.host.inflight, (e.q, e.tag) ≠ ((1 : Nat), (7 : BitVec 16)) ∧ e.held = none) := by decide
theorem witness_keepers : KeepersOk dev0 := by simp only [KeepersOk]; decide
/-- Pads 0 to 7 of a static region that has started and is in clear of its isolation; the pads of a blank one. -/
theorem witness_pads : PadDriven { dev0 with fab := { dev0.fab with regions := [(8, { Region.reset with st := .starting, isolated := false })] } } 7 ∧ ¬PadDriven dev0 8 := by
  simp only [PadDriven]; decide
/-- 13 R353: FAULT# in DIAG_HOLD, after a fatal event, and held through a reset. -/
theorem witness_fault : (∀ d ∈ [{ dev0 with rst := { dev0.rst with st := .diagHold } }, { dev0 with rst := { dev0.rst with fatal := true } },
    { dev0 with rst := { dev0.rst with st := .reset }, mod := { mr with faultPin := true } }], FaultBefore d) ∧ ¬FaultBefore dev0 := by
  simp only [FaultBefore]; decide
/-- A CXL reset in a cold bring-up keeps the link; a warm reset with controller 0's store kept and die 1's clocks stopped. -/
theorem test_cxl_reset_cold : (let d := (ms mr).dev; (after .cxlReset (st { d with rst := { d.rst with st := .early } })).map (fun d => (how d, d.cxl.up, d.cxl.resetDone))) = some ((.cold, .cxlReset, .reset), true, true) := by decide +kernel
theorem test_fault_held : (after .modRstAssert (ms mr)).map (fun d => d.mod.faultPin) = some false ∧
    (let d := (ms mr).dev; (after .modRstAssert (st { d with rst := { d.rst with st := .early, fatal := true } })).map (fun d => d.mod.faultPin) = some true) := by decide +kernel

def busAns (b : Nat) (d : Device) : Option (Status × List Byte) := Sparse.find d.mod.smb b
theorem test_smb_status : (let d := (ms mr).dev; (after (.smbStatus 0) (st { d with rst := { d.rst with st := .early } })).map (busAns 0) = some (some (.success, [1, 0, 0, 0, 0, 0, 0, 0]))) := by decide +kernel
theorem test_smb_cause : (after (.smbCause 1) (ms mr)).map (busAns 1) = some (some (.success, [1, 0])) := by decide +kernel
theorem test_smb_thermal_off : (after (.smbThermal 0 20 30) (ms { mr with powered := false, trip := true, ticks := 500000, lid := 41 })).map (busAns 0) = some (some (.success, [20, 30, 41, 41])) := by decide +kernel
theorem test_smb_power_silent : (after (.smbPower 0 48 20) (ms { mr with powered := false, ticks := 499999 })).map (busAns 0) = some none := by decide +kernel
theorem test_smb_serial_early : (after (.smbSerial 0) (st { dev0 with mod := mr })).map (busAns 0) = some (some (.notReady, [])) := by decide +kernel
theorem witness_smb : (ms mr).dev.mod.smb.Pairwise (fun u v => u.1 < v.1) ∧ ({ mr with powered := false, ticks := 500000 } : Module).input = true := by decide

/-- Router 0 with its state as x, and the packets on the links and the ports of a device. -/
def rd0 (x : Router) : Device := dev0.setRouter 0 x
def rt (x : Router) : State := st (rd0 x)
def wires (d : Device) (r p : Nat) : Nat := (Sparse.get [] (d.router r).wire p).length
/-- A WRITEM-free packet: a READ of 64 bytes from router 0, port 0, to router 2, port 0. -/
def hop2 : Packet := (mkRead false ⟨0, 0⟩ 3 0x40 64).toPort ⟨2, 0⟩

/-- R237: two hops in +X: the flit is on the link into router 1, and one credit is in use. -/
theorem test_inject : (after (.packetInject 0 0) (rt { Router.reset with outbox := [(0, [(none, hop2)])] })).map (fun d => (wires d 1 0, Sparse.get 0 (d.router 0).used 8)) = some (1, 1) := by decide +kernel
/-- 01 R24: beyond the DRAM of die 0. -/
theorem test_inject_unmapped : (after (.packetInject 0 0) (rt { Router.reset with outbox := [(0, [(some 0xC00000000, hop2)])] })).map (fun d => ((d.router 0).unmapped.length, wires d 1 0)) = some (1, 0) := by decide +kernel
theorem test_unmapped : (after (.unmappedAnswer 0) (rt { Router.reset with unmapped := [hop2] })).map (fun d => ((d.inboxOf ⟨0, 0⟩).map (fun p => (p.type, fld p.hdr 11 8)), (d.router 0).unmappedCount.value)) = some ([(4, 0x11)], 1) := by decide +kernel
def flitH : BitVec 1120 := mkFlit (hop2.toPort ⟨1, 0⟩).hdr 5
/-- R231: a whole flit for router 1 at its input from router 0 reaches controller 0; a damaged one is discarded. -/
def wired : State := st (dev0.setRouter 1 { Router.reset with wire := [(0, [flitH])], sent := [(0, [flitH])] })
theorem test_flit : (after (.flitReceive 1 0 0) wired).map (fun d => ((d.inboxOf ⟨1, 0⟩).length, Sparse.get 0 (d.router 1).owed 0)) = some (1, 1) := by decide +kernel
theorem test_link_flit_bad : (after (.flitReceive 1 0 1) wired).map (fun d => ((d.inboxOf ⟨1, 0⟩).length, Sparse.get 0 (d.router 1).replay 0)) = some (0, 1) := by decide +kernel
theorem test_replay : (after (.flitReplayRequest 1 0) (st (dev0.setRouter 1 { Router.reset with sent := [(0, [0, flitH])], replay := [(0, 1)] }))).map (fun d => (Sparse.get [] (d.router 1).wire 0, (d.router 1).replays.value)) = some ([flitH], 1) := by decide +kernel
theorem test_credit : (after (.creditReturn 0 1 2) (st ((rd0 { Router.reset with used := [(10, 3)] }).setRouter 1 { Router.reset with owed := [(2, 2)] }))).map (fun d => (Sparse.get 0 (d.router 0).used 10, Sparse.get 0 (d.router 1).owed 2)) = some (1, 0) := by decide +kernel

theorem witness_network :
    (let d := (rt { Router.reset with outbox := [(0, [(none, hop2)])], unmapped := [hop2] }).dev
     Sparse.wf Router.reset d.routers = true ∧ Sparse.wf Dom.run d.pwr.doms = true ∧ Sparse.get [] (d.router 0).outbox 0 = [(none, hop2)] ∧ fld hop2.hdr 60 4 ≠ 6 ∧ (d.router 0).unmapped = [hop2] ∧
       (d.router 0).unmappedCount.value ≠ BitVec.allOnes 48) ∧
    dev0.unmapped false 0xC00000000 = true ∧ dev0.unmapped false 0xBFFFFFFFF = false ∧ dev0.unmapped true 0x30000000000 = false ∧ dev0.unmapped false 0x30000000000 = true ∧ dev0.frondOn 191 = true := by decide +kernel
/-- HOPs for queue 12,287, the last one, and for one beyond. -/
theorem witness_hop : ∀ e ∈ [(12287, true), (12288, false)],
    let p : Packet := ⟨mkHdr 6 false 1 ⟨0, 0⟩ ⟨0, 0⟩ 0, [BitVec.ofNat 1024 (e.1 * 65536)]⟩
    fld p.hdr 60 4 = 6 ∧ fld (p.pay.headD 0) 16 14 = e.1 ∧ decide (fld (p.pay.headD 0) 16 14 < 12288) = e.2 := by decide
theorem witness_flits :
    (let R := wired.dev.router 1
     Sparse.get [] R.wire 0 = [flitH] ∧ Sparse.find R.part 0 = none ∧ fld flitH 1088 32 = (crc32c (leBytes 8 (fld flitH 0 64) ++ leBytes 128 (fld flitH 64 1024))).toNat ∧
       fld (flitH ^^^ 1) 1088 32 ≠ (crc32c (leBytes 8 (fld (flitH ^^^ 1) 0 64) ++ leBytes 128 (fld (flitH ^^^ 1) 64 1024))).toNat) ∧
    (let R := (dev0.setRouter 1 { Router.reset with sent := [(0, [0, flitH])], replay := [(0, 1)] }).router 1
     Sparse.get 0 R.replay 0 ≠ 0 ∧ Sparse.wf 0 R.replay = true ∧ Sparse.wf [] R.wire = true ∧ isBridge 1 0 = false ∧ isBridge 6 0 = true) := by decide +kernel
/-- A lone packet: one that crosses a link, one over a wrap link, and one for a frond in DRY. -/
theorem witness_lone : ∀ e ∈ [(0, 2, 0), (0, 11, 0), (0, 0, 0)],
    let p := hop2.toPort ⟨e.2.1, 0⟩
    let d := (rd0 { Router.reset with inq := [(32, [p])] }).setDom (domFrond 0) .dry
    d.dom (domRouter (rtrDie 0) (rtrRow 0)) = .run ∧ (d.router 0).inq = [(32, [p])] ∧ p.pay ≠ [] ∧ p.type ≠ 10 ∧
      d.chooseOut 0 p = (if e.2.1 = 2 then 1 else if e.2.1 = 11 then 0 else 4) ∧ p.flits ≤ vcDepth 0 0 - 0 ∧ d.awake (unitAt 0 0) = false ∧ isWrap 0 0 = true := by decide +kernel
theorem test_wrap_dateline : bitAt (crossing 0 0 hop2).hdr 58 = true := by decide +kernel
theorem test_damp_wakes : (let d := dev0.setDom (domRouter 0 0) .damp; (d.forward 0).dom (domRouter 0 0)) = .waking false := by decide +kernel

/-- R231: a flit, even a damaged one, wakes the group; 64 flits on the wire of an inner link are no room, 32 of its credits are. -/
theorem test_flit_wakes : (after (.flitReceive 1 0 1) (st (wired.dev.setDom (domRouter 0 0) .damp))).map (fun d => d.dom (domRouter 0 0)) = some (.waking false) := by decide +kernel
/-- The wait of the unmapped answer: its group sleeps, or the port's slot for answers is held; a frond in DRY takes it when it has woken. -/
theorem witness_unmapped : ∀ e ∈ [(Dom.run, false, true), (Dom.run, true, false), (.damp, false, false)],
    let d := ((rd0 { Router.reset with unmapped := [hop2], held := if e.2.1 then [(2, hop2)] else [] }).setDom (domRouter 0 0) e.1).setDom (domFrond 0) .dry
    let at_ := srcPort hop2.hdr
    decide (d.dom (domRouter 0 0) = .run ∧ Sparse.find (d.router 0).held (8 * at_.lp + 2) = none) = e.2.2 ∧ d.awake (unitAt at_.r at_.lp) = false := by decide +kernel
/-- R241: link engine 0's and the CXL port's requests carry PANIC while it asserts it, a tile's never. -/
theorem witness_panics : unitAt 0 1 = .link 0 ∧ unitAt 84 1 = .cxl ∧ dev0.panics ⟨0, 0⟩ = false := by decide +kernel
theorem witness_stamped : Stamped true hop2 ⟨hop2.hdr ||| 0x800000000000000, hop2.pay⟩ := by simp only [Stamped]; decide
theorem witness_woken : ∀ x ∈ [Dom.damp, .enterDamp, .dry, .enterDry true, .run, .waking true, .off], (dev0.setDom (domRouter 0 0) x).dom (domRouter 0 0) = x := by
  intro x hx
  simp only [List.mem_cons, List.not_mem_nil, or_false] at hx
  obtain rfl | rfl | rfl | rfl | rfl | rfl | rfl := hx <;> decide +kernel
theorem witness_routes : hop2.dx < 12 ∧ hop2.dy < 32 ∧ hopsLeft 0 6 16 = 22 ∧ inShape (1, 0, 0, 0) 0x4000 = true ∧ inShape (1, 0, 0, 0) 0x8000 = false := by decide +kernel
/-- R252: the second line of the AEL-192's die 0: controller (1 + 0) mod 24; and the 25th starts at controller 1 again. -/
theorem test_placement : (let p := placeDram (dev0.mcsOf 0) 0x340; (p.mc, p.chan, p.byte)) = (1, 1, 0x40) ∧ (let p := placeDram (dev0.mcsOf 0) (512 * 24); (p.mc, p.chan)) = (1, 2) := by decide +kernel
theorem witness_placement : 0 < (dev0.mcsOf 0).length ∧ (0 : Nat) < (dev0.mcsOf 0).length * 2 ^ 31 ∧ (2 ^ 21 - 1) < 2 ^ 21 := by decide +kernel
/-- R264: a zero word is its own codeword; an error of symbol 67 is corrected, two errors of symbols 0 and 67 are found. -/
theorem test_code : eccCheck ((List.replicate 68 (0 : Byte)).set 67 9) = .corrected 67 (List.replicate 68 0) := by decide +kernel
theorem test_code_two : (match eccCheck (((List.replicate 68 (0 : Byte)).set 0 1).set 67 1) with | .uncorrectable _ => true | _ => false) = true := by decide +kernel
theorem witness_code : (List.replicate 65 (0 : Byte)).length = 65 ∧ (0 : Nat) ≠ 67 ∧ (1 : Byte) ≠ 0 := by decide

/-- Controller 0 as x, and packets at its port; codeword 0 lies in its channel 0, bank 0, row 0. -/
def run0m : MemCtl := { MemCtl.reset with st := .run, trained := 15 }
def mcd (x : MemCtl) (p : List Packet) : Device := { dev0.setRouter 1 { Router.reset with inbox := if p = [] then [] else [(0, p)] } with mcs := [(0, x)] }
def mc0 (x : MemCtl) (p : List Packet) : State := st (mcd x p)
def withCh (x : MemCtl) (c : Channel) : MemCtl := { x with ch := [(0, c)] }
def rdp (n : Nat) : Packet := (mkRead false ⟨0, 0⟩ 3 0 n).toPort ⟨1, 0⟩
/-- A WRITE of one flit at address 0: codewords 0 and 1. -/
def wrp : Packet := (mkWrite false ⟨0, 0⟩ 3 0 (9 :: List.replicate 127 0)).toPort ⟨1, 0⟩
def chn (d : Device) : Channel := (d.mc 0).chan 0
/-- What waits to be sent at controller 0's port: types and statuses. -/
def mcOut (d : Device) : List (Nat × Nat) := (Sparse.get [] (d.router 1).outbox 0).map fun e => (e.2.type, fld e.2.hdr 11 8)
def rq0 : ReadReq := ⟨0, .net 0, false, false⟩
def we0 : WriteEntry := ⟨0, List.replicate 64 7, BitVec.allOnes 64, false⟩

theorem test_mc_read : (after (.mcReadRequest 0) (mc0 run0m [rdp 128])).map (fun d => ((chn d).readq.map (·.addr), (d.inboxOf ⟨1, 0⟩).length, (d.mc 0).asm.map (·.left))) = some ([0, 1], 0, [2]) := by decide +kernel
theorem test_mc_frozen : (after (.mcReadRequest 0) (mc0 { run0m with st := .frozen } [rdp 64])).map mcOut = some [(4, Status.memoryFrozen.code)] := by decide +kernel
theorem test_mc_write : (after (.mcWriteRequest 0) (mc0 run0m [wrp])).map (fun d => ((chn d).wbuf.map (fun e => (e.addr, e.data.headD 0)), mcOut d)) = some ([(0, 9), (1, 0)], [(5, 0)]) := by decide +kernel
theorem test_write_accept : (after (.writeEntryAccept 0) (mc0 { run0m with waitW := [wrp] } [])).map (fun d => ((d.mc 0).waitW.length, (chn d).wbuf.length)) = some (0, 2) := by decide +kernel
/-- R255: a read of a closed bank opens row 0 first; then it is issued. -/
theorem test_issue_activate : (after (.dramCommandIssue 0 0) (mc0 (withCh run0m { Channel.reset with readq := [rq0] }) [])).map (fun d => ((chn d).openRow, (chn d).readq.length)) = some ([(0, 1)], 1) := by decide +kernel
theorem test_issue_read : (after (.dramCommandIssue 0 0) (mc0 (withCh run0m { Channel.reset with readq := [rq0], openRow := [(0, 1)] }) [])).map (fun d => ((chn d).issued.length, (chn d).readq.length)) = some (1, 0) := by decide +kernel
theorem test_issue_write : (after (.dramCommandIssue 0 0) (mc0 (withCh run0m { Channel.reset with wbuf := [we0], openRow := [(0, 1)] }) [])).map (fun d => (d.dram.byte 63, (chn d).wbuf.length)) = some (7, 0) := by decide +kernel
/-- R260: nine refreshes due go before any read. -/
theorem test_issue_refresh : (after (.dramCommandIssue 0 0) (mc0 (withCh run0m { Channel.reset with readq := [rq0], due := 9 }) [])).map (fun d => ((chn d).due, (chn d).refBank)) = some (8, 1) := by decide +kernel
def reading (k : RdKind) (a : List ReadAsm) : State := mc0 { withCh run0m { Channel.reset with issued := [⟨0, k, false, false⟩] } with asm := a } []
theorem test_read_data : (after (.dramReadData 0 0 []) (reading (.net 4) [⟨4, rdp 64, 1, [], .success⟩])).map (fun d => ((d.mc 0).asm.length, mcOut d)) = some (0, [(4, 0)]) := by decide +kernel
theorem test_read_corrected : (after (.dramReadData 0 0 [(67, 9)]) (reading .scrub [])).map (fun d => ((d.mc 0).symbol, (d.counter 0x31 0).value, (chn d).wbuf.map (·.addr))) = some (67, 1, [0]) := by decide +kernel
theorem test_read_uncorrectable : (after (.dramReadData 0 0 [(0, 1), (67, 1)]) (reading .scrub [])).map (fun d => ((d.mc 0).st, (d.mc 0).frzCause, (d.counter 0x32 0).value)) = some (.frozen, 1, 1) := by decide +kernel
theorem test_parity : (after (.parityFailure 0 0) (mc0 (withCh run0m { Channel.reset with lastCmd := some (4, 0), due := 2 }) [])).map (fun d => ((d.mc 0).st, (d.mc 0).frzCause, (d.mc 0).frzRefresh, (chn d).due)) = some (.frozen, 2, true, 3) := by decide +kernel
theorem test_refresh_due : (after (.refreshDue 0 0) (mc0 (withCh run0m { Channel.reset with early := 1 }) [])).map (fun d => ((chn d).early, (chn d).due)) = some (0, 0) := by decide +kernel
theorem test_temp_hot : (after (.dramTempRead 0 86) (mc0 { run0m with trainTemp := 77 } [])).map (fun d => ((d.mc 0).hot, (chn d).retrainDue)) = some (true, false) := by decide +kernel
theorem test_temp_retrain : (after (.dramTempRead 0 84) (mc0 { run0m with trainTemp := 74, hot := true } [])).map (fun d => ((d.mc 0).hot, (chn d).retrainDue)) = some (true, true) := by decide +kernel
theorem test_retrained : (after (.retrainChannelDone 0 0) (mc0 { withCh run0m { Channel.reset with closed := true, retrainDue := true } with temp := 90 } [])).map (fun d => ((chn d).closed, (d.mc 0).trainTemp)) = some (false, 90) := by decide +kernel
theorem test_aged : (after (.agePromote 0 0 1) (mc0 (withCh run0m { Channel.reset with readq := [rq0, rq0] }) [])).map (fun d => (chn d).readq.map (·.aged)) = some [false, true] := by decide +kernel
theorem test_patrol : (after (.patrolScrubRead 0) (mc0 run0m [])).map (fun d => ((chn d).readq.map (·.addr), (d.mc 0).pos)) = some ([0, 1, 2, 3], 1) := by decide +kernel
theorem test_patrol_wraps : (after (.patrolScrubRead 0) (mc0 { run0m with pos := 0x7FFFFF } [])).map (fun d => ((d.mc 0).passes, (d.mc 0).pos)) = some (1, 0) := by decide +kernel

theorem mem_tables (p : List Packet) : MemTables (mcd run0m p) := by
  have h : ∀ m, ((mcd run0m p).mc m).ch = [] := by
    intro m
    by_cases e : m = 0
    · subst e; rfl
    · have : (mcd run0m p).mc m = MemCtl.reset := by simp [Device.mc, mcd, Sparse.get]; omega
      rw [this]; rfl
  refine ⟨rfl, rfl, rfl, by show Sparse.wf MemCtl.reset [(0, run0m)] = true; decide, fun m => ⟨by rw [h]; rfl, fun ci e he => ?_⟩⟩
  simp only [MemCtl.chan, h m] at he
  exact absurd he (by simp [Sparse.get, Channel.reset])
theorem witness_memory : ∀ p ∈ [rdp 64, rdp 128, wrp],
    let d := mcd run0m [p]
    MemTables d ∧ (Sparse.wf Router.reset d.routers = true ∧ Sparse.wf [] (d.router (mcRouter 0)).inbox = true ∧ Sparse.wf Counter.zero d.ctrs = true) ∧ d.inboxOf ⟨mcRouter 0, 0⟩ = [p] ∧ (d.mc 0).st = .run := by
  intro p hp
  simp only [List.mem_cons, List.not_mem_nil, or_false] at hp
  obtain rfl | rfl | rfl := hp <;> exact ⟨mem_tables _, by decide +kernel⟩
theorem witness_first : FirstIn [wrp, rdp 64] (fun k => k.type == 1) (rdp 64) [wrp] ∧ FirstIn [rdp 64, wrp] (fun k => k.type == 2 || k.type == 3) wrp [rdp 64] :=
  ⟨⟨[wrp], [], rfl, rfl, by decide, by decide⟩, ⟨[rdp 64], [], rfl, rfl, by decide, by decide⟩⟩
/-- R257, R273: the write with PANIC is next though it came later; without one the oldest. -/
def wrpP : Packet := { wrp with hdr := wrp.hdr ||| 0x800000000000000 }
theorem witness_next_write : NextWrite [wrp, wrpP] wrpP [wrp] ∧ NextWrite [wrp, wrp] wrp [wrp] ∧ (wrpP.panic = true ∧ wrpP.type = 2) :=
  ⟨.inl ⟨[wrp], [], rfl, rfl, by decide, by decide⟩, .inr ⟨by decide, rfl⟩, by decide⟩
theorem test_panic_ahead : (after (.mcWriteRequest 0) (mc0 { run0m with waitW := [wrp] } [wrpP])).map (fun d => ((d.mc 0).waitW.length, (chn d).wbuf.length)) = some (1, 2) := by decide +kernel
theorem test_no_panic_waits : (after (.mcWriteRequest 0) (mc0 { run0m with waitW := [wrp] } [wrp])).map (fun d => ((d.mc 0).waitW.length, (chn d).wbuf.length)) = some (2, 0) := by decide +kernel
/-- R336: a controller whose die has lost its clocks takes nothing. -/
theorem test_unclocked : (let d := mcd (withCh run0m { Channel.reset with wbuf := [we0], openRow := [(0, 1)] }) []
    (after (.dramCommandIssue 0 0) (st { d with pwr := { d.pwr with pll := [1] } })).map (fun d => (chn d).wbuf.length)) = some 1 ∧ 0 / 24 ∉ ({ dev0.pwr with pll := [1] } : Power).pll ∧ 0 / 24 ∈ dev0.pwr.pll := by decide +kernel
/-- R265: a correction that finds the buffer full keeps its place for the next free entry. -/
theorem test_back_waits : (after (.dramReadData 0 0 [(67, 9)]) (mc0 (withCh run0m { Channel.reset with issued := [⟨0, .scrub, false, false⟩], wbuf := List.replicate 64 { we0 with addr := 1 } }) [])).map (fun d => ((chn d).backs.map (·.addr), (chn d).wbuf.length)) = some ([0], 64) := by decide +kernel
theorem test_back_enters : (after (.dramCommandIssue 0 0) (mc0 (withCh run0m { Channel.reset with wbuf := [we0], backs := [{ we0 with addr := 1 }], openRow := [(0, 1)] }) [])).map (fun d => ((chn d).backs.length, (chn d).wbuf.map (·.addr))) = some (0, [1]) := by decide +kernel
/-- R259: a batch begun at 48 entries with reads waiting goes on after its first write, to 17 left. -/
theorem witness_batch : (let ch := { Channel.reset with readq := [rq0], wbuf := List.replicate 48 we0 }; (mcd (withCh run0m ch) []).panicWaits 0 0 = false ∧ 48 ≤ ch.wbuf.length ∧ 17 < ch.wbuf.length) := by decide +kernel
theorem witness_panic_waits : (mcd { run0m with waitW := [wrpP] } []).panicWaits 0 0 = true ∧ (mcd { run0m with waitW := [wrp] } []).panicWaits 0 0 = false ∧
    (mcd (withCh run0m { Channel.reset with readq := [{ rq0 with panic := true }] }) []).panicWaits 0 0 = true := by decide +kernel
/-- A buffer with room for exactly the two entries, and one with room for one. -/
theorem witness_room : ∀ n ∈ [62, 63], (RoomFor (mcd (withCh run0m { Channel.reset with wbuf := List.replicate n we0 }) [wrp]) 0 wrp ↔ n = 62) := by
  intro n hn
  simp only [List.mem_cons, List.not_mem_nil, or_false] at hn
  obtain rfl | rfl := hn <;> (simp only [RoomFor]; decide +kernel)
theorem witness_write_packet : wrp.type = 2 ∧ wrp.pay.length = wrp.flits ∧ wrp.flits ≤ 4 := by decide
theorem witness_read_data :
    (∀ k ∈ [RdKind.scrub, .merge, .net 4], (((mcd (withCh run0m { Channel.reset with issued := [⟨0, k, false, false⟩] }) []).mc 0).chan 0).issued = ⟨0, k, false, false⟩ :: []) ∧
    (let w := withErrors ((mc0 run0m []).dev.cwRaw 0) []; eccCheck w = .clean ∧ bitAt (w.getD 64 0) 0 = false) ∧
    (let w := withErrors ({ (mc0 run0m []).dev with side := [(0, 1)] }.cwRaw 0) []; (mc0 run0m []).dev.cwPoison 0 = false ∧ w.length = 68) ∧
    eccCheck (withErrors ((mc0 run0m []).dev.cwRaw 0) [(67, 9)]) = .corrected 67 ((mc0 run0m []).dev.cwRaw 0) := by decide +kernel
/-- What each channel does next. -/
theorem witness_next : ∀ e ∈ [(({ Channel.reset with readq := [rq0] } : Channel), NextCmd.read 0), ({ Channel.reset with wbuf := [we0] }, .write 0), ({ Channel.reset with due := 9 }, .refresh),
      ({ Channel.reset with readq := [rq0, { rq0 with panic := true }] }, .read 1), ({ Channel.reset with closed := true }, .idle), (Channel.reset, .pullIn)],
    let d := mcd (withCh run0m e.1) []
    d.nextCmd 0 0 = e.2 ∧ ((d.mc 0).chan 0).closed = e.1.closed := by decide +kernel
theorem witness_memory_states : run0m.st = .run ∧ dev0.mcOn 191 = true ∧ ({ Channel.reset with lastCmd := some (2, 5), lastWrite := some we0 } : Channel).lastCmd = some (2, 5) ∧ MemCtl.reset.st = .off ∧
    (∀ j, j < 4 → (run0m.chan j).retrainDue = false ∧ (run0m.chan j).closed = false) ∧ we0.mask = BitVec.allOnes 64 ∧ we0.data.length = 64 ∧ (74 : Byte).toNat + 10 ≤ (84 : Byte).toNat := by decide +kernel

/-- A package of one frond, frond 0 of LD0, and controller 0: powered, in state st, with bring-up as b. -/
def bootDev (s : DevState) (b : Boot) : Device :=
  { Device.reset with
    fuses := { Fuses.reset with frondEn := [1, 0, 0, 0, 0, 0, 0, 0], mcEn := [1, 0, 0, 0, 0, 0, 0, 0] }
    rst := { Rst.reset with st := s }, boot := b, pwr := { Power.reset with pll := List.range 8 } }
def bs (s : DevState) (b : Boot) : State := st (bootDev s b)
def b0 : Boot := { Boot.reset with sensed := true, dms := List.range 8 }

theorem test_fuse_sense : (after .fuseSense (st Device.reset)).map (fun d => (d.boot.sensed, d.boot.step, d.pwr.pll.length)) = some (true, 1, 8) := by decide +kernel
/-- R432: with no image in either slot LD0's core serves recovery; two measurements are on their way. -/
theorem test_sec_boot : (after (.secBoot ⟨0, true, true⟩) (bs .reset { Boot.reset with sensed := true, step := 1 })).map (fun d => (d.rst.st, d.sec.recovery, d.sec.inbox.map (·.kind))) = some (.diagHold, true, [1, 3]) := by decide +kernel
/-- R437's example: the ROM entries come before the FIRMWARE entries, in ascending die order, and OWNER after them. -/
theorem test_boot_order : (after (.secBoot ⟨0, true, true⟩) (st { bootDev .reset { Boot.reset with sensed := true, step := 2 } with
    sec := { Sec.reset with inbox := [⟨1, 1, 0, 0, 0, 0, [], none, none⟩, ⟨2, 1, 0, 0, 0, 0, [], none, none⟩] } })).map (fun d => d.sec.inbox.map fun m => (m.kind, m.die)) =
    some [(1, 0), (1, 1), (2, 1), (3, 0)] := by decide +kernel
/-- R425: the vote of the copies leaves bit 1 of SVC blown without bit 0. -/
def badSvc : State :=
  let d := bootDev .reset { Boot.reset with sensed := true, step := 1 }
  let f : SecFuses := ⟨0, 0, 0, 0, 0, 0, 2⟩
  st { d with fuses := { d.fuses with secCopies := [f, { f with svc := 1 }, f] } }
theorem test_sec_boot_crc : (after (.secBoot ⟨3, true, true⟩) badSvc).map (fun d => (d.rst.cause, d.boot.sensed)) = some (.security, false) := by decide +kernel
theorem test_network : (after (.networkSelftestDone []) (bs .early { b0 with step := 3 })).map (fun d => d.boot.step) = some 4 := by decide +kernel
theorem test_network_fails : (after (.networkSelftestDone [(2, 1)]) (bs .early { b0 with step := 3 })).map (fun d => (d.rst.st, (d.buDie 7).holdCause)) = some (.diagHold, 3) := by decide +kernel
/-- R16 to R18, R362: at router 0 the bridges in -X and -Y, the only frond, link 0 and the router; at router 1 the only controller and port A of patch 0, and one bridge. -/
theorem test_expected : ((bootDev .early b0).expectedAt 0).map (fun a => (a.port, a.id)) = [(0, .bridge), (2, .bridge), (4, .unit (.frond 0)), (5, .unit (.link 0)), (6, .router 0 0)] ∧
    ((bootDev .early b0).expectedAt 1).map (fun a => (a.port, a.id)) = [(2, .bridge), (4, .unit (.mc 0)), (5, .unit (.patch 0 false)), (6, .router 1 0)] := by decide +kernel
/-- R362, R380: of 300 answers that no unit should give, 255 are counted; what does not answer is missing. -/
theorem test_census_fails : (after (.census (List.replicate 300 ⟨100, 5, .bridge⟩)) (bs .early { b0 with step := 4 })).map (fun d => ((d.buDie 2).extra, (d.buDie 3).extra, (d.buDie 0).agree, (d.buDie 0).holdCause)) = some (255, 0, false, 2) := by decide +kernel
/-- What the census asks for is what agrees. -/
theorem expected_at (d : Device) (r : Nat) (a : Answer) (h : a ∈ d.expectedAt r) : a.r = r := by
  simp only [Device.expectedAt, List.mem_append, List.mem_map, List.mem_singleton] at h
  rcases h with (⟨o, -, rfl⟩ | ⟨o, -, rfl⟩) | rfl <;> rfl
theorem witness_census (d : Device) : ∀ a, a ∈ (List.range 384).flatMap d.expectedAt ↔ a.r < 384 ∧ a ∈ d.expectedAt a.r := by
  intro a
  simp only [List.mem_flatMap, List.mem_range]
  exact ⟨fun ⟨r, h1, h2⟩ => by rw [expected_at d r a h2]; exact ⟨h1, h2⟩, fun ⟨h1, h2⟩ => ⟨a.r, h1, h2⟩⟩
theorem test_dram_train : (after (.dramTrainDone 0 false) (bs .early { b0 with step := 5 })).map (fun d => ((d.mc 0).st, (d.mc 0).trained, d.boot.trained, d.boot.step)) = some (.run, 0xF, [0], 6) := by decide +kernel
theorem test_dram_train_fails : (after (.dramTrainDone 0 true) (bs .early { b0 with step := 5 })).map (fun d => (d.rst.st, d.cxl.mediaErr)) = some (.diagHold, true) := by decide +kernel
theorem test_dram_test : (after (.dramTestDone 1 false) (bs .early { b0 with step := 6, trained := [0, 1] })).map (fun d => (d.boot.serving, d.boot.step, (d.sched.spore.map (·.base)))) = some ([1], 6, none) := by decide +kernel
theorem test_part_one : (after (.selftestPartDone 5 false [] true) (bs .early { b0 with step := 8 })).map (fun d => ((d.tile 5).avail, (d.tile 5).partI, (d.buDie 0).discrep)) = some (.selftest, true, 1) := by decide +kernel
/-- R74: a faulty column that SPARE_SEL of array 2 does not map out leaves the tile out of service. -/
theorem test_part_one_spare : (after (.selftestPartDone 5 true [(2, 1)] true) (bs .early { b0 with step := 8 })).map (fun d => ((d.tile 5).avail, bitAt (d.tile 5).arr.spareOk 2, bitAt (d.tile 5).arr.spareOk 3)) = some (.selftest, false, true) := by decide +kernel
def twoTested : State := let d := bootDev .early { b0 with step := 8 }; st { d with tiles := (List.range 15).map fun t => (t, { Tile.reset with partI := true }) }
theorem test_part_one_ends : (after (.selftestPartDone 15 true [] true) twoTested).map (fun d => (d.rst.st, d.boot.step, d.boot.toTest, (d.frond 0).baseDiv)) = some (.fiddlehead, 9, [0], 4) := by decide +kernel
theorem test_batch : (after .partIIBatch (bs .fiddlehead { b0 with step := 9, toTest := [0] })).map (fun d => (d.boot.batch, (d.frond 0).withheld, (d.frond 0).baseDiv)) = some ([0], true, 2) := by decide +kernel
theorem test_closing : (after .closing (bs .fiddlehead { b0 with step := 11 })).map (fun d => (d.rst.st, d.boot.step, d.sec.inbox.length)) = some (.ready, 12, 8) := by decide +kernel

theorem boot_tables (s : DevState) (b : Boot) (h : b.dies = []) : BootTables (bootDev s b) := by
  refine ⟨rfl, rfl, rfl, rfl, ?_, fun t => rfl⟩
  show Sparse.wf BuDie.reset b.dies = true
  rw [h]; rfl
/-- Each step's own hypotheses: the steps 3, 4, 5, 8, 9, 10 and 11, with the die managers running. -/
theorem witness_bring_up :
    (∀ n ∈ [3, 4, 5, 6, 8, 9, 10, 11], let d := bootDev .early { b0 with step := n }
      (Booting d ∧ d.boot.step = n) ∧ d.boot.warm = false ∧ (∀ j, j < 8 → j ∈ d.boot.dms) ∧ d.boot.batch = []) ∧
    (let d := bootDev .reset { Boot.reset with sensed := true, step := 1 }
     (Booting d ∧ d.boot.sensed = true ∧ ∀ j, j < 8 → j ∈ d.pwr.pll) ∧ d.boot.step ≤ 2 ∧ 0 ∉ d.boot.cores ∧ d.fuses.secCrcBad = false ∧ (d.fuses.svcBits &&& (d.fuses.svcBits + 1)) = 0) ∧
    (let d := bootDev .reset { Boot.reset with sensed := true, step := 2, cores := [0, 1, 2, 3, 4, 5, 6] }; d.boot.cores.length = 7 ∧ 7 ∉ d.boot.cores ∧ d.sec.recovery = false ∧ d.sec.fwOk.length ≤ 7) ∧
    (let d := bootDev .early { b0 with step := 5 }; DramRuns d 0 ∧ 0 ∉ d.boot.trained) ∧ (let d := bootDev .early { b0 with step := 6, trained := [0] }; DramRuns d 0 ∧ 0 ∈ d.boot.trained ∧ 0 ∉ d.boot.serving) ∧
    (let d := bootDev .diagHold { b0 with step := 13 }; DramRuns d 7) := by
  refine ⟨?_, ?_, ?_, ?_, ?_, ?_⟩ <;> (simp only [Booting, DramRuns]; decide +kernel)
/-- No slot holds an image, or no core took one in: no core boots. -/
theorem witness_recovery (intact : Bool → Bool) : (bootDev .reset { Boot.reset with sensed := true, step := 1 }).bootSlot intact = none ∧ BootsFrom (bootDev .reset { Boot.reset with sensed := true, step := 1 }) intact none := by
  have h : ∀ b, (bootDev .reset { Boot.reset with sensed := true, step := 1 }).slotImage b = .error .invalidParam := by
    intro b
    unfold Device.slotImage
    cases b <;> exact if_pos (by decide +kernel)
  refine ⟨by unfold Device.bootSlot; simp only [h], fun img hi => absurd hi.1 (by rw [h]; simp), fun _ => ⟨fun img hi => absurd hi.1 (by rw [h]; simp), fun _ => rfl⟩⟩
/-- A slot whose image passes is booted from, if the core has taken it in (log entry 3). -/
theorem witness_boots (d : Device) (img : List Byte) (h : d.slotImage d.selected.1 = .ok img) : BootsFrom d (fun _ => true) (some (d.selected.1, img)) :=
  ⟨fun i hi => by rw [Except.ok.inj (h.symm.trans hi.1)], fun hn => absurd ⟨h, rfl⟩ (hn img)⟩
theorem witness_copies : (∃ x y z, Device.reset.fuses.copies = [x, y, z]) ∧ (∃ x y z, Device.reset.fuses.secCopies = [x, y, z]) ∧ Booting Device.reset ∧ Device.reset.boot.sensed = false ∧
    (let d := bootDev .early { b0 with step := 4 }
     d.boot.dramStopped = false ∧ d.boot.dramFailed = [] ∧ d.boot.trained = [] ∧ 0 ∈ d.mcsOf 0 ∧ (d.mc 0).st = .off ∧ d.host.inflight = []) := by
  refine ⟨⟨_, _, _, rfl⟩, ⟨_, _, _, rfl⟩, ?_⟩
  simp only [Booting]; decide +kernel
theorem witness_majority : MajorityOf (5 : BitVec 8) 6 12 4 ∧ MajorityOf (0xFF : BitVec 8) 0xFF 0 0xFF := by
  have e : ∀ a b c v : BitVec 8, (∀ i, i < 8 → (v.getLsbD i = true ↔ (a.getLsbD i = true ∧ b.getLsbD i = true) ∨ (a.getLsbD i = true ∧ c.getLsbD i = true) ∨ (b.getLsbD i = true ∧ c.getLsbD i = true))) → MajorityOf a b c v := by
    intro a b c v h i
    by_cases hi : i < 8
    · exact h i hi
    · simp [BitVec.getLsbD_of_ge _ _ (Nat.not_lt.mp hi)]
  exact ⟨e _ _ _ _ (by decide), e _ _ _ _ (by decide)⟩
theorem witness_self_test :
    (let d := bootDev .early { b0 with step := 8 }; d.tileOn 15 = true ∧ (d.tile 15).partI = false ∧ (∀ i, i < 8 → fld (d.tile 15).arr.spareSel (3 * i) 3 ≤ 4) ∧ d.frondsOf 0 = [0] ∧
      (∃ j u, j < 8 ∧ u ∈ d.testTiles j ∧ (d.tile u).partI = false)) ∧
    (let d := twoTested.dev.setTile 15 { twoTested.dev.tile 15 with partI := true, arr := { (twoTested.dev.tile 15).arr with spareOk := 0xFF } }; ∀ j u, j < 8 → u ∈ d.testTiles j → (d.tile u).partI = true) ∧
    (let d := bootDev .fiddlehead { b0 with step := 9, batch := [0] }; d.tileOn 3 = true ∧ (d.tile 3).partII = false ∧ 3 / 16 ∈ d.boot.batch) ∧
    (let d := bootDev .fiddlehead { b0 with step := 9, toTest := [0] }; d.boot.toTest ≠ [] ∧ (∀ f ∈ d.boot.toTest.take 4, d.frondWorks f = false ∧ (d.frond f).reserved = [])) := by
  refine ⟨⟨by decide +kernel, by decide +kernel, by decide +kernel, by decide +kernel, 0, 0, by decide, by decide +kernel, by decide +kernel⟩, ?_, by decide +kernel, by decide +kernel⟩
  have h : ∀ j, j < 8 → ∀ u ∈ (twoTested.dev.setTile 15 { twoTested.dev.tile 15 with partI := true, arr := { (twoTested.dev.tile 15).arr with spareOk := 0xFF } }).testTiles j,
      ((twoTested.dev.setTile 15 { twoTested.dev.tile 15 with partI := true, arr := { (twoTested.dev.tile 15).arr with spareOk := 0xFF } }).tile u).partI = true := by decide +kernel
  exact fun j u hj hu => h j hj u hu

/-- A broadcast of 20 instructions at 100, image 9, to LD0. -/
def sp9 : Spore := { cmd := none, image := 9, base := 100, body := (List.range 20).map fun i => BitVec.ofNat 64 (i + 1), dies := 1, prog := 0, hdr := [], setupDone := true, queue := [], asked := [], missing := [], sent := false, tiles := [(0, 1)], loaded := 0, excluded := 0 }
def job9 : SporeJob := ⟨9, 100, 20, [0, 1]⟩
def loading (c : List Nat) : Tile := { Tile.reset with seq := { Seq.reset with st := .loading }, chunks := c }
def sps (x : Spore) (T : Tile) (F : Frond) : State := let d := bootDev .early { b0 with step := 7 }; st { d with sched := { d.sched with spore := some x }, tiles := [(0, T)], fronds := [(0, F)] }
def F9 : Frond := { Frond.reset with spore := some job9 }
def theSpore (d : Device) : List (Nat × SporeDest) × List Nat × List (Nat × List Nat) := match d.sched.spore with | some x => (x.queue, x.asked, x.missing) | none => ([], [], [])
theorem test_spore_setup : (after .sporeSetup (sps { sp9 with setupDone := false, tiles := [] } Tile.reset Frond.reset)).map (fun d => ((theSpore d).1, (d.tile 15).seq.st, (d.frond 0).spore.map (fun j => j.tiles.length))) = some ([(0, .all), (1, .all)], .loading, some 16) := by decide +kernel
theorem test_chunk_send : (after .sporeChunkSend (sps { sp9 with queue := [(1, .tile 0)] } (loading []) F9)).map (fun d => ((d.frond 0).unicasts.map (fun e => (e.1, fld e.2.hdr 0 22)), (d.sched.spore.map (·.sent)))) = some ([(0, 9217)], some true) := by decide +kernel
/-- R363: chunk 1 holds the last four of 20 instructions: 17 to 20, at 116 to 119. -/
theorem test_chunk_write : (after (.sporeChunkWrite 0 []) (sps sp9 (loading [0]) { F9 with mcBuf := [sp9.packet 1 .all] })).map (fun d => ((d.tile 0).imem, (d.tile 0).chunks)) = some ([(116, 17), (117, 18), (118, 19), (119, 20)], [0, 1]) := by decide +kernel
theorem test_report_request : (after .sporeReportRequest (sps { sp9 with sent := true, tiles := [(0, 1), (1, 0)] } (loading []) F9)).map theSpore = some ([], [0], []) := by decide +kernel
theorem test_report_missing : (after (.sporeReport 0) (sps { sp9 with asked := [0] } (loading [1]) F9)).map theSpore = some ([], [], [(0, [0])]) := by decide +kernel
theorem test_report_complete : (after (.sporeReport 0) (sps { sp9 with asked := [0] } (loading [0, 1]) F9)).map (fun d => (d.sched.spore.isNone, (d.tile 0).seq.st, d.boot.step)) = some (true, .idle, 8) := by decide +kernel
theorem test_report_timeout : (after (.sporeReportTimeout 0) (sps { sp9 with asked := [0] } (loading []) F9)).map theSpore = some ([], [], [(0, [0, 1])]) := by decide +kernel
theorem test_repair : (after .sporeRepairRound (sps { sp9 with missing := [(0, [1])] } (loading [0]) F9)).map theSpore = some ([(1, .tile 0)], [], []) := by decide +kernel
theorem test_repair_excludes : (after .sporeRepairRound (sps { sp9 with missing := [(0, [1])], tiles := [(0, 5)] } (loading [0]) F9)).map (fun d => ((d.tile 0).avail, d.sched.spore.isNone)) = some (.spore, true) := by decide +kernel

theorem witness_spore :
    (let d := (sps { sp9 with setupDone := false, tiles := [] } Tile.reset Frond.reset).dev
     bitAt sp9.dies 0 = true ∧ 0 ∈ d.frondsOf 0 ∧ d.tilesOf 0 ≠ [] ∧ d.canJoin 15 = true) ∧
    (let d := (sps { sp9 with asked := [0] } (loading [0, 1]) F9).dev
     0 ∈ ({ sp9 with asked := [0] } : Spore).asked ∧ (∀ i, i < (sp9.body.length + 15) / 16 → i ∈ (d.tile 0).chunks) ∧ (∀ e ∈ sp9.tiles, e.1 = 0) ∧ Sparse.wf Router.reset d.routers = true) ∧
    (¬ ∀ i, i < (sp9.body.length + 15) / 16 → i ∈ (loading [1]).chunks) ∧ (∃ e ∈ ({ sp9 with tiles := [(0, 1), (1, 0)] } : Spore).tiles, e.1 ≠ 0) ∧
    (let x := { sp9 with missing := [(0, [1])], tiles := [(0, 4)] }; x.setupDone = true ∧ x.queue = [] ∧ x.sent = false ∧ x.asked = [] ∧ x.missing = [(0, [1])]) ∧
    dev0.sched.spore = none ∧ fld (sp9.packet 1 .all).hdr 10 12 = job9.image.toNat := by
  refine ⟨by decide +kernel, by decide +kernel, by decide, ?_, by decide, by decide, by decide +kernel⟩
  exact ⟨(1, 0), by decide, by decide⟩
theorem spore_tables : BootTables (sps sp9 (loading [0]) F9).dev := by
  refine ⟨by decide +kernel, by decide +kernel, rfl, rfl, rfl, ?_⟩
  intro t
  by_cases h : t = 0
  · subst h; rfl
  · have : (sps sp9 (loading [0]) F9).dev.tile t = Tile.reset := by simp [Device.tile, sps, st, Sparse.get]; omega
    rw [this]; rfl

/-- The READY device with the CXL port as c, die 0's DRAM in service. -/
def cxDev (c : Cxl) : Device := { dev0 with cxl := c, boot := { Boot.reset with serving := [0] } }
def cx (c : Cxl) : State := st (cxDev c)
def upC : Cxl := { Cxl.reset with up := true, cxlMode := true, bme := true, mse := true, hdm := true, hdmSize := 0x6000000000, hdmWays := 1, hdmGran := 256 }

/-- R382: CXL mode at 8 GT/s over four lanes; two lanes fall back to PCIe, as 2.5 GT/s does. A missing reference clock makes the port use its own. -/
theorem test_link_l0 : (after (.cxlLinkL0 true .g8 4) (cx Cxl.reset)).map (fun d => (d.cxl.up, d.cxl.cxlMode)) = some (true, true) := by decide +kernel
theorem test_link_narrow : (after (.cxlLinkL0 true .g8 2) (cx { Cxl.reset with lost := true, devBias := [1] })).map (fun d => (d.cxl.cxlMode, d.cxl.devBias)) = some (false, []) := by decide +kernel
theorem test_link_slow : (after (.cxlLinkL0 true .g2_5 16) (st { cxDev Cxl.reset with mod := { Module.reset with refclk := false } })).map (fun d => (d.cxl.up, d.cxl.cxlMode, d.cxl.sris)) = some (true, false, true) := by decide +kernel
theorem test_host_link_down : (after .cxlLinkDown (hc (cmd 0x00 []))).map (fun d => ((d.queue 1).st, (d.queue 1).error, d.host.fetchStopped, d.cxl.lost)) = some (.stopped, 0x7F, true, true) := by decide +kernel
/-- A held completion goes out with the enable. -/
def heldDev : Device :=
  let c := { cmd 0x00 [] with held := some (cplOf .success), noint := true, st := .completing }
  { withCmd dev0 c with host := { (withCmd dev0 c).host with heldOrder := [some (1, 7)] }, cxl := { upC with bme := false } }
theorem test_bme : (after (.busMasterEnable ⟨true, true, true, false⟩) (st heldDev)).map (fun d => (d.hostMem.num 0x10000 2, d.host.inflight.length)) = some (7, 0) := by decide +kernel
theorem test_d3 : (after (.dStateChange true) (cx upC)).map (fun d => d.cxl.d3) = some true := by decide +kernel
theorem test_hdm : (after (.hdmCommit 8 16384 ⟨0x10000000000, 0x6000000000⟩ 0) (cx { upC with hdm := false })).map (fun d => (d.cxl.hdm, d.cxl.hdmErr)) = some (true, false) := by decide +kernel
theorem test_hdm_ways : (after (.hdmCommit 3 256 ⟨0, 0x6000000000⟩ 0) (cx upC)).map (fun d => (d.cxl.hdm, d.cxl.hdmErr)) = some (false, true) := by decide +kernel
theorem test_doe : (after (.doeRequest 3 []) (cx upC)).map (fun d => d.cxl.doe) = some (some (true, [])) := by decide +kernel
theorem test_snoop : (after (.hostSnoop 0x7F) (cx { upC with dcc := [(1, []), (2, [])] })).map (fun d => d.cxl.dcc.map (·.1)) = some [2] := by decide +kernel
theorem test_cache_data : (after (.cxlCacheResponse 0x7F (List.replicate 64 5)) (cx upC)).map (fun d => (d.hostMem.byte 0x40, d.hostMem.byte 0x7F)) = some (5, 5) := by decide +kernel
theorem test_cache_resolves : (after (.cxlCacheResponse 0x40 []) (st ((cxDev upC).setRouter 1 { Router.reset with coher := [(hop2, [1])] }))).map (fun d => ((d.router 1).coher.length, (d.inboxOf ⟨1, 0⟩).length)) = some (0, 1) := by decide +kernel
def cxOut (d : Device) : List (Option Nat × Nat) := (Sparse.get [] (d.router cxlRouter).outbox 1).map fun e => (e.1, e.2.type)
theorem test_mem_read : (after (.cxlMemRead 0x47) (cx upC)).map (fun d => (cxOut d, d.cxl.rxbuf.length)) = some ([(some 0x40, 1)], 1) := by decide +kernel
theorem test_mem_uncommitted : (after (.cxlMemRead 0x47) (cx { upC with hdm := false })).map (fun d => d.cxl.memOut.map (·.1)) = some (some true) := by decide +kernel
theorem test_mem_write : (after (.cxlMemWrite 0x40 [9]) (cx upC)).map (fun d => (cxOut d, (Sparse.get [] (d.router cxlRouter).outbox 1).map (fun e => e.2.pay.map (fun x => fld x 512 8)))) = some ([(some 0x40, 3)], [[9, 0]]) := by decide +kernel

theorem witness_host_link :
    (let d := cxDev Cxl.reset; d.mod.powered = true ∧ d.rst.held = false ∧ d.mod.perst = false) ∧ Configured (cxDev upC) ∧ AllProtocols (cxDev upC) ∧ ¬Configured dev0 ∧ ¬AllProtocols dev0 ∧
    (let d := heldDev; d.host.heldOrder = [some (1, 7)] ∧ d.cxl.up = true ∧ (∃ c p, d.cmdOf 1 7 = some c ∧ c.held = some p ∧ c.noint = true ∧ c.discard = false ∧ isHost (d.queue c.q).cqBase = true)) ∧
    (∀ v, v < 64 → ¬(bitAt heldDev.host.msix.pba v = true ∧ bitAt heldDev.host.msix.unmasked v = true)) ∧
    (let m := { Msix.reset with pba := 0x8000000000000000, unmasked := 0x8000000000000000 }; ∀ w, w < 64 → (bitAt m.pba w = true ∧ bitAt m.unmasked w = true ↔ w = 63)) := by
  simp only [Configured, AllProtocols]
  refine ⟨by decide, by decide, by decide, by decide, by decide, ⟨by decide, by decide, _, _, rfl, rfl, by decide, by decide, by decide⟩, by decide, by decide⟩
/-- The second of two ways at 512 bytes: 0x10000000600 is its place 0x200; the last line decodes, the next does not; nothing decodes while a WARM reset warms. -/
theorem witness_serves_at : ServesAt (cxDev upC) 0x47 0x40 ∧ Decodes { upC with hdmBase := 0x10000000000, hdmWays := 2, hdmGran := 512 } 0x10000000600 0x200 ∧
    Decodes upC 0x5FFFFFFFC0 0x5FFFFFFFC0 ∧ (∀ h, ¬Decodes upC 0x6000000000 h) ∧ (∀ a, ¬ServesAt (cxDev { upC with warming := true }) 0 a) ∧ (∀ a, ¬ServesAt (cxDev { upC with hdm := false }) 0 a) := by
  refine ⟨⟨0x40, ?_, by decide +kernel, by decide, by decide⟩, ?_, ?_, ?_, fun a h => ?_, fun a h => ?_⟩
  · simp only [Decodes]; decide
  · simp only [Decodes]; decide
  · simp only [Decodes]; decide
  · intro h ⟨_, _, h1, h2⟩
    have : (0x6000000000 : Nat) = h := by rw [h1]; decide
    subst this; exact absurd h2 (by decide)
  · obtain ⟨h, -, -, -, hw⟩ := h; exact absurd hw (by decide)
  · obtain ⟨h, hd, -⟩ := h; exact absurd hd.1 (by decide)
theorem witness_sub : SubFree upC 0 ∧ ¬SubFree { upC with rxbuf := [(true, 0, 0)] } 0 ∧ SubFree { upC with rxbuf := [(true, 0, 0), (false, 1, 0)] } 1 ∧
    (¬∀ i, i < 64 → ¬SubFree upC i) := by
  refine ⟨?_, ?_, ?_, fun h => h 0 (by decide) ?_⟩ <;> (simp only [SubFree]; decide)
/-- Two writes of one place go under two SUBs. -/
theorem test_mem_write_sub : (after (.cxlMemWrite 0x40 [9]) (cx { upC with rxbuf := [(true, 0, 0x40)] })).map (fun d => d.cxl.rxbuf.map (·.2.1)) = some [0, 1] := by decide +kernel
/-- R388: the miss of a decoder of two ways reads as poison. -/
theorem test_mem_miss : (after (.cxlMemRead 0xFFFF0000000) (cx upC)).map (fun d => d.cxl.memOut.map (·.1)) = some (some true) := by decide +kernel
theorem witness_sendable : (let d := { cxDev { upC with msixEn := true } with host := { dev0.host with msix := { Msix.reset with pba := 2, unmasked := 3 } } }
    ∀ w, w < 64 → (Sendable d w ↔ w = 1)) := by simp only [Sendable]; decide
theorem witness_full : (List.replicate 256 (false, (0 : BitVec 16), 0)).length = 256 ∧ (let d := (cxDev upC).setRouter 1 { Router.reset with coher := [(hop2, [1])] }; Sparse.wf Router.reset d.routers = true) := by decide +kernel
theorem witness_entered : ∀ n ∈ [126, 127, 191, 192], n + 1 < 128 ∨ (128 ≤ n + 1 ∧ n + 1 ≤ 192) ∨ 192 < n + 1 := by decide

/-! The queue of commands, idle ticks, reset, and the forms the part does not have. -/

/-- The commands given, at the front of the queue of a READY device. -/
def queued (l : List Instr) : State := ⟨l, dev0⟩
def stepped (s : State) : Option State := match step s with | .next s' => some s' | _ => none

theorem test_step_takes_front : (stepped (queued [.perstAssert, .powerGood])).map (·.pending) = some [.powerGood] := by decide +kernel
theorem test_step_no_unit : step (queued [.add 3072, .powerGood]) = .fault .noSuchUnit := rfl
theorem test_table_word : decodeTableWord 64 0 = none ∧ (State.reset.withFetchWord 64 5).pending = [] := by decide
/-- R335, R341: LD0's counter, the horizon, and 18 tile cycles of 36 root cycles at divider 2. -/
def ticking : State := st { devWith (tileAt 5 0) with host := { dev0.host with horizon := some 9 }, pwr := { Power.reset with div := 2 } }
theorem test_tick : (stepped ticking).map (fun s => (s.dev.time 0, s.dev.host.horizon, (s.dev.tile 0).seq.cycle)) = some (1, some 8, 18) := by decide +kernel
theorem test_tick_off : (stepped (st { dev0 with mod := { dev0.mod with powered := false } })).map (fun s => (s.dev.time 0, s.dev.mod.ticks)) = some (0, 1) := by decide +kernel
/-- R216: the WARM reset asked for waits for the command in flight. -/
def asked (l : List Cmd) : State := st { dev0 with rst := { dev0.rst with pending := true }, host := { dev0.host with inflight := l } }
theorem test_warm_waits : (stepped (asked [cmd 0x00 []])).map (fun s => s.dev.rst.st) = some .ready := by decide +kernel
theorem test_warm_begins : (stepped (asked [])).map (fun s => (s.dev.rst.st, s.dev.rst.cause, s.dev.rst.pending)) = some (.reset, .swWarm, false) := by decide +kernel
theorem test_reset : State.reset.dev.rst.st = .reset ∧ State.reset.dev.rst.cause = .powerOn ∧ (State.reset.dev.link 3).taps = [0, -8, 48, -8, 0] := by decide +kernel

theorem witness_step : (queued [.perstAssert, .powerGood]).pending = .perstAssert :: [.powerGood] ∧ (queued []).pending = [] ∧ (after .perstAssert (queued [])).isSome = true := by decide +kernel
theorem witness_tick :
    (ticking.pending = [] ∧ Tidy 0 ticking.dev.pwr.time ∧ Tidy Link.reset ticking.dev.bad.links ∧ (∀ n, n < 16 → ticking.dev.linkOn n = true ∧ (ticking.dev.link n).st = .disabled) ∧ ticking.dev.mod.powered = true ∧ ticking.dev.rst.pending = false ∧ (ticking.dev.tile 0).running ≠ none ∧ (ticking.dev.tile 1).running = none) ∧
    (let s := st { dev0 with mod := { dev0.mod with powered := false } }; s.pending = [] ∧ Tidy 0 s.dev.pwr.time ∧ Tidy Link.reset s.dev.bad.links ∧ s.dev.mod.powered = false ∧ s.dev.rst.pending = false) ∧
    ((asked []).pending = [] ∧ Tidy 0 (asked []).dev.pwr.time ∧ Tidy Link.reset (asked []).dev.bad.links ∧ (asked []).dev.rst.pending = true ∧ (∀ c ∈ (asked []).dev.host.inflight, c.held.isSome = true) ∧ (asked []).dev.rst.st = .ready) := by
  simp only [Tidy]; decide +kernel
/-- A canonical device of tables that are not empty: tile 0 in an item, its memories listed, and a buffered write. -/
def tablesDev : Device :=
  { devWith { tileAt 5 7 with mem := [(3, 1)] } with
    dram := [(64, 5)], mcs := [(2, { MemCtl.reset with ch := [(1, { Channel.reset with openRow := [(0, 9)] })] })], ctrs := [(1, ⟨5, false⟩)] }
theorem witness_canonical : Canonical tablesDev ∧ (queued [.perstAssert]).dev = dev0 := by
  refine ⟨⟨?_, ?_, ?_, ?_, ?_, ?_, ?_, ?_, ?_, ?_, ?_⟩, rfl⟩
  · refine ⟨by simp only [Tidy]; decide +kernel, fun t => ?_⟩
    by_cases h : t = 0
    · subst h; simp only [TileTidy, Tidy]; decide +kernel
    · have : tablesDev.tile t = Tile.reset := by simp [Device.tile, tablesDev, devWith, Sparse.get]; omega
      rw [this]; simp only [TileTidy, Tidy]; decide +kernel
  · exact ⟨rfl, fun f => rfl⟩
  · exact ⟨rfl, rfl⟩
  · exact ⟨rfl, fun r => ⟨rfl, rfl, rfl, rfl, rfl, rfl⟩⟩
  · refine ⟨by simp only [Tidy]; decide +kernel, fun m => ?_⟩
    by_cases h : m = 2
    · subst h
      refine ⟨by simp only [Tidy]; decide +kernel, fun c => ?_⟩
      by_cases hc : c = 1
      · subst hc; exact ⟨by simp only [Tidy]; decide +kernel, by decide +kernel⟩
      · have : (tablesDev.mc 2).chan c = Channel.reset := by simp [Device.mc, tablesDev, devWith, MemCtl.chan, Sparse.get]; omega
        rw [this]; exact ⟨rfl, by decide⟩
    · have : tablesDev.mc m = MemCtl.reset := by simp [Device.mc, tablesDev, devWith, Sparse.get]; omega
      rw [this]; exact ⟨rfl, fun c => ⟨rfl, fun e he => by cases he⟩⟩
  · refine ⟨by decide +kernel, rfl, rfl, rfl⟩
  · exact ⟨by simp only [Tidy]; decide +kernel, rfl⟩
  · exact ⟨rfl, rfl, rfl, List.Pairwise.nil, by intro e he; cases he⟩
  · rfl
  · exact ⟨rfl, rfl, rfl, rfl⟩
  · exact List.Pairwise.nil
theorem witness_queue : Safety.queueOk (queued [.perstAssert, .add 3071, .smbStatus 1]) = true ∧ (Instr.add 3072).wellFormed = false ∧ Instr.trap 3072 ∈ tileInstrs 3072 := by decide +kernel

/-- One ill-formed command for each check: a number one past the part's last. -/
theorem test_ill_formed :
    (∀ c ∈ [Instr.add 3072, .itemEnd 3072, .selftestPartDone 3072 true [] true, .selftestPartDone 0 true [(8, 0)] true, .selftestPartDone 0 true [(0, 5)] true, .readResponse 384 0, .readResponse 0 2, .packetInject 384 0, .queueOperation 192, .sporeChunkWrite 192 [], .itemSend 64 0,
      .nop 0 65536, .bistRun 64 0 [], .dieTotalReport 8, .dramTrainDone 8 false, .sqTailDoorbell 64 0, .coalTimer 64, .registerWrite 0 2 0, .unmappedAnswer 384, .flitReceive 384 0 0, .flitReplayRequest 0 4,
      .creditReturn 384 0 0, .creditReturn 0 4 0, .creditReturn 0 0 8, .mcReadRequest 192, .dramTempRead 192 0, .dramCommandIssue 192 0, .dramCommandIssue 0 4], c.wellFormed = false) ∧
    (∀ c ∈ [Instr.agePromote 192 0 0, .dramReadData 0 4 [], .dramReadData 0 0 [(68, 1)], .tgtTimeout 385 1 ⟨0, ⟨0, 0⟩⟩, .tgtTimeout 1 0 ⟨0, ⟨0, 0⟩⟩, .tgtTimeout 2 1 ⟨0, ⟨0, 0⟩⟩, .sleepOkChange 72 true, .patchWake 64, .dllLock 72,
      .scrubFrameRead 72 [] .clean, .domainEval (.frond 192), .domainEval (.mcGroup 8 0), .domainEval (.mcGroup 0 3), .domainWakeDone (.patch 64), .domainEntryDone (.routerGroup 8 0),
      .domainEntryDone (.routerGroup 0 8), .networkSelftestDone [(384, 0)], .networkSelftestDone [(0, 4)], .census [⟨384, 0, .bridge⟩], .census [⟨0, 7, .bridge⟩], .trainingFrame 16 0 0 0, .trainingFrame 0 8 0 0, .rwrite 16,
      .fecCodewordReceive 16 (List.replicate 8 []), .fecCodewordReceive 0 (List.replicate 7 []), .fecCodewordReceive 0 (List.replicate 8 [4]),
      .rackResendTimer 64, .smbStatus 2, .smbThermal 2 0 0, .msixMaskWrite 64 true], c.wellFormed = false) := by decide +kernel
/-- And the last unit of each, which the part has. -/
theorem test_well_formed :
    (∀ c ∈ [Instr.add 3071, .selftestPartDone 3071 true [(7, 4)] true, .readResponse 383 1, .queueOperation 191, .nop 63 65535, .dieTotalReport 7, .sqTailDoorbell 63 0, .registerWrite 0 4 0, .registerWrite 0 8 0,
      .unmappedAnswer 383, .flitReceive 383 3 0, .creditReturn 383 3 7, .mcReadRequest 191, .dramReadData 191 3 [(67, 1)]], c.wellFormed = true) ∧
    (∀ c ∈ [Instr.tgtTimeout 382 1 ⟨0, ⟨0, 0⟩⟩, .tgtTimeout 38 1 ⟨0, ⟨0, 0⟩⟩, .tgtTimeout 51 1 ⟨0, ⟨0, 0⟩⟩, .patchWake 63, .dllLock 71, .domainEval (.frond 191), .domainEval (.mcGroup 7 2), .domainEval (.patch 63), .domainEval (.routerGroup 7 7),
      .census [⟨383, 6, .router 11 31⟩], .networkSelftestDone [(383, 3)], .trainingFrame 15 7 0 0, .fecCodewordReceive 15 (List.replicate 8 [3]), .rackResendTimer 63, .smbStatus 1, .msixMaskWrite 63 true, .closing], c.wellFormed = true) := by decide +kernel

/-- The marker's first byte is E1h, bit 0 first: pairs 10 00 01 11 (16 R398, R401). -/
theorem test_line_marker : (markerSymbols 0 0).take 4 = [3, 0, 1, 2] ∧ ((markerBytes 3 0x01020304).drop 16).take 5 = [3, 4, 3, 2, 1] ∧
    ((markerBytes 3 0x01020304).drop 48).head? = some 0xFC := by decide +kernel
/-- A filler block after 3 stuff symbols has 317 symbols (16 R402), and the 25th symbol after 24 of one level is a stuff symbol (16 R403). -/
theorem test_line_filler : (fillerBlock 3).length = 317 ∧ stuff (0, 0) (List.replicate 25 1) = List.replicate 24 1 ++ [3, 1] ∧
    stuff (0, 0) (List.replicate 24 2) = List.replicate 24 2 ++ [0] := by decide +kernel
/-- A codeword has 544 symbols, its message first, and 68 on each lane (16 R399). -/
theorem test_line_codeword : (rsEncode (List.range 514)).length = 544 ∧ (rsEncode (List.range 514)).take 514 = List.range 514 ∧ (laneSymbols 7 (rsEncode (List.range 514))).length = 68 := by decide +kernel
/-- IND_A blinks green on a derated part and IND_B shows a port that trains (18 R452). -/
theorem test_indicators :
    (let d := { Device.reset with rst := { Device.reset.rst with st := .ready } }
     d.indA = (if d.tilesInService < d.variant.tiles then .greenBlink else .green)) ∧ Device.reset.indA = .amberBlink ∧
      ({ Device.reset with cxl := { Device.reset.cxl with up := true } }).indB = .green ∧ ({ Device.reset with mod := { Device.reset.mod with input := false } }).indA = .off ∧
      (({ Device.reset with cxl := { Device.reset.cxl with up := true }, fuses := { Device.reset.fuses with linkEn := 1 } }).modLink 0 fun l => { l with st := .detect }).indB = .greenBlink := by decide +kernel

/-- The management target answers at 0x58 + 2·MSMB_ADDR1 + MSMB_ADDR0 (18 R453). -/
theorem test_straps : (after (.powerGood) (ms { mr with powered := false, straps := 3 })).map (fun d => d.mod.smbAddr) = some 0x5B := by decide +kernel

end Sys2Proof.Tests
end

section
/-! How an issue shows in the device: what the command of an instruction leaves, from what the instruction's body answers. -/

namespace Sys2Proof.Proofs

open Sys2Proof Sys2Proof.Machine Sys2Proof.Claims

/-- A value other than the default reads back where it was written, in any table: no canonical form is needed. -/
theorem get_put_same_of_ne_default {α : Type} [DecidableEq α] {d x : α} (hx : x ≠ d) (k : Nat) :
    ∀ m : Sparse α, Sparse.get d (Sparse.put d m k x) k = x
  | [] => by simp [Sparse.put, Sparse.get, hx]
  | (j, y) :: r => by
    have ih := get_put_same_of_ne_default hx k r
    by_cases hlt : k < j
    · simp [Sparse.put, Sparse.get, hlt, hx]
    · by_cases he : k = j
      · simp [Sparse.put, Sparse.get, he, hx]
      · simp [Sparse.put, Sparse.get, hlt, he, Ne.symm he, ih]

/-- The statements' faulted tile is the model's fault at the PC, with the status R108 gives the cause. -/
theorem faulted_eq_fault (T : Tile) (c : Cause) (trap : BitVec 16) : faulted T c c.status trap = T.fault c trap := by
  unfold faulted Tile.fault Tile.faultAt
  cases T.running <;> rfl

theorem limited_of_not {st : DevState} {w : Word} (h : ¬(st = .fiddlehead ∧ wordLimited w = true)) (body : Word → Tile → Issue) (T : Tile) :
    limited st body w T = body w T := by
  unfold limited
  exact if_neg (by simpa using h)

@[simp] theorem checked_nil (body : Unit → Issue) : checked [] body = body () := rfl
@[simp] theorem checked_cons_true (c : Cause) (l : List (Bool × Cause)) (body : Unit → Issue) : checked ((true, c) :: l) body = .fault c 0 := rfl
@[simp] theorem checked_cons_false (c : Cause) (l : List (Bool × Cause)) (body : Unit → Issue) : checked ((false, c) :: l) body = checked l body := rfl

section
variable {c : Instr} {s : State} {t op : Nat} {w : Word} {body : Ctx → Word → Tile → Issue}

/-- The command of an instruction that issues leaves its tile as the answer of its body says, and nothing else changed. -/
theorem leaves_of_body (hc : exec c s = runTile op body t s) (hr : reservedOpc op = false) (h : Issues s t op w) {i : Issue}
    (hi : body ⟨t, s.dev.time (t / 384)⟩ w (s.dev.tile t) = i) : Leaves c s t (i.apply (s.dev.tile t)) := by
  obtain ⟨ht, hat, rfl, hlim⟩ := h
  have htile : t < nTiles := ht
  rw [Leaves, hc, runTile, runUnit_ok _ _ _ (decide_eq_true htile), Device.issue_eq, Tile.issue_at _ _ _ hat hr, limited_of_not hlim, hi]

/-- A body that answers a cause is the tile fault of that cause (04 R108, R109). -/
theorem leaves_of_fault (hc : exec c s = runTile op body t s) (hr : reservedOpc op = false) (h : Issues s t op w) {k : Cause} {trap : BitVec 16}
    (hi : body ⟨t, s.dev.time (t / 384)⟩ w (s.dev.tile t) = .fault k trap) : Leaves c s t (faulted (s.dev.tile t) k k.status trap) := by
  rw [faulted_eq_fault]
  exact leaves_of_body hc hr h hi

/-- A reserved field is the first cause every body tests; where it holds, it is the fault. -/
theorem leaves_of_reservedField (hc : exec c s = runTile op body t s) (hr : reservedOpc op = false) (h : Issues s t op w)
    {b : Bool} {l : List (Bool × Cause)} {k : Unit → Issue}
    (hi : body ⟨t, s.dev.time (t / 384)⟩ w (s.dev.tile t) = checked ((b, .reservedField) :: l) k) (hb : b = true) :
    Leaves c s t (faulted (s.dev.tile t) .reservedField .tileFault 0) := by
  subst hb
  exact leaves_of_fault hc hr h hi

end

end Sys2Proof.Proofs
end

section
/-! What the scalar instructions compute (04 R85, R88, R89): the model's results are those the rules state. -/

namespace Sys2Proof.Proofs

open Sys2Proof Sys2Proof.Machine Sys2Proof.Claims

theorem ofNat_wrapInt (n : Nat) (x : Int) : BitVec.ofNat n (wrapInt n x) = BitVec.ofInt n x := by
  apply BitVec.eq_of_toNat_eq
  have hpos : (0 : Int) < (2 ^ n : Nat) := Int.natCast_pos.mpr (Nat.two_pow_pos n)
  have h0 : 0 ≤ x % (2 ^ n : Nat) := Int.emod_nonneg _ (Int.ne_of_gt hpos)
  have h1 : x % (2 ^ n : Nat) < (2 ^ n : Nat) := Int.emod_lt_of_pos _ hpos
  rw [BitVec.toNat_ofNat, BitVec.toNat_ofInt, wrapInt, Nat.mod_eq_of_lt (by omega)]

/-- The model's narrowed sum is the stated one, and raises SATURATED exactly out of range. -/
theorem add64_eq (w : Word) (x : Int) : add64 w x = (sum64 (wSat w) x, ⟨over64 x, false⟩) := by
  unfold add64 narrowInt sum64 over64
  by_cases hlo : x < -9223372036854775808
  · cases wSat w <;> simp [hlo, ofNat_wrapInt]
  · by_cases hhi : 9223372036854775808 ≤ x
    · cases wSat w <;> simp [hlo, hhi, ofNat_wrapInt]
    · cases wSat w <;> simp [hlo, hhi, ofNat_wrapInt, Flags.clear]

theorem shiftLeft_eq_ofNat (a : Word) (n : Nat) : a <<< n = BitVec.ofNat 64 (a.toNat * 2 ^ n) := by
  rw [← Nat.shiftLeft_eq]; rfl

theorem ushiftRight_eq_ofNat (a : Word) (n : Nat) : a >>> n = BitVec.ofNat 64 (a.toNat / 2 ^ n) := by
  rw [← Nat.shiftRight_eq_div_pow, ← BitVec.toNat_ushiftRight, BitVec.ofNat_toNat, BitVec.setWidth_eq]

theorem sshiftRight_eq_ofInt (a : Word) (n : Nat) : a.sshiftRight n = BitVec.ofInt 64 (a.toInt / 2 ^ n) := by
  rw [BitVec.sshiftRight_eq, Int.shiftRight_eq_div_pow]; simp

/-- The six conditions of CMP in the order of their codes (04 R88). -/
theorem cmpHolds_eq (a b : Word) : ∀ n, n ≤ 5 → cmpHolds n a b = [a == b, !(a == b), a.slt b, a.sle b, a.ult b, a.ule b].getD n false
  | 0, _ => rfl
  | 1, _ => rfl
  | 2, _ => rfl
  | 3, _ => rfl
  | 4, _ => rfl
  | 5, _ => rfl
  | _ + 6, h => by omega

/-- A field read as a signed number is the bit string's own signed value. -/
theorem sext_fld {k : Nat} (w : BitVec k) (lo n : Nat) (hn : n ≠ 0) : sext n (fld w lo n) = (w.extractLsb' lo n).toInt := by
  obtain ⟨m, rfl⟩ := Nat.exists_eq_succ_of_ne_zero hn
  have hlt : w.toNat >>> lo % 2 ^ (m + 1) < 2 ^ m ↔ 2 * (w.toNat >>> lo % 2 ^ (m + 1)) < 2 ^ (m + 1) := by rw [Nat.pow_succ]; omega
  simp [sext, fld, BitVec.toInt_eq_toNat_cond, BitVec.extractLsb'_toNat, hlt]

/-- A bit string that ends in y is the number that ends in y's. -/
theorem toNat_append_add {m n : Nat} (x : BitVec m) (y : BitVec n) : (x ++ y).toNat = x.toNat * 2 ^ n + y.toNat := by
  rw [BitVec.toNat_append, ← Nat.shiftLeft_add_eq_or_of_lt y.isLt, Nat.shiftLeft_eq]

/-- LI with UPPER: bits 63 to 47 replaced, the others kept (04 R89). -/
theorem li_upper_eq (w old : Word) :
    BitVec.ofNat 64 (old.toNat % 2 ^ 47 + fld w 0 17 * 2 ^ 47) = w.extractLsb' 0 17 ++ old.extractLsb' 0 47 := by
  apply BitVec.eq_of_toNat_eq
  rw [toNat_append_add]
  simp only [BitVec.toNat_ofNat, BitVec.extractLsb'_toNat, fld, Nat.shiftRight_zero]
  omega

/-- SS, field by field from LDEPTH down (04 R86). -/
theorem ss_eq_append (q : Seq) :
    q.ss = BitVec.ofNat 44 q.depth ++ q.rrbV ++ q.rrbG ++ q.strmState ++ (0 : BitVec 7) ++ BitVec.ofBool q.flags.nanSeen ++
      BitVec.ofBool q.flags.saturated := by
  have bit : ∀ b : Bool, b2n b = (BitVec.ofBool b).toNat := by decide
  have gap : (0 : BitVec 7).toNat = 0 := rfl
  apply BitVec.eq_of_toNat_eq
  simp only [toNat_append_add, bit, gap, Seq.ss, pack, List.foldl_cons, List.foldl_nil, Nat.shiftLeft_eq, BitVec.toNat_ofNat]
  omega

/-- LC0 to LC3, ITEM, SLOT, TILE, TIME and CYCLE by their numbers (04 R85). -/
theorem special_eq (c : Ctx) (T : Tile) : ∀ n, 1 ≤ n → n ≤ 9 → special c T n =
    (if n ≤ 4 then (Sparse.get 0 T.seq.lc (n - 1)).zeroExtend 64
     else if n = 5 then T.seq.item.zeroExtend 64
     else if n = 6 then T.seq.slot.zeroExtend 64
     else if n = 7 then BitVec.ofNat 64 c.t
     else if n = 8 then c.time
     else T.seq.cycle)
  | 0, h, _ => by omega
  | 1, _, _ => rfl
  | 2, _, _ => rfl
  | 3, _, _ => rfl
  | 4, _, _ => rfl
  | 5, _, _ => rfl
  | 6, _, _ => rfl
  | 7, _, _ => rfl
  | 8, _, _ => rfl
  | 9, _, _ => rfl
  | _ + 10, _, h => by omega

end Sys2Proof.Proofs
end

section
/-! The reserved fields of scalar and control words, and the instructions of two scalar operands (04 R80, R87, R88). -/

namespace Sys2Proof.Proofs

open Sys2Proof Sys2Proof.Machine Sys2Proof.Claims

theorem psSat_iff (w : Word) : psSat w = true ↔ wSat w = true ∨ wPs w ≠ 0 := by simp [psSat]

theorem psSat_eq_false {w : Word} (hs : wSat w = false) (hp : wPs w = 0) : psSat w = false := by simp [psSat, hs, hp]

theorem immBad_iff (w : Word) : immBad w = true ↔ (wImm w = true ∧ wGb w ≠ 0) ∨ (wImm w = false ∧ wImm32 w ≠ 0) := by simp [immBad]

/-- A field that must be zero under a mode bit, another one without it. -/
theorem ite_bool_iff (b : Bool) (p q : Prop) : (if b = true then p else q) ↔ (b = true ∧ p) ∨ (b = false ∧ q) := by
  cases b <;> simp

theorem wPs_of_form {w : Word} {n : Nat} (h : ScalarForm w n) : wPs w = 0 := by
  obtain ⟨hps, _, _, _⟩ := h
  exact hps

theorem wSub_le_of_form {w : Word} {n : Nat} (h : ScalarForm w n) : wSub w ≤ n := by
  obtain ⟨_, _, _, hsub⟩ := h
  exact hsub

theorem subZero_of_form {w : Word} (h : ScalarForm w 0) : subZero (wSub w) = true := by
  simpa [subZero] using wSub_le_of_form h

theorem immBad_of_form {w : Word} {n : Nat} (h : ScalarForm w n) : immBad w = false := by
  obtain ⟨_, hgb, himm32, _⟩ := h
  cases hi : wImm w <;> simp [immBad, hi, hgb, himm32]

theorem satIf_false (T : Tile) : satIf T false = T := by simp [satIf]

/-- A write of a register and a raise of flags touch different fields. -/
theorem setG_flag (q : Seq) (n : Nat) (x : Word) (b : Bool) :
    (q.setG n x).flag ⟨b, false⟩ = Seq.setG { q with flags := ⟨q.flags.saturated || b, q.flags.nanSeen⟩ } n x := by
  by_cases hn : n = 0 <;> simp [Seq.setG, Seq.flag, Flags.or, Seq.gPhys, hn]

theorem scalarOp_of_form {sat : Bool} {subOk : Nat → Bool} (f : Word → Word → Word → Word × Flags) (c : Ctx) {w : Word} {n : Nat} (T : Tile)
    (hw : ScalarForm w n) (hsub : subOk (wSub w) = true) (hsat : sat = true ∨ wSat w = false) :
    scalarOp sat subOk f c w T =
      .done { T with
        seq := (T.seq.setG (wGd w) (f w (T.seq.getG (wGa w)) (T.seq.opB w)).1).flag (f w (T.seq.getG (wGa w)) (T.seq.opB w)).2 } := by
  have hps : (if sat = true then wPs w != 0 else psSat w) = false := by
    rcases hsat with rfl | hsat
    · simp [wPs_of_form hw]
    · cases sat <;> simp [psSat, hsat, wPs_of_form hw]
  simp only [scalarOp, hps, immBad_of_form hw, hsub, Bool.not_true, Bool.or_self, checked_cons_false, checked_nil]

section
variable {c : Instr} {s : State} {t op n : Nat} {w : Word} {sat : Bool} {subOk : Nat → Bool} {f : Word → Word → Word → Word × Flags}

/-- An instruction of two scalar operands in its form writes its result to GD, raises SATURATED as f says, and goes on. -/
theorem leaves_scalarOp (hc : exec c s = runTile op (scalarOp sat subOk f) t s) (hr : reservedOpc op = false) (h : Issues s t op w)
    (hw : ScalarForm w n) (hsub : subOk (wSub w) = true) (hsat : sat = true ∨ wSat w = false) {x : Word} {b : Bool}
    (hf : f w ((s.dev.tile t).seq.getG (wGa w)) ((s.dev.tile t).seq.opB w) = (x, ⟨b, false⟩)) :
    Leaves c s t (wroteG (satIf (s.dev.tile t) b) (wGd w) x) := by
  have hi := scalarOp_of_form f ⟨t, s.dev.time (t / 384)⟩ (s.dev.tile t) hw hsub hsat
  rw [hf, setG_flag] at hi
  exact leaves_of_body hc hr h hi

/-- The same for an instruction that takes no SAT and raises no flag. -/
theorem leaves_scalarOp_clear (hc : exec c s = runTile op (scalarOp false subOk f) t s) (hr : reservedOpc op = false) (h : Issues s t op w)
    (hw : ScalarForm w n) (hsub : subOk (wSub w) = true) (hsat : wSat w = false) {x : Word}
    (hf : f w ((s.dev.tile t).seq.getG (wGa w)) ((s.dev.tile t).seq.opB w) = (x, Flags.clear)) :
    Leaves c s t (wroteG (s.dev.tile t) (wGd w) x) := by
  have hl := leaves_scalarOp hc hr h hw hsub (.inr hsat) hf
  rwa [satIf_false] at hl

end

end Sys2Proof.Proofs
end

section
/-! LI and MOV (04 R85, R88, R89), case by case. -/

namespace Sys2Proof.Proofs

open Sys2Proof Sys2Proof.Machine Sys2Proof.Claims

theorem liBody_lower {w : Word} (c : Ctx) (T : Tile) (hs : wSat w = false) (hp : wPs w = 0) (hu : bitAt w 47 = false) :
    liBody c w T = .done { T with seq := T.seq.setG (wGd w) ((w.extractLsb' 0 47).signExtend 64) } := by
  have hx : BitVec.ofInt 64 (sext 47 (fld w 0 47)) = (w.extractLsb' 0 47).signExtend 64 := by rw [sext_fld w 0 47 (by decide)]; rfl
  simp [liBody, psSat_eq_false hs hp, hu, hx]

theorem liBody_upper {w : Word} (c : Ctx) (T : Tile) (hs : wSat w = false) (hp : wPs w = 0) (hu : bitAt w 47 = true) (hz : fld w 17 30 = 0) :
    liBody c w T = .done { T with seq := T.seq.setG (wGd w) (w.extractLsb' 0 17 ++ (T.seq.getG (wGd w)).extractLsb' 0 47) } := by
  rw [← li_upper_eq]
  simp [liBody, psSat_eq_false hs hp, hu, hz]

/-- The fields R88 leaves MOV beside SUBOP: no SAT, no PS, no IMM, IMM32 zero. -/
def MovForm (w : Word) : Prop := wSat w = false ∧ wPs w = 0 ∧ wImm w = false ∧ wImm32 w = 0

section
variable {w : Word} (c : Ctx) (T : Tile) (hw : MovForm w)
include hw

theorem movReserved_of_form (hsub : wSub w ≤ 3) : (psSat w || wImm w || wImm32 w != 0 || decide (3 < wSub w)) = false := by
  obtain ⟨hs, hp, hi, hz⟩ := hw
  simp [psSat_eq_false hs hp, hi, hz, hsub]

/-- SUBOP 0: a register copied. -/
theorem movBody_copy (hsub : wSub w = 0) : movBody c w T = .done { T with seq := T.seq.setG (wGd w) (T.seq.getG (wGa w)) } := by
  simp only [movBody, movReserved_of_form hw (by omega), checked_cons_false]
  simp [hsub]

/-- SUBOP 1: a special register read. -/
theorem movBody_special (hsub : wSub w = 1) (hga : wGa w ≤ 9) (hss : wGa w = 0 → T.arr.blocks = []) :
    movBody c w T = .done { T with seq := T.seq.setG (wGd w) (special c T (wGa w)) } := by
  have hrange : decide (9 < wGa w) = false := decide_eq_false (by omega)
  simp only [movBody, movReserved_of_form hw (by omega), checked_cons_false]
  simpa [hsub, hrange] using hss

/-- SUBOP 1 naming SS while an array block is in flight: the sequencer is held (04 R85). -/
theorem movBody_ss_waits (hsub : wSub w = 1) (hga : wGa w = 0) (hb : T.arr.blocks ≠ []) : movBody c w T = .hold T := by
  simp only [movBody, movReserved_of_form hw (by omega), checked_cons_false]
  simp [hsub, hga, hb]

/-- SUBOP 2: a predicate register written. -/
theorem movBody_toPred (hsub : wSub w = 2) (hgd : 1 ≤ wGd w) (hgd' : wGd w ≤ 7) :
    movBody c w T = .done { T with seq := { T.seq with p := Sparse.put 0 T.seq.p (wGd w) (T.seq.getG (wGa w)) } } := by
  have hne : wGd w ≠ 0 := by omega
  have hrange : (wGd w == 0 || decide (7 < wGd w)) = false := by simp [hne, hgd']
  simp only [movBody, movReserved_of_form hw (by omega), checked_cons_false]
  simp [hsub, hrange, hne, Seq.setP]

/-- SUBOP 3: a predicate register read. -/
theorem movBody_fromPred (hsub : wSub w = 3) (hga : wGa w ≤ 7) :
    movBody c w T = .done { T with seq := T.seq.setG (wGd w) (T.seq.getP (wGa w)) } := by
  simp only [movBody, movReserved_of_form hw (by omega), checked_cons_false]
  have hrange : decide (7 < wGa w) = false := decide_eq_false (by omega)
  simp [hsub, hrange]

/-- A register number beyond the last special or predicate register, or p0 as a destination (04 R85, R88). -/
theorem movBody_operandRange
    (hn : (wSub w = 1 ∧ 10 ≤ wGa w) ∨ (wSub w = 2 ∧ (wGd w = 0 ∨ 8 ≤ wGd w)) ∨ (wSub w = 3 ∧ 8 ≤ wGa w)) :
    movBody c w T = .fault .operandRange 0 := by
  have hr := movReserved_of_form hw (by omega)
  have hrange : ((wSub w == 1 && decide (9 < wGa w)) || (wSub w == 2 && (wGd w == 0 || decide (7 < wGd w))) ||
      (wSub w == 3 && decide (7 < wGa w))) = true := by
    simp only [Bool.or_eq_true, Bool.and_eq_true, beq_iff_eq, decide_eq_true_eq]
    omega
  simp only [movBody, hr, hrange, checked_cons_false, checked_cons_true]

end

end Sys2Proof.Proofs
end

section
/-! A word that is no instruction: a reserved opcode, or a double-bit error in the word (04 R76, R81, R109). Every instruction's command then faults
the tile, handle operations as well. -/

namespace Sys2Proof.Proofs

open Sys2Proof Sys2Proof.Machine Sys2Proof.Claims

/-- Whatever instruction the tile is to issue, the word at its PC is the fault of that cause. -/
def WordFault (T : Tile) (k : Cause) : Prop := ∀ op body, Tile.issue op body T = T.fault k 0

theorem wordFault_of_fetchBad {T : Tile} (hc : T.canIssue = true) (hb : T.fetchBad = true) : WordFault T .sramUncorrectable := fun op body => by
  simp [Tile.issue, hc, hb]

theorem wordFault_of_reservedOpc {T : Tile} (hc : T.canIssue = true) (hb : T.fetchBad = false) (hr : reservedOpc (wOpc T.fetch) = true) :
    WordFault T .reservedOpcode := fun op body => by
  simp [Tile.issue, hc, hb, hr]

/-- A faulted tile is no tile at reset, so it reads back where it was written. -/
theorem tile_setTile_fault (d : Device) (t : Nat) (T : Tile) (k : Cause) (trap : BitVec 16) : (d.setTile t (T.fault k trap)).tile t = T.fault k trap := by
  refine get_put_same_of_ne_default (fun he => ?_) t d.tiles
  have hst : SeqState.faulted = .idle := congrArg (fun T : Tile => T.seq.st) he
  cases hst

@[simp] theorem fault_wait (T : Tile) (k : Cause) (trap : BitVec 16) : (T.fault k trap).seq.wait = none := rfl
@[simp] theorem fault_ops (T : Tile) (k : Cause) (trap : BitVec 16) : (T.fault k trap).seq.ops = T.seq.ops := rfl
@[simp] theorem fault_cause (T : Tile) (k : Cause) (trap : BitVec 16) : (T.fault k trap).seq.fault.cause = k := rfl

variable {s : State} {t : Nat} {k : Cause}

theorem issue_of_wordFault {d : Device} (hk : WordFault (d.tile t) k) (op : Nat) (body : Ctx → Word → Tile → Issue) :
    Device.issue op body t d = d.setTile t ((d.tile t).fault k 0) := by
  rw [Device.issue_eq, hk]

/-- A handle instruction sends nothing and counts nothing where its word faults, unless for ADDRESS. -/
theorem handleIssue_of_wordFault {d : Device} (hk : WordFault (d.tile t) k) (ha : k ≠ .address) (op : Nat) (reserved range : Word → Tile → Bool)
    (dest : Word → Option Nat) (own : Word → Tile → HopReq → HopReq) :
    handleIssue op reserved range dest own t d = d.setTile t ((d.tile t).fault k 0) := by
  simp [handleIssue, issue_of_wordFault hk, tile_setTile_fault, ha]

/-- The command leaves the tile's fault behind, and no free value was taken. -/
theorem leaves'_of_run {c : Instr} {f : Device → Device} (hc : exec c s = runUnit (decide (t < nTiles)) f s) (ht : t < 3072) {T : Tile}
    (hf : f s.dev = s.dev.setTile t T) : ∃ n, Leaves' c s t T n := by
  have htile : t < nTiles := ht
  refine ⟨s.dev.free, ?_⟩
  rw [Leaves', hc, runUnit_ok _ _ _ (decide_eq_true htile), hf]
  rfl

/-- Each command of tileInstrs issues through Tile.issue: directly, or under a handle operation. -/
theorem leaves'_of_wordFault (ht : t < 3072) (hk : WordFault (s.dev.tile t) k) (ha : k ≠ .address) :
    ∀ c ∈ tileInstrs t, ∃ n, Leaves' c s t ((s.dev.tile t).fault k 0) n := by
  have tile {c : Instr} {op : Nat} {body : Ctx → Word → Tile → Issue} (hc : exec c s = runTile op body t s) :
      ∃ n, Leaves' c s t ((s.dev.tile t).fault k 0) n := leaves'_of_run hc ht (issue_of_wordFault hk op body)
  have handle {c : Instr} {f : Nat → Device → Device} {op : Nat} {reserved range : Word → Tile → Bool} {dest : Word → Option Nat}
      {own : Word → Tile → HopReq → HopReq} (hc : exec c s = runUnit (decide (t < nTiles)) (f t) s)
      (hf : f t s.dev = handleIssue op reserved range dest own t s.dev) : ∃ n, Leaves' c s t ((s.dev.tile t).fault k 0) n :=
    leaves'_of_run hc ht (hf.trans (handleIssue_of_wordFault hk ha op reserved range dest own))
  simp only [tileInstrs, List.forall_mem_cons]
  exact ⟨tile rfl, tile rfl, tile rfl, tile rfl, tile rfl, tile rfl, tile rfl, tile rfl, tile rfl, tile rfl, tile rfl, tile rfl, tile rfl,
    tile rfl, handle (f := waith) rfl rfl, handle (f := signal) rfl rfl, tile rfl, tile rfl, tile rfl, tile rfl,
    handle (f := hpush) rfl rfl, handle (f := hpop) rfl rfl, handle (f := hpeek) rfl rfl, tile rfl, tile rfl,
    tile rfl, tile rfl, tile rfl, tile rfl, tile rfl, tile rfl, tile rfl, tile rfl, tile rfl, tile rfl, tile rfl, tile rfl, tile rfl,
    tile rfl, tile rfl, tile rfl, tile rfl, tile rfl, tile rfl, tile rfl, tile rfl, tile rfl, fun _ h => absurd h List.not_mem_nil⟩

end Sys2Proof.Proofs
end

section
/-! ScalarInstructions: each clause by its instruction's lemma. -/

namespace Sys2Proof.Proofs

open Sys2Proof Sys2Proof.Machine Sys2Proof.Claims

variable {s : State} {t : Nat} {w : Word}

theorem leaves_shr (hs : wSat w = false) (hw : ScalarForm w 1) (h : Issues s t 0x06 w) :
    Leaves (.shr t) s t (wroteG (s.dev.tile t) (wGd w)
      (if wSub w = 0 then BitVec.ofNat 64 (((s.dev.tile t).seq.getG (wGa w)).toNat / 2 ^ (((s.dev.tile t).seq.opB w).toNat % 64))
       else BitVec.ofInt 64 (((s.dev.tile t).seq.getG (wGa w)).toInt / 2 ^ (((s.dev.tile t).seq.opB w).toNat % 64)))) := by
  refine leaves_scalarOp_clear rfl rfl h hw (decide_eq_true (wSub_le_of_form hw)) hs ?_
  simp only [ushiftRight_eq_ofNat, sshiftRight_eq_ofInt]

theorem leaves_cmp (hs : wSat w = false) (hw : ScalarForm w 5) (h : Issues s t 0x09 w) :
    let a := (s.dev.tile t).seq.getG (wGa w)
    let b := (s.dev.tile t).seq.opB w
    Leaves (.cmp t) s t (wroteG (s.dev.tile t) (wGd w)
      (if [a == b, !(a == b), a.slt b, a.sle b, a.ult b, a.ule b].getD (wSub w) false then 1 else 0)) := by
  refine leaves_scalarOp_clear rfl rfl h hw (decide_eq_true (wSub_le_of_form hw)) hs ?_
  rw [cmpHolds_eq _ _ _ (wSub_le_of_form hw)]

/-- MOV from a special register other than SS. -/
theorem leaves_mov_special (hw : MovForm w) (h : Issues s t 0x08 w) (hsub : wSub w = 1) (h1 : 1 ≤ wGa w) (h9 : wGa w ≤ 9) :
    Leaves (.mov t) s t (wroteG (s.dev.tile t) (wGd w)
      (if wGa w ≤ 4 then (Sparse.get 0 (s.dev.tile t).seq.lc (wGa w - 1)).zeroExtend 64
       else if wGa w = 5 then (s.dev.tile t).seq.item.zeroExtend 64
       else if wGa w = 6 then (s.dev.tile t).seq.slot.zeroExtend 64
       else if wGa w = 7 then BitVec.ofNat 64 t
       else if wGa w = 8 then s.dev.time (t / 384)
       else (s.dev.tile t).seq.cycle)) := by
  have hi := movBody_special ⟨t, s.dev.time (t / 384)⟩ (s.dev.tile t) hw hsub h9 (by omega)
  rw [special_eq _ _ _ h1 h9] at hi
  exact leaves_of_body rfl rfl h hi

/-- MOV from SS with no array block in flight. -/
theorem leaves_mov_ss (hw : MovForm w) (h : Issues s t 0x08 w) (hsub : wSub w = 1) (h0 : wGa w = 0) (hb : (s.dev.tile t).arr.blocks = []) :
    Leaves (.mov t) s t (wroteG (s.dev.tile t) (wGd w) (s.dev.tile t).seq.ss) := by
  have hi := movBody_special ⟨t, s.dev.time (t / 384)⟩ (s.dev.tile t) hw hsub (by omega) (fun _ => hb)
  rw [h0] at hi
  exact leaves_of_body rfl rfl h hi

end Sys2Proof.Proofs
end

section

namespace Sys2Proof.Proofs

open Sys2Proof Sys2Proof.Machine Sys2Proof.Claims

/-- Settles O2: each instruction's own lemma, over the one lemma of what an issue leaves; the reserved fields are the first cause every body tests. -/
theorem scalarInstructions : Obligations.ScalarInstructions := by
  unfold Obligations.ScalarInstructions
  refine ⟨fun s t w hw => ⟨?add, ?sub⟩, fun s t w hs => ⟨?and, ?or, ?xor, ?shl, leaves_shr hs, leaves_cmp hs⟩, fun s t w hs hp => ?liMov,
    fun s t w => ?faults⟩
  case add => exact fun h => leaves_scalarOp rfl rfl h hw (subZero_of_form hw) (.inl rfl) (add64_eq w _)
  case sub => exact fun h => leaves_scalarOp rfl rfl h hw (subZero_of_form hw) (.inl rfl) (add64_eq w _)
  case and => exact fun hw h => leaves_scalarOp_clear rfl rfl h hw (subZero_of_form hw) hs rfl
  case or => exact fun hw h => leaves_scalarOp_clear rfl rfl h hw (subZero_of_form hw) hs rfl
  case xor => exact fun hw h => leaves_scalarOp_clear rfl rfl h hw (subZero_of_form hw) hs rfl
  case shl => exact fun hw h => leaves_scalarOp_clear rfl rfl h hw (subZero_of_form hw) hs (by rw [shiftLeft_eq_ofNat])
  case liMov =>
    refine ⟨fun h hu => leaves_of_body rfl rfl h (liBody_lower _ _ hs hp hu),
      fun h hu hz => leaves_of_body rfl rfl h (liBody_upper _ _ hs hp hu hz),
      fun ⟨hi, hz, h⟩ hsub => leaves_of_body rfl rfl h (movBody_copy _ _ ⟨hs, hp, hi, hz⟩ hsub),
      fun ⟨hi, hz, h⟩ hsub h0 hb => ?ss,
      fun ⟨hi, hz, h⟩ hsub h0 hb => leaves_of_body rfl rfl h (movBody_ss_waits _ _ ⟨hs, hp, hi, hz⟩ hsub h0 hb),
      fun ⟨hi, hz, h⟩ hsub h1 h9 => leaves_mov_special ⟨hs, hp, hi, hz⟩ h hsub h1 h9,
      fun ⟨hi, hz, h⟩ hsub h1 h7 => leaves_of_body rfl rfl h (movBody_toPred _ _ ⟨hs, hp, hi, hz⟩ hsub h1 h7),
      fun ⟨hi, hz, h⟩ hsub h7 => leaves_of_body rfl rfl h (movBody_fromPred _ _ ⟨hs, hp, hi, hz⟩ hsub h7),
      fun ⟨hi, hz, h⟩ hn => leaves_of_fault rfl rfl h (movBody_operandRange _ _ ⟨hs, hp, hi, hz⟩ hn)⟩
    case ss =>
      rw [← ss_eq_append]
      exact leaves_mov_ss ⟨hs, hp, hi, hz⟩ h hsub h0 hb
  case faults =>
    refine ⟨fun h hb => leaves_of_reservedField rfl rfl h rfl ?_,
      fun h hb => leaves_of_reservedField rfl rfl h rfl ?_,
      fun h hb => leaves_of_reservedField rfl rfl h rfl ?_,
      fun h hb => leaves_of_reservedField rfl rfl h rfl ?_,
      fun h hb => leaves_of_reservedField rfl rfl h rfl ?_,
      fun h hb => leaves_of_reservedField rfl rfl h rfl ?_,
      fun h hb => leaves_of_reservedField rfl rfl h rfl ?_,
      fun h hb => leaves_of_reservedField rfl rfl h rfl ?_,
      fun h hb => leaves_of_reservedField rfl rfl h rfl ?_,
      fun h hb => leaves_of_reservedField rfl rfl h (by unfold movBody; rfl) ?_,
      fun h hb => leaves_of_reservedField rfl rfl h (by unfold brBody; rfl) ?_,
      fun h hb => leaves_of_reservedField rfl rfl h rfl ?_,
      fun h hb => leaves_of_reservedField rfl rfl h (by unfold loopBody; rfl) ?_,
      fun h hb => leaves_of_reservedField rfl rfl h rfl ?_,
      fun h hb => leaves_of_reservedField rfl rfl h rfl ?_,
      fun h hb => leaves_of_reservedField rfl rfl h rfl ?_,
      fun ht hc hb hr => ?opcode, fun ht hc hb => ?badWord⟩
    case opcode =>
      have hl := leaves'_of_wordFault ht (wordFault_of_reservedOpc hc hb hr) (by decide)
      rwa [← faulted_eq_fault] at hl
    case badWord =>
      have hl := leaves'_of_wordFault ht (wordFault_of_fetchBad hc hb) (by decide)
      rwa [← faulted_eq_fault] at hl
    all_goals simpa [psSat_iff, immBad_iff, subZero, or_assoc, ite_bool_iff] using hb

end Sys2Proof.Proofs
end

section
/-! Vector registers and predicate words lane by lane: the model's lists of 64 lanes are functions of the lane (05 R111, R112, R114). -/

namespace Sys2Proof.Proofs

open Sys2Proof Sys2Proof.Machine Sys2Proof.Claims

theorem zipIdx_map_range {α : Type} (f : Nat → α) (n : Nat) : ((List.range n).map f).zipIdx = (List.range n).map fun l => (f l, l) := by
  apply List.ext_getElem <;> simp

theorem setVFrom_flags (n : Nat) : ∀ (r : List (BitVec 32 × Bool)) (q : Seq) (l : Nat), (q.setVFrom n l r).flags = q.flags
  | [], _, _ => rfl
  | (x, m) :: r, q, l => by
    rw [Seq.setVFrom, setVFrom_flags n r]
    cases m <;> rfl

@[simp] theorem setV_flags (q : Seq) (n : Nat) (m : Word) (x : List (BitVec 32)) : (q.setV n m x).flags = q.flags := setVFrom_flags n _ q 0

@[simp] theorem flag_none (q : Seq) : q.flag ⟨false, false⟩ = q := by
  simp [Seq.flag, Flags.or]

/-- A tile whose vector register was written and whose flags were raised, gone on. -/
theorem fallThrough_setV_flag (T : Tile) (vd : Nat) (m : Word) (x : List (BitVec 32)) (fl : Flags) :
    Tile.fallThrough { T with seq := (T.seq.setV vd m x).flag fl } = wroteV T vd m x fl := by
  simp [wroteV, Seq.flag, Flags.or]

/-- The same where no flag is raised. -/
theorem fallThrough_setV (T : Tile) (vd : Nat) (m : Word) (x : List (BitVec 32)) :
    Tile.fallThrough { T with seq := T.seq.setV vd m x } = wroteV T vd m x ⟨false, false⟩ := by
  rw [← fallThrough_setV_flag, flag_none]

/-- The second source, lane by lane (05 R114). -/
theorem srcB_eq_map (T : Tile) (w : Word) : T.seq.srcB w = (List.range 64).map (srcLane T w) := by
  cases hb : wSb w
  · have hs : srcLane T w = T.seq.getLane (wVb w) := funext fun l => by simp [srcLane, hb]
    simp [Seq.srcB, Seq.getV, hb, hs]
  · have hs : srcLane T w = fun _ => splat (vecWidth (wVfmt w)) (T.seq.getG (wVgb w)).toNat := funext fun l => by simp [srcLane, hb]
    rw [Seq.srcB, hb, hs, List.map_const', List.length_range, if_pos rfl]

/-- Both sources, lane by lane. -/
theorem getV_zip_srcB (T : Tile) (w : Word) (n : Nat) :
    (T.seq.getV n).zip (T.seq.srcB w) = (List.range 64).map fun l => (T.seq.getLane n l, srcLane T w l) := by
  rw [srcB_eq_map, Seq.getV, List.zip_map']

/-- The number a list of bits makes, its first bit at place k. -/
def bitsFrom (k : Nat) (L : List Bool) : Nat := ((L.zipIdx k).map fun e => b2n e.1 * 2 ^ e.2).sum

theorem ofBits_eq_bitsFrom (L : List Bool) : ofBits L = BitVec.ofNat 64 (bitsFrom 0 L) := rfl

theorem bitsFrom_cons_from (k : Nat) (b : Bool) (L : List Bool) : bitsFrom k (b :: L) = b2n b * 2 ^ k + bitsFrom (k + 1) L := rfl

/-- Bits from place k on are the bits from place 0, moved up by k. -/
theorem bitsFrom_eq_mul (L : List Bool) (k : Nat) : bitsFrom k L = 2 ^ k * bitsFrom 0 L := by
  induction L generalizing k with
  | nil => rfl
  | cons b L ih =>
    rw [bitsFrom_cons_from, bitsFrom_cons_from, ih (k + 1), ih (0 + 1), Nat.mul_add, Nat.pow_zero, Nat.mul_one, Nat.mul_comm (b2n b),
      ← Nat.mul_assoc, ← Nat.pow_add, Nat.zero_add]

theorem bitsFrom_cons (b : Bool) (L : List Bool) : bitsFrom 0 (b :: L) = b2n b + 2 * bitsFrom 0 L := by
  rw [bitsFrom_cons_from, bitsFrom_eq_mul L (0 + 1)]
  omega

theorem testBit_bitsFrom : ∀ (L : List Bool) (i : Nat), (bitsFrom 0 L).testBit i = L.getD i false
  | [], i => Nat.zero_testBit i
  | b :: L, 0 => by
    have hmod : bitsFrom 0 (b :: L) % 2 = b2n b := by
      rw [bitsFrom_cons, Nat.add_mul_mod_self_left]
      cases b <;> rfl
    rw [Nat.testBit_zero, hmod, List.getD_cons_zero]
    cases b <;> rfl
  | b :: L, i + 1 => by
    have hdiv : bitsFrom 0 (b :: L) / 2 = bitsFrom 0 L := by
      have hb : b2n b < 2 := by cases b <;> decide
      rw [bitsFrom_cons]
      omega
    rw [Nat.testBit_succ, hdiv, testBit_bitsFrom L i, List.getD_cons_succ]

/-- A word made of 64 bits holds in each place that bit. -/
theorem getLsbD_ofBits_map_range (f : Nat → Bool) {l : Nat} (hl : l < 64) : (ofBits ((List.range 64).map f)).getLsbD l = f l := by
  rw [ofBits_eq_bitsFrom, BitVec.getLsbD_ofNat, testBit_bitsFrom]
  simp [hl]

theorem foldl_or_eq (L : List Flags) (a : Flags) :
    L.foldl Flags.or a = ⟨a.saturated || L.any Flags.saturated, a.nanSeen || L.any Flags.nanSeen⟩ := by
  induction L generalizing a with
  | nil => simp
  | cons x L ih => simp [ih, Flags.or, Bool.or_assoc]

theorem flags_all_eq (L : List Flags) : Flags.all L = ⟨L.any Flags.saturated, L.any Flags.nanSeen⟩ := by
  simp [Flags.all, foldl_or_eq, Flags.clear]

/-- The flags of the selected lanes: an event of any of them (05 R112). -/
theorem maskFlags_map_range (m : Word) (f : Nat → Flags) (n : Nat) :
    maskFlags m ((List.range n).map f) =
      ⟨(List.range n).any fun l => bitAt m l && (f l).saturated, (List.range n).any fun l => bitAt m l && (f l).nanSeen⟩ := by
  simp [maskFlags, zipIdx_map_range, flags_all_eq, List.filter_map, List.any_map, List.any_filter, Function.comp_def]

end Sys2Proof.Proofs
end

section
/-! The conditions of VSEL on integers and on FP32 values (05 R116). -/

namespace Sys2Proof.Proofs

open Sys2Proof Sys2Proof.Machine Sys2Proof.Claims

/-- The six conditions in the order of SUBOP 1 to 6, each from the three comparisons. -/
theorem vselHolds_eq (e l g : Bool) : ∀ n, 1 ≤ n → n ≤ 6 → vselHolds n e l g = [e, !e, l, l || e, g, g || e].getD (n - 1) false
  | 0, h, _ => by omega
  | 1, _, _ => rfl
  | 2, _, _ => rfl
  | 3, _, _ => rfl
  | 4, _, _ => rfl
  | 5, _, _ => rfl
  | 6, _, _ => rfl
  | _ + 7, _, h => by omega

theorem isNan_iff (a : FVal) : a.isNan = true ↔ a = .nan := by cases a <;> simp [FVal.isNan]

theorem lt_nan_left (a : FVal) : FVal.lt .nan a = false := rfl

theorem lt_nan_right (a : FVal) : FVal.lt a .nan = false := by cases a <;> rfl

/-- The vector unit reads the codes of +0 and -0 as zeros. -/
theorem vec32_zero {c : BitVec 32} (h : c = 0 ∨ c = 0x80000000) : ∃ x, vec32 c = .fin x 0 0 := by
  obtain rfl | rfl := h
  · exact ⟨false, by decide⟩
  · exact ⟨true, by decide⟩

variable {n : Nat} (h1 : 1 ≤ n) (h6 : n ≤ 6)
include h1 h6

theorem vselHolds_int (a b : BitVec 32) :
    vselHolds n (a == b) (decide (a.toInt < b.toInt)) (decide (b.toInt < a.toInt)) = condInt n a.toInt b.toInt := by
  have heq : (a == b) = decide (a.toInt = b.toInt) := by
    rw [Bool.eq_iff_iff, beq_iff_eq, decide_eq_true_eq, BitVec.toInt_inj]
  have hle (x y : Int) : (decide (x < y) || decide (x = y)) = decide (x ≤ y) := by rw [← Bool.decide_or]; simp only [Int.le_iff_lt_or_eq]
  have hge (x y : Int) : (decide (y < x) || decide (x = y)) = decide (y ≤ x) := by rw [← hle]; simp only [eq_comm]
  rw [vselHolds_eq _ _ _ n h1 h6, condInt, heq, hle, hge, decide_not]

theorem vselHolds_fp (a b : FVal) : vselHolds n (FVal.eqv a b) (FVal.lt a b) (FVal.lt b a) = condFp n a b := vselHolds_eq _ _ _ n h1 h6

theorem one_to_six : n = 1 ∨ n = 2 ∨ n = 3 ∨ n = 4 ∨ n = 5 ∨ n = 6 := by omega

/-- A comparison that involves a NaN is false, NE true. -/
theorem condFp_of_isNan {a b : FVal} (h : (a.isNan || b.isNan) = true) : condFp n a b = decide (n = 2) := by
  have hlt : FVal.lt a b = false ∧ FVal.lt b a = false := by
    rw [Bool.or_eq_true, isNan_iff, isNan_iff] at h
    obtain rfl | rfl := h
    · exact ⟨lt_nan_left b, lt_nan_right b⟩
    · exact ⟨lt_nan_right a, lt_nan_left a⟩
  obtain ⟨hab, hba⟩ := hlt
  have he : FVal.eqv a b = false := by rw [FVal.eqv, ← Bool.not_or, h]; rfl
  rw [condFp, hab, hba, he]
  obtain rfl | rfl | rfl | rfl | rfl | rfl := one_to_six h1 h6 <;> rfl

/-- Zeros are equal, whatever their signs. -/
theorem condFp_zeros (x y : Bool) (d e : Int) : condFp n (.fin x 0 d) (.fin y 0 e) = decide (n = 1 ∨ n = 4 ∨ n = 6) := by
  have hlt (x y : Bool) (d e : Int) : FVal.lt (.fin x 0 d) (.fin y 0 e) = false := by cases x <;> cases y <;> simp [FVal.lt, sgn]
  have he : FVal.eqv (.fin x 0 d) (.fin y 0 e) = true := by simp [FVal.eqv, FVal.isNan, hlt]
  rw [condFp, hlt, hlt, he]
  obtain rfl | rfl | rfl | rfl | rfl | rfl := one_to_six h1 h6 <;> rfl

end Sys2Proof.Proofs
end

section
/-! VSEL form by form: what its body answers (05 R114, R116). -/

namespace Sys2Proof.Proofs

open Sys2Proof Sys2Proof.Machine Sys2Proof.Claims

/-- Lane l of a compare of the register VA with the second source: the condition, and whether it read a NaN. -/
def cmpLane (T : Tile) (w : Word) (l : Nat) : Bool × Bool := vselLane (wVfmt w) (wVsub w) (T.seq.getLane (wVa w) l) (srcLane T w l)

/-- The word a compare writes to its predicate register. -/
def cmpWord (T : Tile) (w : Word) : Word := ofBits ((List.range 64).map fun l => (cmpLane T w l).1 && bitAt (T.seq.getP (wPs w)) l)

/-- Whether a compare reads a NaN in a selected lane. -/
def cmpNan (T : Tile) (w : Word) : Bool := (List.range 64).any fun l => bitAt (T.seq.getP (wPs w)) l && (cmpLane T w l).2

section
variable {w : Word} (T : Tile) (h1 : 1 ≤ wVsub w) (h6 : wVsub w ≤ 6)

include h1 h6 in
/-- A lane's condition is the stated one, on signed numbers or on FP32 values. -/
theorem cmpLane_cond (hf : wVfmt w = 3 ∨ wVfmt w = 8) (l : Nat) :
    (cmpLane T w l).1 = if wVfmt w = 3 then condInt (wVsub w) (T.seq.getLane (wVa w) l).toInt (srcLane T w l).toInt
      else condFp (wVsub w) (vec32 (T.seq.getLane (wVa w) l)) (vec32 (srcLane T w l)) := by
  obtain hf | hf := hf
  · simpa [cmpLane, vselLane, hf] using vselHolds_int h1 h6 _ _
  · simpa [cmpLane, vselLane, hf] using vselHolds_fp h1 h6 _ _

theorem cmpLane_nan (l : Nat) :
    (cmpLane T w l).2 = true ↔ wVfmt w = 8 ∧ ((vec32 (T.seq.getLane (wVa w) l)).isNan || (vec32 (srcLane T w l)).isNan) = true := by
  by_cases hf : wVfmt w = 8 <;> simp [cmpLane, vselLane, hf]

include h1 h6 in
/-- Bit l of the word a compare writes: the selecting bit and the condition. -/
theorem getLsbD_cmpWord (hf : wVfmt w = 3 ∨ wVfmt w = 8) {l : Nat} (hl : l < 64) :
    (cmpWord T w).getLsbD l = (bitAt (T.seq.getP (wPs w)) l &&
      if wVfmt w = 3 then condInt (wVsub w) (T.seq.getLane (wVa w) l).toInt (srcLane T w l).toInt
      else condFp (wVsub w) (vec32 (T.seq.getLane (wVa w) l)) (vec32 (srcLane T w l))) := by
  rw [cmpWord, getLsbD_ofBits_map_range _ hl, Bool.and_comm, cmpLane_cond T h1 h6 hf]

theorem cmpNan_iff : cmpNan T w = true ↔ ∃ l, l < 64 ∧ bitAt (T.seq.getP (wPs w)) l = true ∧ wVfmt w = 8 ∧
    ((vec32 (T.seq.getLane (wVa w) l)).isNan || (vec32 (srcLane T w l)).isNan) = true := by
  simp only [cmpNan, List.any_eq_true, List.mem_range, Bool.and_eq_true, cmpLane_nan]

end

/-- The first cause VSEL tests: a field that R114 or R116 does not leave it. -/
def selReserved (w : Word) : Bool :=
  wSat w || elemBad false true w || (decide (1 ≤ wVsub w) && decide (wVsub w ≤ 6) && wVfmt w != 3 && wVfmt w != 8) ||
    (wVsub w == 7 && (!wSb w || wVa w != 0))

theorem vselBody_reservedField (c : Ctx) {w : Word} (T : Tile) (h : selReserved w = true) : vselBody c w T = .fault .reservedField 0 := by
  rw [selReserved] at h
  simp only [vselBody, h, checked_cons_true]

section
variable {w : Word} (hw : SelForm w)
include hw

/-- In a word of the form, only a packed compare, or a BCAST without a scalar or with a VA, leaves a reserved field (05 R116). -/
theorem selReserved_iff : selReserved w = true ↔
    (1 ≤ wVsub w ∧ wVsub w ≤ 6 ∧ wVfmt w ≠ 3 ∧ wVfmt w ≠ 8) ∨ (wVsub w = 7 ∧ (wSb w = false ∨ wVa w ≠ 0)) := by
  obtain ⟨hsat, hlow, hfmt, hvb, hvgb, hvc⟩ := hw
  have hbad : elemBad false true w = false := by
    cases hb : wSb w
    · simp [elemBad, hlow, hfmt, hb, hvgb hb, hvc]
    · simp [elemBad, hlow, hfmt, hb, hvb hb, hvc]
  simp [selReserved, hsat, hbad, and_assoc]

theorem selReserved_eq_false (h : ¬((1 ≤ wVsub w ∧ wVsub w ≤ 6 ∧ wVfmt w ≠ 3 ∧ wVfmt w ≠ 8) ∨ (wVsub w = 7 ∧ (wSb w = false ∨ wVa w ≠ 0)))) :
    selReserved w = false := Bool.eq_false_iff.mpr (mt (selReserved_iff hw).mp h)

variable (c : Ctx) (T : Tile)

/-- SUBOP 0: SELECT takes every lane from the source its bit names. -/
theorem vselBody_select (hsub : wVsub w = 0) :
    vselBody c w T = .done { T with
      seq := T.seq.setV (wVd w) (BitVec.allOnes 64)
        ((List.range 64).map fun l => if bitAt (T.seq.getP (wPs w)) l then T.seq.getLane (wVa w) l else srcLane T w l) } := by
  have hr := selReserved_eq_false hw (by omega)
  rw [selReserved] at hr
  simp only [vselBody, hr, checked_cons_false, getV_zip_srcB, zipIdx_map_range]
  simp [hsub, Function.comp_def]

/-- SUBOP 7: BCAST writes the scalar to the selected lanes. -/
theorem vselBody_bcast (hsub : wVsub w = 7) (hb : wSb w = true) (ha : wVa w = 0) :
    vselBody c w T = .done { T with seq := T.seq.setV (wVd w) (T.seq.getP (wPs w)) (List.replicate 64 (srcLane T w 0)) } := by
  have hr := selReserved_eq_false hw (by simp [hsub, hb, ha])
  rw [selReserved] at hr
  simp only [vselBody, hr, checked_cons_false]
  simp [hsub, Seq.srcB, srcLane, hb]

section
variable (h1 : 1 ≤ wVsub w) (h6 : wVsub w ≤ 6) (hf : wVfmt w = 3 ∨ wVfmt w = 8)
include h1 h6 hf

theorem selReserved_of_compare : selReserved w = false := selReserved_eq_false hw (by omega)

/-- SUBOP 1 to 6: a compare writes its word to p(VD) and sees the NaNs of the selected lanes. -/
theorem vselBody_compare (hd1 : 1 ≤ wVd w) (hd7 : wVd w ≤ 7) :
    vselBody c w T = .done { T with
      seq := { T.seq with
        p := Sparse.put 0 T.seq.p (wVd w) (cmpWord T w), flags := ⟨T.seq.flags.saturated, T.seq.flags.nanSeen || cmpNan T w⟩ } } := by
  have hr := selReserved_of_compare hw h1 h6 hf
  rw [selReserved] at hr
  have hd0 : wVd w ≠ 0 := by omega
  have hrange : (wVd w == 0 || decide (7 < wVd w)) = false := by simp [hd0, hd7]
  have h0 : wVsub w ≠ 0 := by omega
  have h7 : wVsub w ≠ 7 := by omega
  simp only [vselBody, hr, hrange, Bool.and_false, checked_cons_false, checked_nil, if_neg h0, if_neg h7, getV_zip_srcB, List.map_map,
    Function.comp_def, zipIdx_map_range, maskFlags_map_range]
  simp [Seq.setP, hd0, Seq.flag, Flags.or, Flags.ofNan, cmpWord, cmpNan, cmpLane]

/-- A compare into another register than p1 to p7. -/
theorem vselBody_operandRange (hd : wVd w = 0 ∨ 7 < wVd w) : vselBody c w T = .fault .operandRange 0 := by
  have hr := selReserved_of_compare hw h1 h6 hf
  rw [selReserved] at hr
  have hrange : (decide (1 ≤ wVsub w) && decide (wVsub w ≤ 6) && (wVd w == 0 || decide (7 < wVd w))) = true := by simp [h1, h6, hd]
  simp only [vselBody, hr, hrange, checked_cons_false, checked_cons_true]

end

end

end Sys2Proof.Proofs
end

section
/-! VectorSelect: each form by the lemma of its body. -/

namespace Sys2Proof.Proofs

open Sys2Proof Sys2Proof.Machine Sys2Proof.Claims

/-- Settles O4: each form of VSEL by the lemma of its body, over the one lemma of what an issue leaves; a compare's word and its NaNs lane by lane. -/
theorem vectorSelect : Obligations.VectorSelect := by
  unfold Obligations.VectorSelect
  intro s t w h hw
  refine ⟨fun hsub => ?select, fun h1 h6 hd1 hd7 hf => ⟨cmpWord (s.dev.tile t) w, cmpNan (s.dev.tile t) w, ?compare,
      fun l hl => getLsbD_cmpWord _ h1 h6 hf hl, cmpNan_iff _, fun l hl h8 hnan => ?nan, fun l hl h8 ha hb => ?zeros⟩,
    fun hsub hb ha => ?bcast, fun h1 h6 hf hd => ?range, fun hr => ?reserved⟩
  case select =>
    rw [← fallThrough_setV]
    exact leaves_of_body rfl rfl h (vselBody_select hw _ _ hsub)
  case compare => exact leaves_of_body rfl rfl h (vselBody_compare hw _ _ h1 h6 hf hd1 hd7)
  case nan =>
    rw [getLsbD_cmpWord _ h1 h6 hf hl, if_neg (by omega), condFp_of_isNan h1 h6 hnan]
  case zeros =>
    obtain ⟨x, hx⟩ := vec32_zero ha
    obtain ⟨y, hy⟩ := vec32_zero hb
    rw [getLsbD_cmpWord _ h1 h6 hf hl, if_neg (by omega), hx, hy, condFp_zeros h1 h6]
  case bcast =>
    rw [← fallThrough_setV]
    exact leaves_of_body rfl rfl h (vselBody_bcast hw _ _ hsub hb ha)
  case range => exact leaves_of_fault rfl rfl h (vselBody_operandRange hw _ _ h1 h6 hf hd)
  case reserved => exact leaves_of_fault rfl rfl h (vselBody_reservedField _ _ ((selReserved_iff hw).mpr hr))

end Sys2Proof.Proofs
end

section
/-! Where a DRAM offset lies (10 R252). The placement turns the blocks of a line round the controllers and cuts the granule's number within its channel
into bank group, bank, column and row; each of the two has an inverse, and `unplaceDram` puts the inverses together. -/

namespace Sys2Proof.Proofs

open Sys2Proof Sys2Proof.Machine Sys2Proof.Claims

section
variable {n a i : Nat}

/-- The residue that `unplaceDram` gives for controller i, turned by a, is i again. -/
theorem turnBack_add_mod (hi : i < n) : ((i + n - a % n) % n + a) % n = i := by
  have hlt : a % n < n := Nat.mod_lt _ (by omega)
  calc ((i + n - a % n) % n + a) % n
    _ = (i + n - a % n + a % n) % n := by rw [Nat.mod_add_mod, Nat.add_mod_mod]
    _ = i := by rw [Nat.sub_add_cancel (by omega), Nat.add_mod_right, Nat.mod_eq_of_lt hi]

/-- Turning back is the inverse on the other side too: the sum of the two residues either stays below n or passes it once. -/
theorem turnBack_of_add_mod (hn : 0 < n) (h : Nat) : ((h + a) % n + n - a % n) % n = h % n := by
  have ha : a % n < n := Nat.mod_lt _ hn
  have hh : h % n < n := Nat.mod_lt _ hn
  rw [Nat.add_mod h a n]
  by_cases hsum : h % n + a % n < n
  · have hback : h % n + a % n + n - a % n = h % n + n := by omega
    rw [Nat.mod_eq_of_lt hsum, hback, Nat.add_mod_right, Nat.mod_eq_of_lt hh]
  · have hback : h % n + a % n - n + n - a % n = h % n := by omega
    have hrest : h % n + a % n - n < n := by omega
    rw [Nat.mod_eq_sub_mod (Nat.le_of_not_lt hsum), Nat.mod_eq_of_lt hrest, hback, Nat.mod_eq_of_lt hh]

end

/-- The granule of its channel that a place names: L of R252, put together from row, column, bank and bank group. -/
def granuleOf (p : DramLoc) : Nat := 128 * p.row + 16 * p.col + 4 * (p.bank % 4) + p.bank / 4

/-- The four parts into which R252 cuts a granule's number of 21 bits, put together again. -/
theorem granule_of_parts {l : Nat} (hl : l < 2 ^ 21) : 128 * (l / 128 % 16384) + 16 * (l / 16 % 8) + 4 * (l / 4 % 4) + l % 4 = l := by
  have hcol : l / 16 = l / 4 / 4 := (Nat.div_div_eq_div_mul l 4 4).symm
  have hrow : l / 128 = l / 16 / 8 := (Nat.div_div_eq_div_mul l 16 8).symm
  omega

/-- `placeDram` with the 512-byte block, its line and the granule's number L written out. -/
theorem placeDram_eq (ms : List Nat) (o : Nat) :
    let line := o / 512 / ms.length
    let l := line / 2
    placeDram ms o =
      { mc := ms.getD ((o / 512 + line) % ms.length) 0, chan := 2 * (line % 2) + o / 256 % 2, bank := 4 * (l % 4) + l / 4 % 4,
        row := l / 128 % 16384, col := l / 16 % 8, byte := o % 256 } := by
  simp only [placeDram, Nat.div_div_eq_div_mul, Nat.reduceMul]

section
variable (ms : List Nat) (o : Nat)

theorem placeDram_mc : (placeDram ms o).mc = ms.getD ((o / 512 + o / 512 / ms.length) % ms.length) 0 := by rw [placeDram_eq]

theorem placeDram_chan : (placeDram ms o).chan = 2 * (o / 512 / ms.length % 2) + o / 256 % 2 := by rw [placeDram_eq]

theorem placeDram_byte : (placeDram ms o).byte = o % 256 := by rw [placeDram_eq]

theorem placeDram_bank : (placeDram ms o).bank = 4 * (o / 512 / ms.length / 2 % 4) + o / 512 / ms.length / 2 / 4 % 4 := by rw [placeDram_eq]

theorem placeDram_row : (placeDram ms o).row = o / 512 / ms.length / 2 / 128 % 16384 := by rw [placeDram_eq]

theorem placeDram_col : (placeDram ms o).col = o / 512 / ms.length / 2 / 16 % 8 := by rw [placeDram_eq]

/-- The bank group is the bank's upper half. -/
theorem placeDram_bankGroup : (placeDram ms o).bank / 4 = o / 512 / ms.length / 2 % 4 := by
  rw [placeDram_bank]
  omega

theorem placeDram_bankInGroup : (placeDram ms o).bank % 4 = o / 512 / ms.length / 2 / 4 % 4 := by
  rw [placeDram_bank]
  omega

/-- In the window's 2 ^ 22 lines no bit of L is lost. -/
theorem granuleOf_placeDram (hline : o / 512 / ms.length < 2 ^ 22) : granuleOf (placeDram ms o) = o / 512 / ms.length / 2 := by
  rw [granuleOf, placeDram_row, placeDram_col, placeDram_bankInGroup, placeDram_bankGroup]
  exact granule_of_parts (by omega)

variable {ms o}

theorem line_lt_of_lt_window (hn : 0 < ms.length) (ho : o < ms.length * 2 ^ 31) : o / 512 / ms.length < 2 ^ 22 := by
  rw [Nat.div_lt_iff_lt_mul hn]
  omega

/-- The controller's index is one of the die's, so the place names an enabled controller. -/
theorem placeDram_mc_mem (hn : 0 < ms.length) : (placeDram ms o).mc ∈ ms := by
  rw [placeDram_mc, List.getD_eq_getElem?_getD, List.getElem?_eq_getElem (Nat.mod_lt _ hn), Option.getD_some]
  exact List.getElem_mem _

/-- The place of an offset in the window, read backwards, is the offset's granule. -/
theorem unplaceDram_placeDram (hn : 0 < ms.length) (ho : o < ms.length * 2 ^ 31) :
    unplaceDram ms.length ((o / 512 + o / 512 / ms.length) % ms.length) (placeDram ms o).chan (granuleOf (placeDram ms o)) + (placeDram ms o).byte = o := by
  rw [granuleOf_placeDram ms o (line_lt_of_lt_window hn ho), placeDram_chan, placeDram_byte]
  have hline : 2 * (o / 512 / ms.length / 2) + (2 * (o / 512 / ms.length % 2) + o / 256 % 2) / 2 = o / 512 / ms.length := by omega
  have hblock : o / 512 / ms.length * ms.length + o / 512 % ms.length = o / 512 := Nat.div_add_mod' _ _
  simp only [unplaceDram, hline, turnBack_of_add_mod hn, hblock]
  omega

end

/-- The place of an internal address is that of its offset in its die's window. -/
theorem loc_of_offset (d : Device) (k : Nat) {o : Nat} (ho : o < 0x1000000000) : d.loc (k * 0x1000000000 + o) = placeDram (d.mcsOf k) o := by
  have hdie : (k * 0x1000000000 + o) / 0x1000000000 = k := by omega
  have hoff : (k * 0x1000000000 + o) % 0x1000000000 = o := by omega
  rw [Device.loc, hdie, hoff]

section
variable {n i c l : Nat}

/-- The 512-byte block of granule l of channel c: its line, and within the line the controller's index turned back. -/
theorem unplaceDram_block : unplaceDram n i c l / 512 = (2 * l + c / 2) * n + (i + n - (2 * l + c / 2) % n) % n := by
  simp only [unplaceDram]
  omega

theorem unplaceDram_byte : unplaceDram n i c l % 256 = 0 := Nat.mul_mod_left _ _

theorem unplaceDram_half : unplaceDram n i c l / 256 % 2 = c % 2 := by
  simp only [unplaceDram]
  omega

theorem unplaceDram_line (hi : i < n) : unplaceDram n i c l / 512 / n = 2 * l + c / 2 := by
  have hn : 0 < n := by omega
  rw [unplaceDram_block, Nat.mul_comm, Nat.mul_add_div hn, Nat.div_eq_of_lt (Nat.mod_lt _ hn), Nat.add_zero]

/-- The index of the controller at which the placement arrives. -/
theorem unplaceDram_controller (hi : i < n) : (unplaceDram n i c l / 512 + unplaceDram n i c l / 512 / n) % n = i := by
  rw [unplaceDram_line hi, unplaceDram_block, Nat.add_assoc, Nat.mul_add_mod_self_right, turnBack_add_mod hi]

/-- A channel has 2 ^ 21 granules, so the place read backwards lies in the window. -/
theorem unplaceDram_lt (hi : i < n) (hc : c < 4) (hl : l < 2 ^ 21) : unplaceDram n i c l < n * 2 ^ 31 := by
  have hline : unplaceDram n i c l / 512 / n < 2 ^ 22 := by rw [unplaceDram_line hi]; omega
  rw [Nat.div_lt_iff_lt_mul (by omega)] at hline
  omega

end

end Sys2Proof.Proofs
end

section
/-! DramPlacement: the fields, and the two inverses. -/

namespace Sys2Proof.Proofs

open Sys2Proof Sys2Proof.Machine Sys2Proof.Claims

/-- Settles O49: the placement's fields, and unplaceDram as its inverse on either side, from the inverse of the turn round the controllers and the one of the cut of L. -/
theorem dramPlacement : Obligations.DramPlacement := by
  unfold Obligations.DramPlacement
  intro ms o i c l hn
  refine ⟨?fields, fun d k ho => loc_of_offset d k ho, fun ho => ?offset, fun hi hc hl => ?place⟩
  case fields =>
    refine ⟨placeDram_mc ms o, placeDram_chan ms o, placeDram_bankGroup ms o, ?_, ?_, ?_, placeDram_byte ms o⟩
    · rw [placeDram_bankInGroup, Nat.div_div_eq_div_mul _ 2 4]
    · rw [placeDram_col, Nat.div_div_eq_div_mul _ 2 16]
    · rw [placeDram_row, Nat.div_div_eq_div_mul _ 2 128]
  case offset =>
    refine ⟨placeDram_mc_mem hn, ?_, ?_, ?_, ?_, ?_, _, Nat.mod_lt _ hn, (placeDram_mc ms o).symm, unplaceDram_placeDram hn ho⟩
    · rw [placeDram_chan]; omega
    · rw [placeDram_bank]; omega
    · rw [placeDram_row]; omega
    · rw [placeDram_col]; omega
    · rw [placeDram_byte]; omega
  case place =>
    have hline : unplaceDram ms.length i c l / 512 / ms.length = 2 * l + c / 2 := unplaceDram_line hi
    refine ⟨unplaceDram_lt hi hc hl, ?mc, ?chan, ?byte, ?granule⟩
    case mc => rw [placeDram_mc, unplaceDram_controller hi]
    case chan => rw [placeDram_chan, hline, unplaceDram_half]; omega
    case byte => rw [placeDram_byte, unplaceDram_byte]
    case granule =>
      calc granuleOf (placeDram ms (unplaceDram ms.length i c l))
        _ = (2 * l + c / 2) / 2 := by rw [granuleOf_placeDram _ _ (by rw [hline]; omega), hline]
        _ = l := by omega

end Sys2Proof.Proofs
end
